-- ==== Sys2Proof/Word.lean ====
section
/-!
DEFINITION. Word.lean: the words of the DW20 and the plainest arithmetic on them.

R4: a register word is 32 bits, every multi-byte field is little-endian, bit 0 is the least significant bit.
-/
namespace Sys2Proof

/-- One byte of a memory. -/
abbrev Byte := BitVec 8
/-- One 32-bit register word (R4). -/
abbrev Word := BitVec 32
/-- A 64-bit word: counters, stamps of the timebase, keys. -/
abbrev DWord := BitVec 64

/-- Bits [hi:lo] of a number (R4's inclusive bit ranges). -/
def bits (x hi lo : Nat) : Nat := (x >>> lo) % 2 ^ (hi + 1 - lo)

/-- Bit n of a number. -/
def bit (x n : Nat) : Bool := (x >>> n) % 2 == 1

/-- A number with bits [hi:lo] replaced by those of `v`. -/
def setBits (x hi lo v : Nat) : Nat :=
  x - bits x hi lo * 2 ^ lo + (v % 2 ^ (hi + 1 - lo)) * 2 ^ lo

/-- The quotient rounded up; 0 where the divisor is 0. -/
def ceilDiv (a b : Nat) : Nat := if b == 0 then 0 else (a + b - 1) / b

/-- A `n`-bit pattern read as two's complement. -/
def toSigned (n x : Nat) : Int := if x % 2 ^ n ≥ 2 ^ (n - 1) then (x % 2 ^ n : Int) - 2 ^ n else (x % 2 ^ n : Int)

/-- An integer as an `n`-bit two's complement pattern. -/
def ofSigned (n : Nat) (x : Int) : Nat := (x % (2 ^ n : Int)).toNat

/-- The number of one bits among the `n` lowest. -/
def popcount : Nat → Nat → Nat
  | 0, _ => 0
  | n + 1, x => x % 2 + popcount n (x / 2)

/-- A value held between two limits: "out-of-range values are stored as the nearest limit". -/
def clampNat (lo hi x : Nat) : Nat := if x < lo then lo else if x > hi then hi else x

end Sys2Proof
end

