-- ==== Sys2Proof/Syntax.lean ====
section
/-!
DEFINITION. Syntax.lean: the commands of the DW20, one constructor for each row of spec/opcode_table.json.

A command is either something an outside party does (a register write, a command of a page, a message, a pin), or one
indivisible act of the device itself (a firing, a completion, the end of an interval). Its operands are what the act needs
and the state does not hold: who acts, where, and what is measured or received.
-/
namespace Sys2Proof

/-- Who writes, reads or issues (R37, R38): the physical function, virtual function `n` (1–64, partition n − 1), the acting KMC,
or the sequencer core `inst` of compute die `die`. -/
inductive Caller where
  | pf
  | vf (n : Nat)
  | kmc
  | seq (die inst : Nat)
deriving DecidableEq, Repr

/-- The write to CMD that issues a command (R38): its caller, its page (die × 2048 + page index, R43), and what it
writes to the reserved bits CMD[31:8]. The arguments are those the page's ARG registers hold. -/
structure Issue where
  caller : Caller
  page : Nat
  hi : BitVec 24 := 0
deriving DecidableEq, Repr

/-- One credit account of a remote window (R135): the sender and the window. -/
structure Account where
  pkg : Nat
  die : Nat
  ctx : Nat
  part : Nat
  tpkg : Nat
  tdie : Nat
  tmc : Nat
  twin : Nat
deriving DecidableEq, Repr

/-- The table an edit names (R177): the context `ctx` whose unit orders the edit, and the request `rq` the table belongs to. -/
structure TableOf where
  ctx : Nat
  rq : Nat
deriving DecidableEq, Repr

/-- A 64-byte Skipper task descriptor (R235), as its sixteen words. -/
structure Task where
  words : List Word
deriving DecidableEq, Repr

/-- What a GYL port learns of its peer in training (R339). -/
structure PeerInfo where
  pkg : Nat
  hub : Nat
  port : Nat
  idvalid : Bool
deriving DecidableEq, Repr

/-- Where a configuration request points (R397, R322, R399). The manual gives no register offsets of configuration space, so the
targets are named. -/
inductive CfgReg where
  /-- MSI-X Message Control: bit 15 enables, bit 14 masks the function. -/
  | msixControl
  /-- NumVFs with VF Enable, as the host sets them: the number of functions enabled. -/
  | numVf
  /-- Device Control: bit 2 enables fatal error reporting. -/
  | devControl
  /-- Any other register. -/
  | other (n : Nat)
deriving DecidableEq, Repr

/-- A message of a GYL virtual channel (R342, Table 19.5). `status`: of a NACK its status; of a WR or an RDRSP 0x1E where the data are tagged
poison. `op`: what an ATOM asks for. -/
structure Msg where
  kind : Nat
  vc : Nat
  srcPkg : Nat
  dstPkg : Nat
  part : Nat
  tag : Nat
  addr : Nat
  len : Nat
  /-- LVL: 0 before a rack crossing, 1 after. -/
  lvl : Nat
  status : Nat
  op : Nat
  data : List Byte
deriving DecidableEq, Repr

/-- A flit (R340, R341): sequence number, acknowledgement, and the messages it carries. -/
structure Flit where
  seq : Nat
  ack : Nat
  nak : Bool
  idle : Bool
  crcOk : Bool
  msgs : List Msg
deriving DecidableEq, Repr

/-- A collective message (R355, R358). `src`: the sender as a peer entry names it (bits [17:0]); `isData`: a message of SEND or BCAST, else an arrival;
`tag`: 0 such a message, 1 the acceptance of one, 2 the credit its consumption returns, 3 ABORT; `rt`: on the real-time channel. -/
structure CollMsg where
  group : Nat
  inst : Nat
  part : Nat
  src : Nat
  isData : Bool
  tag : Nat
  data : List Byte
  rt : Bool := false
deriving DecidableEq, Repr

/-- The commands, in the table's order. -/
inductive Instr where
  -- registers and block pages (ch. 0, 3)
  /-- REGISTER_WRITE. R6: `v` is written to the register at register-space offset `off`. -/
  | registerWrite (by_ : Caller) (off : Nat) (v : Word)
  /-- LATCHING_LOW_READ. R37: a read of a low word at `off`. -/
  | latchingLowRead (by_ : Caller) (off : Nat)
  /-- REG_ACCESS_MISALIGNED. R43: an access at `off` of `bytes` bytes that is not an aligned word. -/
  | regAccessMisaligned (by_ : Caller) (off bytes : Nat)
  /-- VF_WRITE_DENIED. R46: a BAR0 write of virtual function `vf`. -/
  | vfWriteDenied (vf off : Nat) (v : Word)
  /-- PAGE_ENABLE. R34: `v` written to PAGE_CTL asks for ENABLE 1. -/
  | pageEnable (by_ : Caller) (page : Nat) (v : Word)
  /-- PAGE_DISABLE. R34: `v` written to PAGE_CTL asks for ENABLE 0. -/
  | pageDisable (by_ : Caller) (page : Nat) (v : Word)
  /-- PAGE_QUIESCE. R34: `v` written to PAGE_CTL asks for QUIESCE 1. -/
  | pageQuiesce (by_ : Caller) (page : Nat) (v : Word)
  /-- PAGE_UNQUIESCE. R34: `v` written to PAGE_CTL asks for QUIESCE 0. -/
  | pageUnquiesce (by_ : Caller) (page : Nat) (v : Word)
  /-- PAGE_BIND_LOCK. R34: `v` written to PAGE_CTL asks for a change of BIND_LOCK. -/
  | pageBindLock (by_ : Caller) (page : Nat) (v : Word)
  /-- PAGE_QUIESCED. R33: the work of a QUIESCING block has stopped. -/
  | pageQuiesced (page : Nat)
  /-- PAGE_EVT_CLEAR. R35: `v` written to PAGE_EVT. -/
  | pageEvtClear (by_ : Caller) (page : Nat) (v : Word)
  /-- PAGE_EVTEN_WRITE. R35: `v` written to PAGE_EVTEN. -/
  | pageEvtenWrite (by_ : Caller) (page : Nat) (v : Word)
  /-- ERRLOG_CLEAR. R36: `v` written to PAGE_ERRLOG1. -/
  | errlogClear (by_ : Caller) (page : Nat) (v : Word)
  /-- CMD_COMPLETION. R38: the outstanding command of `page` completes. -/
  | cmdCompletion (page : Nat)
  /-- CMD_NOP. R40: common command 0xF0. -/
  | cmdNop (q : Issue)
  /-- CLR_COUNTERS. R40: common command 0xF1. -/
  | clrCounters (q : Issue)
  -- in-package links (ch. 1)
  /-- DDL_LANE_REPAIR. R13: a lane of DDL `inst` of `die` fails. -/
  | ddlLaneRepair (die inst : Nat)
  /-- DDL_LINK_REMOVE. R13: the link at DDL `inst` of `die` cannot be repaired. -/
  | ddlLinkRemove (die inst : Nat)
  -- rate monitor and timebase (ch. 2)
  /-- RTM_INTERVAL_END. R20: an interval ends; measured rate (M waves/s), TEMP code, rail in mV. -/
  | rtmIntervalEnd (die rate temp mv : Nat)
  /-- RTM_TEMP_HIGH. R20: the junction temperature code (0.25 degrees) reaches `temp`. -/
  | rtmTempHigh (die temp : Nat)
  /-- RTM_CALIBRATION. R20: the calibration of `die` is wanted. -/
  | rtmCalibration (die : Nat)
  /-- TBCLK_LOSS. R23: TBCLK edges absent for more than 1 us. -/
  | tbclkLoss
  /-- TBCLK_RETURN. R23: edges return, or a gap interrupts the qualification. -/
  | tbclkReturn
  /-- TBCLK_QUALIFIED. R23: 1 ms of good edges has passed. -/
  | tbclkQualified
  /-- TB_EXCHANGE. R24: the exchange with the upstream neighbour ends with these four stamps. -/
  | tbExchange (t1 t2 t3 t4 : DWord)
  /-- TIME_MESSAGE. R24: a time message arrives on `port` (codes of UPSTREAM). -/
  | timeMessage (port : Nat) (t1 t2 t3 t4 : DWord)
  /-- SET_TIME. R25: command 0x01 of the TMB page of HD0. -/
  | setTime (q : Issue)
  /-- TB_STEP_MESSAGE. R25: a step message arrives on `port`. -/
  | tbStepMessage (port : Nat) (diff : DWord)
  -- fabric (ch. 4)
  /-- TRANSFER_ARRIVE. R63: the staging register of a switch output hands its transfer to the input it feeds. -/
  | transferArrive (die site net out slot : Nat)
  /-- SWITCH_FORWARD. R55: the transfer waiting at switch input `src` (codes of R57) is routed. -/
  | switchForward (die site net src slot : Nat)
  /-- STEER_FIRE. R56: the steering unit of network `net` (0 vector, 1 scalar) acts on its next token. -/
  | steerFire (die site net slot : Nat)
  /-- MICRO_NOP. R58: the cell fires a NOP. -/
  | microNop (die site : Nat)
  /-- MOV. R60: the cell fires a MOV. -/
  | mov (die site : Nat)
  /-- WAITT. R60: the cell fires a WAITT. -/
  | waitt (die site : Nat)
  /-- LDBOUND. R60: the cell fires an LDBOUND. -/
  | ldbound (die site : Nat)
  /-- MMA. R49: the cell fires an MMA. -/
  | mma (die site : Nat)
  /-- MMA_INIT. R49: the cell fires an MMA_INIT. -/
  | mmaInit (die site : Nat)
  /-- OPB_LOAD. R60: the cell fires an OPB_LOAD. -/
  | opbLoad (die site : Nat)
  /-- ACC_DRAIN. R116: the cell fires an ACC_DRAIN. -/
  | accDrain (die site : Nat)
  /-- ACC_CLEAR. R60: the cell fires an ACC_CLEAR. -/
  | accClear (die site : Nat)
  /-- VOP. R50: the cell fires a VOP. -/
  | vop (die site : Nat)
  /-- MRD. R51: the cell fires an MRD. -/
  | mrd (die site : Nat)
  /-- MWR. R51: the cell fires an MWR. -/
  | mwr (die site : Nat)
  /-- MRDN. R51: the cell fires an MRDN. -/
  | mrdn (die site : Nat)
  /-- MWRN. R51: the cell fires an MWRN. -/
  | mwrn (die site : Nat)
  /-- MRD_IDX. R51: the cell fires an MRD_IDX. -/
  | mrdIdx (die site : Nat)
  /-- SKIPZ. R58: the cell fires an instruction with NXT SKIPZ. -/
  | skipz (die site : Nat)
  /-- FOLD_SLOT_SWITCH. R64: the cell goes to the next fold entry. -/
  | foldSlotSwitch (die site : Nat)
  /-- CELL_FOLD_WRITE. R64: a write to CELL_FOLD or CELL_FOLDENT at `off`. -/
  | cellFoldWrite (by_ : Caller) (off : Nat) (v : Word)
  -- configuration, reconfiguration, deadlock (ch. 5)
  /-- DRAIN_TAKEN. R74: the control logic takes a DRAIN at the head of control input `inp`. -/
  | drainTaken (die site slot inp : Nat)
  /-- FENCE_TAKEN. R75: the control logic takes a FENCE at the head of control input `inp`. -/
  | fenceTaken (die site slot inp : Nat)
  /-- SLOT_DRAINED. R74: a DRAINING slot has met its conditions. -/
  | slotDrained (die site slot : Nat)
  /-- CFG_LOAD. R72: SEQ command 0x10. -/
  | cfgLoad (q : Issue)
  /-- CFG_LOAD_DONE. R80: the load outstanding on SEQ `page` finishes writing. -/
  | cfgLoadDone (page : Nat)
  /-- DRAIN. R76: SEQ command 0x11. -/
  | drain (q : Issue)
  /-- DRAIN_INJECT. R76: a DRAIN that waited for room is injected. -/
  | drainInject (page : Nat)
  /-- EPOCH_BUMP. R77: SEQ command 0x12. -/
  | epochBump (q : Issue)
  /-- EPOCH_BUMP_TAKEN. R78: the cell and switch at `site` take the bump. -/
  | epochBumpTaken (die site : Nat)
  /-- FENCE_REL. R76: SEQ command 0x13. -/
  | fenceRel (q : Issue)
  /-- CFG_CLEAR. R73: SEQ command 0x14. -/
  | cfgClear (q : Issue)
  /-- DLD_STALL. R83: the deadlock window of context `ctx` on `die` passes. -/
  | dldStall (die ctx : Nat)
  /-- SPILL_COMPLETE. R84: the banks of the stall have been copied. -/
  | spillComplete (die : Nat)
  /-- BANK_REFILL. R84: a spill-extended bank takes its head from the spill area. -/
  | bankRefill (die site slot net inp : Nat)
  -- loop nests (ch. 6)
  /-- LN_ISSUE. R92: SEQ command 0x20. -/
  | lnIssue (q : Issue)
  /-- LN_ISSUE_RESUME. R95: the issue waiting on SEQ `page` proceeds. -/
  | lnIssueResume (page : Nat)
  -- scratch and windows (ch. 8)
  /-- MC_SETPAIR. R130: MC command 0x30. -/
  | mcSetpair (q : Issue)
  /-- MC_OPENWIN. R134: MC command 0x31. -/
  | mcOpenwin (q : Issue)
  /-- MC_CLOSEWIN. R138: MC command 0x32. -/
  | mcClosewin (q : Issue)
  /-- MC_WINRET. R137: MC command 0x33. -/
  | mcWinret (q : Issue)
  /-- REMOTE_WRITE. R135: the remote-write unit of `die` issues `data` to a board-global remote-scratch address. -/
  | remoteWrite (die ctx addr : Nat) (data : List Byte)
  /-- CREDIT_REQ. R135: a window receives a credit request. -/
  | creditReq (acc : Account) (units : Nat)
  /-- CREDIT_GRANT. R135: a sender receives a grant. -/
  | creditGrant (acc : Account) (units : Nat)
  /-- REMOTE_LINE. R137: a credited line is accepted at byte offset `off` of the window. -/
  | remoteLine (acc : Account) (off : Nat) (data : List Byte)
  /-- WIN_REVOKE. R138: a sender receives a revoke. -/
  | winRevoke (acc : Account)
  /-- WIN_REVOKE_CONFIRM. R138: a window receives a sender's confirmation and its returned balance. -/
  | winRevokeConfirm (acc : Account) (balance : Nat)
  /-- WIN_CLOSE_TIMEOUT. R138: 500 us have passed since the close. -/
  | winCloseTimeout (die mc win : Nat)
  -- memory tiers and prefetch (ch. 9)
  /-- XLT_T3MAP_WRITE. R153: a write to a word of a tier-3 map entry. -/
  | xltT3mapWrite (by_ : Caller) (off : Nat) (v : Word)
  /-- T3_COMPLETION. R154: a completion (0 successful, 1 poisoned, 2 UR, 3 CA) for the read `tag`. -/
  | t3Completion (tag status : Nat) (data : List Byte)
  /-- T3_COMPLETION_TIMEOUT. R154: no completion came for the read `tag`. -/
  | t3CompletionTimeout (tag : Nat)
  /-- HBM_SCRUB. R157: a tier-1 granule is scrubbed; lines found correctable and uncorrectable. -/
  | hbmScrub (gran : Nat) (corr unc : List Nat)
  /-- BULK_SCRUB. R157: a tier-2 granule is scrubbed. -/
  | bulkScrub (gran : Nat) (corr unc : List Nat)
  /-- BULK_CHANNEL_FAIL. R158: the link of bulk channel `ch` fails. -/
  | bulkChannelFail (ch : Nat)
  /-- MEM_TEMP_HIGH. R158: the stack or DIMM of HBC or BKC `page` reaches temperature code `temp`. -/
  | memTempHigh (page temp : Nat)
  /-- STACK_LOSS. R148: a stack stops responding. -/
  | stackLoss (stack : Nat)
  /-- PF_ARM. R161: SEQ command 0x28. -/
  | pfArm (q : Issue)
  /-- PF_ADVANCE. R163: SEQ command 0x29. -/
  | pfAdvance (q : Issue)
  /-- PF_DESC_START. R162: the engine of SEQ `page` starts its next eligible descriptor. -/
  | pfDescStart (page : Nat)
  /-- PF_DESC_COMPLETE. R162: the last line of descriptor `idx` is accepted. -/
  | pfDescComplete (page idx : Nat)
  /-- STALL_NOTE. R167: the stall on SEQ `page` reaches NOTE. -/
  | stallNote (page : Nat)
  /-- STALL_LIMIT. R166: the stall on SEQ `page` reaches LIMIT. -/
  | stallLimit (page : Nat)
  -- attention cache paging (ch. 10)
  /-- SHARE. R177: pool operation 0x1 on table `rq`, by a unit of context `ctx`. -/
  | share (rq : TableOf) (gen src r0 r1 : Nat)
  /-- GROW. R177: pool operation 0x2. -/
  | grow (rq : TableOf) (gen n : Nat)
  /-- REPLACE. R177: pool operation 0x3. -/
  | replace (rq : TableOf) (gen row : Nat) (pages : List Nat)
  /-- SETPAGED. R177: pool operation 0x4. -/
  | setpaged (rq : TableOf) (gen n : Nat)
  /-- DROPALL. R177: pool operation 0x5. -/
  | dropall (rq : TableOf) (gen : Nat)
  /-- GENERATION_RETIRE. R183: the oldest generation of table `rq` retires. -/
  | generationRetire (rq : Nat)
  /-- PAGE_ZERO_DONE. R176: the zeroing of a freed page ends. -/
  | pageZeroDone (tag addr : Nat)
  /-- PAGE_COMPACTION. R185: a private page row is moved. -/
  | pageCompaction (rq row : Nat)
  /-- PPL_REGION_SET. R190: PPL command 0x40. -/
  | pplRegionSet (q : Issue)
  /-- PPL_REGION_CLEAR. R190: PPL command 0x41. -/
  | pplRegionClear (q : Issue)
  -- Hawkmoth (ch. 11)
  /-- HWK_RUN. R194: HWK command 0x50. -/
  | hwkRun (q : Issue)
  /-- HWK_JOB_TAKE. R202: the engine takes the next job of a list. -/
  | hwkJobTake (die eng : Nat)
  /-- HWK_STEAL. R202: the engine steals from engine `veng` of `vdie`. -/
  | hwkSteal (die eng vdie veng : Nat)
  /-- HWK_BLOCK. R204: the engine processes the next 64-key block. -/
  | hwkBlock (die eng : Nat)
  /-- HWK_TASK_COMPLETE. R206: the engine ends its task. -/
  | hwkTaskComplete (die eng : Nat)
  /-- HWK_LIST_DONE. R196: the list of HWK `page` is complete. -/
  | hwkListDone (page : Nat)
  -- Ringlet (ch. 12)
  /-- RLT_FORM. R219: SEQ command 0x58. -/
  | rltForm (q : Issue)
  /-- RLT_FORM_REPLY. R219: a neighbour's reply arrives. -/
  | rltFormReply (page : Nat) (fromSucc : Bool) (pkg gid p rank swlog nslot : Nat)
  /-- RLT_RUN. R221: SEQ command 0x59. -/
  | rltRun (q : Issue)
  /-- RLT_BLOCK_ARRIVE. R222: the next block of the run has landed in its receive slot. -/
  | rltBlockArrive (page : Nat) (data : List Byte)
  /-- RLT_FREE. R222: the successor frees a slot. -/
  | rltFree (page slot : Nat)
  /-- RLT_STATE_ARRIVE. R227: a running state arrives. -/
  | rltStateArrive (page : Nat) (data : List Byte)
  /-- RLT_COMMIT_NOTICE. R228: the commit notice arrives. -/
  | rltCommitNotice (page clen : Nat)
  /-- RLT_ABANDON. R231: SEQ command 0x5A. -/
  | rltAbandon (q : Issue)
  /-- RLT_ABANDON_MSG. R229: ABANDON arrives. -/
  | rltAbandonMsg (page : Nat)
  /-- RLT_TIMEOUT. R229: TIMEOUT passes with something awaited. -/
  | rltTimeout (page : Nat)
  /-- RLT_LEAVE. R231: SEQ command 0x5B. -/
  | rltLeave (q : Issue)
  -- Skippers (ch. 13, 15)
  /-- SKP_PUSH. R238: SKP command 0x60. -/
  | skpPush (q : Issue)
  /-- SKP_INTERNAL_PUSH. R237: a device unit pushes a task. -/
  | skpInternalPush (die inst : Nat) (task : Task)
  /-- SKP_STEAL. R240: the Skipper steals. -/
  | skpSteal (die inst : Nat)
  /-- COPY. R236: the Skipper runs a COPY. -/
  | copy (die inst : Nat)
  /-- GATHER. R236: the Skipper runs a GATHER. -/
  | gather (die inst : Nat)
  /-- SCATTER. R236: the Skipper runs a SCATTER. -/
  | scatter (die inst : Nat)
  /-- KV_SCATTER. R186: the Skipper runs a KV_SCATTER. -/
  | kvScatter (die inst : Nat)
  /-- STAGE_FLUSH. R188: the Skipper runs a STAGE_FLUSH. -/
  | stageFlush (die inst : Nat)
  /-- PAGE_SPLIT. R179: the Skipper runs a PAGE_SPLIT. -/
  | pageSplit (die inst : Nat)
  /-- EXP_PACK. R270: the Skipper runs an EXP_PACK. -/
  | expPack (die inst : Nat)
  /-- EXP_UNPACK. R271: the Skipper runs an EXP_UNPACK. -/
  | expUnpack (die inst : Nat)
  /-- REDUCE. R236: the Skipper runs a REDUCE. -/
  | reduce (die inst : Nat)
  /-- RLT_MERGE. R225: the Skipper runs an RLT_MERGE. -/
  | rltMerge (die inst : Nat)
  /-- FILL. R236: the Skipper runs a FILL. -/
  | fill (die inst : Nat)
  /-- SKP_TASK_COMPLETE. R241: the writes of the Skipper's task are accepted. -/
  | skpTaskComplete (die inst : Nat)
  -- Teasel (ch. 14)
  /-- TSL_RUN. R252: TSL command 0x68. -/
  | tslRun (q : Issue)
  /-- TSL_ROW. R253: the engine pools its next lookup, or closes a bag. -/
  | tslRow (hub inst : Nat)
  /-- TSL_LIST_DONE. R252: the list of TSL `page` is complete. -/
  | tslListDone (page : Nat)
  -- experts (ch. 15)
  /-- EXR_ROUTE. R260: SEQ command 0x2C. -/
  | exrRoute (q : Issue)
  /-- EXR_ROUTE_SERVE. R262: the EXR of `hub` serves its oldest route. -/
  | exrRouteServe (hub : Nat)
  -- serving (ch. 16)
  /-- DB_SUBTAIL. R278: a write of DB_SUBTAIL of block `part`. -/
  | dbSubtail (by_ : Caller) (part : Nat) (v : Word)
  /-- DB_EVHEAD. R281: a write of DB_EVHEAD. -/
  | dbEvhead (by_ : Caller) (part : Nat) (v : Word)
  /-- DB_TOKHEAD. R278: a write of DB_TOKHEAD. -/
  | dbTokhead (by_ : Caller) (part : Nat) (v : Word)
  /-- DB_WINCFG. R283: a write of DB_WINCFG. -/
  | dbWincfg (by_ : Caller) (part : Nat) (v : Word)
  /-- SUBMIT. R280: the next submission slot of `part`, with OP SUBMIT, is processed. -/
  | submit (part : Nat)
  /-- CANCEL. R276: the next submission slot, with OP CANCEL. -/
  | cancel (part : Nat)
  /-- PAUSE. R276: the next submission slot, with OP PAUSE. -/
  | pause (part : Nat)
  /-- RESUME. R276: the next submission slot, with OP RESUME. -/
  | resume (part : Nat)
  /-- RELEASE. R276: the next submission slot, with OP RELEASE. -/
  | release (part : Nat)
  /-- RING_SET. R279: the next submission slot, with OP RING_SET. -/
  | ringSet (part : Nat)
  /-- RQT_DUMP. R284: RQT command 0x72. -/
  | rqtDump (q : Issue)
  /-- SRV_FORM. R286: SEQ command 0x34. -/
  | srvForm (q : Issue)
  /-- SRV_SAMPLE. R288: SEQ command 0x35. -/
  | srvSample (q : Issue)
  /-- TEN_SET. R292: RQT command 0x70. -/
  | tenSet (q : Issue)
  /-- TEN_GET. R292: RQT command 0x71. -/
  | tenGet (q : Issue)
  /-- RQT_MIGRATE. R293: RQT command 0x74. -/
  | rqtMigrate (q : Issue)
  /-- MIGRATE_HOLD. R293: a hold of package `srcPkg` arrives for request `rq`. -/
  | migrateHold (rq srcPkg part : Nat)
  /-- MIGRATE_REPLY. R293: the source answers with the entry and the table header. -/
  | migrateReply (ok : Bool) (entry header : List Byte)
  /-- MIGRATE_PUBLISH. R293: the copy ends, having read these bytes for these local addresses. -/
  | migratePublish (ok : Bool) (data : List (Nat × Byte))
  /-- MIGRATE_RELEASE. R293: a release (or, not `ok`, a failure notice) arrives for request `rq`. -/
  | migrateRelease (rq : Nat) (ok : Bool)
  /-- TOKEN_PUBLISH. R291: the token slots and events of the last commit of `ctx` are written. -/
  | tokenPublish (ctx : Nat)
  -- model residency (ch. 17)
  /-- LDR_STORE. R299: LDR command 0x80. -/
  | ldrStore (q : Issue)
  /-- MDL_QUERY. R300: LDR command 0x86. -/
  | mdlQuery (q : Issue)
  /-- MDL_LOAD. R301: LDR command 0x81. -/
  | mdlLoad (q : Issue)
  /-- MDL_OPEN. R302: SEQ command 0x38. -/
  | mdlOpen (q : Issue)
  /-- MDL_REPLACE. R304: LDR command 0x82. -/
  | mdlReplace (q : Issue)
  /-- MDL_INPLACE_LAYER. R306: an INPLACE replacement reaches `layer`. -/
  | mdlInplaceLayer (model layer : Nat)
  /-- MDL_ROLLING_GROUP. R307: a ROLLING replacement reaches `group`. -/
  | mdlRollingGroup (model group : Nat)
  /-- MDL_RETIRE. R303: a switch count of `model` has no opens left. -/
  | mdlRetire (model : Nat)
  /-- MDL_UNLOAD. R312: LDR command 0x83. -/
  | mdlUnload (q : Issue)
  /-- ADP_LOAD. R309: LDR command 0x84. -/
  | adpLoad (q : Issue)
  /-- ADP_DROP. R309: LDR command 0x85. -/
  | adpDrop (q : Issue)
  -- binding and contexts (ch. 18)
  /-- BND_COMMIT. R318: BND command 0x90. -/
  | bndCommit (q : Issue)
  /-- BND_COMMIT_STAMP. R319: the outstanding binding commit takes its stamp. -/
  | bndCommitStamp
  /-- BND_QUERY. R334: BND command 0x91. -/
  | bndQuery (q : Issue)
  /-- BND_SPARE_WRITE. R381: a write of BND_SPARE at `off`. -/
  | bndSpareWrite (by_ : Caller) (off : Nat) (v : Word)
  /-- GRANULE_ZERO_DONE. R320: the zeroing of a granule of tier 1 or 2 ends. -/
  | granuleZeroDone (tier gran : Nat)
  /-- VF_FLR. R322: a function-level reset of virtual function `vf`. -/
  | vfFlr (vf : Nat)
  /-- CTX_CREATE. R324: SPW command 0xA0. -/
  | ctxCreate (q : Issue)
  /-- CTX_START. R324: SPW command 0xA1. -/
  | ctxStart (q : Issue)
  /-- CTX_END. R324: SPW command 0xA2. -/
  | ctxEnd (q : Issue)
  /-- CTX_DEADLINE. R324: SPW command 0xA3. -/
  | ctxDeadline (q : Issue)
  /-- CTX_QUERY. R324: SPW command 0xA4. -/
  | ctxQuery (q : Issue)
  /-- SPW_LOAD. R327: SPW command 0xA8. -/
  | spwLoad (q : Issue)
  /-- SPW_START. R327: SPW command 0xA9. -/
  | spwStart (q : Issue)
  /-- SPW_STOP. R327: SPW command 0xAA. -/
  | spwStop (q : Issue)
  /-- TEN_WEIGHT. R327: SPW command 0xAB. -/
  | tenWeight (q : Issue)
  /-- SPW_WINDOW_START. R327: the next window starts. -/
  | spwWindowStart
  /-- SPW_LEAD_POINT. R331: the lead point of the next window. -/
  | spwLeadPoint
  /-- SPW_TURN_END. R329: the class-2 turn of `ctx` ends. -/
  | spwTurnEnd (ctx : Nat)
  /-- CONTEXT_SAVED. R330: the save of `ctx` completes. -/
  | contextSaved (ctx : Nat)
  /-- CONTEXT_RESTORED. R325: the restore of `ctx` completes. -/
  | contextRestored (ctx : Nat)
  /-- SPW_HEARTBEAT_LOSS. R333: 5 us without the primary. -/
  | spwHeartbeatLoss
  /-- SPW_TAKEOVER. R333: the replica takes over at the window boundary. -/
  | spwTakeover
  -- Gymbiust Link (ch. 19)
  /-- GYL_LINK_ENABLE. R338: LINKEN written 1. -/
  | gylLinkEnable (by_ : Caller) (hub inst : Nat)
  /-- GYL_LINK_DISABLE. R338: LINKEN written 0. -/
  | gylLinkDisable (by_ : Caller) (hub inst : Nat)
  /-- GYL_TRAIN_DONE. R339: training ends with the lanes of mask `lanes` and this peer exchange. -/
  | gylTrainDone (hub inst lanes : Nat) (peer : PeerInfo)
  /-- GYL_TRAIN_TIMEOUT. R338: 500 ms of training. -/
  | gylTrainTimeout (hub inst : Nat)
  /-- GYL_FEC_LOCK_LOSS. R338: FEC lock lost. -/
  | gylFecLockLoss (hub inst : Nat)
  /-- GYL_FLIT_RX. R341: a flit arrives. -/
  | gylFlitRx (hub inst : Nat) (flit : Flit)
  /-- GYL_ACK_TIMEOUT. R341: no ACK within 100 us. -/
  | gylAckTimeout (hub inst : Nat)
  /-- GYL_RETRAIN. R352: GYL command 0xB1. -/
  | gylRetrain (q : Issue)
  /-- GYL_RETRAIN_DONE. R338: the retrain ends with these lanes. -/
  | gylRetrainDone (hub inst lanes : Nat)
  /-- GYL_RETRAIN_TIMEOUT. R338: 20 ms of retraining. -/
  | gylRetrainTimeout (hub inst : Nat)
  /-- GYL_SCAN. R351: GYL command 0xB0. -/
  | gylScan (q : Issue)
  /-- GYL_SCAN_END. R351: DURATION has passed; the measured lane records. -/
  | gylScanEnd (hub inst : Nat) (rec : List Byte)
  /-- GYL_LANE_FAIL. R350: a lane fails. -/
  | gylLaneFail (hub inst lane : Nat)
  /-- GYL_LANE_REMOVAL. R350: the removal wanted on the port is admitted. -/
  | gylLaneRemoval (hub inst : Nat)
  /-- GYL_FORWARD. R345: a message that came in on a port (instance 2: issued here) goes on. -/
  | gylForward (hub inst : Nat) (m : Msg)
  /-- GYL_RD. R342: an RD at its destination. -/
  | gylRd (m : Msg)
  /-- GYL_WR. R344: a WR at its destination. -/
  | gylWr (m : Msg)
  /-- GYL_ATOM. R342: an ATOM at its destination. -/
  | gylAtom (m : Msg)
  /-- GYL_RDRSP. R342: an RDRSP at the issuer. -/
  | gylRdrsp (m : Msg)
  /-- GYL_WRACK. R344: a WRACK at the issuer. -/
  | gylWrack (m : Msg)
  /-- GYL_NACK. R346: a NACK at the issuer. -/
  | gylNack (m : Msg)
  /-- PEER_REG_ACCESS. R45: a register access from another package. -/
  | peerRegAccess (kmc : Bool) (wr : Bool) (off : Nat) (v : Word)
  /-- PEER_FATAL. R375: FATAL arrives on a port. -/
  | peerFatal (hub inst : Nat)
  -- collectives (ch. 20)
  /-- COLL_RUN. R354: SEQ command 0x3C. -/
  | collRun (q : Issue)
  /-- COLL_ARRIVE. R356: the program of SEQ `page` executes ARRIVE. -/
  | collArrive (page : Nat)
  /-- COLL_WAIT. R356: WAIT. -/
  | collWait (page : Nat)
  /-- COLL_SEND. R356: SEND. -/
  | collSend (page : Nat)
  /-- COLL_RECV. R356: RECV. -/
  | collRecv (page : Nat)
  /-- COLL_REDUCE. R357: REDUCE. -/
  | collReduce (page : Nat)
  /-- COLL_BCAST. R356: BCAST. -/
  | collBcast (page : Nat)
  /-- COLL_FUSE. R356: FUSE. -/
  | collFuse (page : Nat)
  /-- COLL_FENCE. R356: FENCE. -/
  | collFence (page : Nat)
  /-- COLL_JUMP. R356: JUMP. -/
  | collJump (page : Nat)
  /-- COLL_END. R354: END. -/
  | collEnd (page : Nat)
  /-- COLL_MSG_RECEIVE. R358: a collective message reaches SEQ `page`. -/
  | collMsgReceive (page : Nat) (m : CollMsg)
  /-- COLL_ABORT_MSG. R359: ABORT for instance `inst` reaches SEQ `page`. -/
  | collAbortMsg (page inst : Nat)
  /-- COLL_TIMEOUT. R359: a wait of the program reaches TIMEOUT. -/
  | collTimeout (page : Nat)
  -- commit, faults, recovery (ch. 21)
  /-- STEP_COMMIT. R366: SEQ command 0x3E. -/
  | stepCommit (q : Issue)
  /-- COMMIT_MIRROR_RECORDS. R377: the commit of `ctx` sends its mirror records. -/
  | commitMirrorRecords (ctx : Nat)
  /-- COMMIT_STAMP. R367: the commit arbiter decides the commit of `ctx`. -/
  | commitStamp (ctx : Nat)
  /-- STEP_ABANDON. R369: SEQ command 0x3F. -/
  | stepAbandon (q : Issue)
  /-- CONTAINED_FAULT. R370: a contained error of `ctx`, detected on `page`, is accepted. -/
  | containedFault (ctx page code detail : Nat)
  /-- TEARDOWN_DONE. R371: the teardown of `ctx` finishes. -/
  | teardownDone (ctx : Nat)
  /-- VCORE_OUT_OF_RANGE. R373: the VCORE_C rail outside 0.55-0.90 V for more than 10 us. -/
  | vcoreOutOfRange (die : Nat)
  /-- DIE_OVERTEMP. R373: a junction temperature code. -/
  | dieOvertemp (die temp : Nat)
  /-- SPARE_COMMIT. R374: the spare binding commits after the fence of `die`. -/
  | spareCommit (die : Nat)
  /-- RAIL_OUT_OF_RANGE. R422: the rail of domain `rail` leaves its range. -/
  | railOutOfRange (rail : Nat)
  /-- PKG_FATAL. R375: a package-fatal cause. -/
  | pkgFatal (cause : Nat)
  /-- RQT_ADOPT. R378: RQT command 0x73. -/
  | rqtAdopt (q : Issue)
  /-- CAMPION_REQUEST. R379: an activity asks for admission. -/
  | campionRequest (act scope : Nat)
  /-- CAMPION_ADMIT. R379: the first pending activity that may run is admitted. -/
  | campionAdmit
  /-- CMP_PEND_LONG. R380: an activity has waited longer than PENDWARN. -/
  | cmpPendLong
  -- snapshots (ch. 22)
  /-- SNP_TRIG. R384: `v` with TRIG 1 written to SNP_TRIG of HD0. -/
  | snpTrig (by_ : Caller) (v : Word)
  /-- SNP_TIME_TRIGGER. R384: the timebase reaches SNP_MATCH. -/
  | snpTimeTrigger
  /-- SNAPIN_EDGE. R384: a filtered rising edge on SNAPIN. -/
  | snapinEdge
  /-- SNAPOUT_PULSE_END. R388: 200 ns of SNAPOUT have passed. -/
  | snapoutPulseEnd
  /-- SNP_RELEASE. R387: `v` with RELEASE 1 written to SNP_TRIG of HD0. -/
  | snpRelease (by_ : Caller) (v : Word)
  /-- SNP_DUMP. R389: SNP command 0x01. -/
  | snpDump (q : Issue)
  -- host interface (ch. 23)
  /-- PCIE_CONFIG_REQUEST. R397: a configuration request. -/
  | pcieConfigRequest (fn : Nat) (reg : CfgReg) (wr : Bool) (v : Word)
  /-- BAR4_ACCESS. R395: a BAR4 access of function `fn` (0 the PF). -/
  | bar4Access (fn off : Nat) (wr : Bool) (data : List Byte)
  /-- PCIE_LINK_UP. R406: training reaches L0. -/
  | pcieLinkUp (speed width : Nat) (flit : Bool)
  /-- PCIE_LINK_DOWN. R398: the link goes down. -/
  | pcieLinkDown
  /-- PF_FLR. R396: a function-level reset of the PF. -/
  | pfFlr
  /-- KMC_BOOT_DONE. R400: what the boot ROM finds in the two slots. -/
  | kmcBootDone (okA okB : Bool) (numA numB verA verB : Nat)
  /-- KMC_STAGE. R401: KMC command 0x10. -/
  | kmcStage (q : Issue)
  /-- PLDM_FW_UPDATE. R401: a sideband update offers an image. -/
  | pldmFwUpdate (ok : Bool) (num ver : Nat)
  /-- KMC_HEARTBEAT_TIMEOUT. R402: 10 ms without a heartbeat. -/
  | kmcHeartbeatTimeout
  /-- I3C_ENTDAA. R403: ENTDAA assigns an address. -/
  | i3cEntdaa (addr : Nat)
  /-- PLDM_REQUEST. R403: a PLDM request. -/
  | pldmRequest (type cmd : Nat)
  /-- SENSOR_REFRESH. R403: 10 ms have passed. -/
  | sensorRefresh
  /-- AVS_READBACK. R404: (domain, mV, mA) of the rails of `hub`. -/
  | avsReadback (hub : Nat) (vals : List (Nat × Nat × Nat))
  /-- AVS_TIMEOUT. R404: three attempts on the rail of `die` went unanswered. -/
  | avsTimeout (die : Nat)
  /-- TAP_BYPASS. R405. -/
  | tapBypass
  /-- TAP_IDCODE. R405. -/
  | tapIdcode
  /-- TAP_SAMPLE. R405. -/
  | tapSample
  /-- TAP_EXTEST. R405. -/
  | tapExtest
  /-- TAP_EXTEST_PULSE. R405. -/
  | tapExtestPulse
  /-- TAP_EXTEST_TRAIN. R405. -/
  | tapExtestTrain
  /-- TAP_PRELOAD. R405. -/
  | tapPreload
  -- power and reset (ch. 24, 25)
  /-- POWER_ON_RESET. R417: PORSTn low. -/
  | powerOnReset
  /-- POR_RELEASE. R410: PORSTn released. -/
  | porRelease
  /-- COMPUTE_DIE_READY. R410: the self-test, zeroing and calibration of `die` end. -/
  | computeDieReady (die : Nat) (ok : Bool)
  /-- HBM_TRAINING_END. R148: HBM training ends; the stacks that failed. -/
  | hbmTrainingEnd (failed : List Nat)
  /-- BULK_TRAINING_END. R150: bulk training ends; GiB of each channel's DIMM, 0 if it did not train. -/
  | bulkTrainingEnd (caps : List Nat)
  /-- DEVICE_READY. R410: start-up reaches ready. -/
  | deviceReady
  /-- WARM_RESET. R418: WRSTn asserted. -/
  | warmReset
  /-- WARM_RESET_RELEASE. R418: WRSTn released. -/
  | warmResetRelease
  /-- PWR_DOMAIN. R413: PWR command 0x21. -/
  | pwrDomain (q : Issue)
  /-- PWR_SETLIMIT. R415: PWR command 0x20. -/
  | pwrSetlimit (q : Issue)
  /-- PWR_DIERESET. R419: PWR command 0x22. -/
  | pwrDiereset (q : Issue)
  /-- CAP_PERIOD. R414: 100 us have passed. -/
  | capPeriod
  /-- RAIL_SETTLED. R21: the rail of `die` has settled at `mv`. -/
  | railSettled (die mv : Nat)
  /-- PWR_IOCFG_WRITE. R427: a write of PWR_IOCFG at `off`. -/
  | pwrIocfgWrite (by_ : Caller) (off : Nat) (v : Word)
  /-- PIN_INPUT_EDGE. R28: a level has been held on a filtered input for `held` ns. -/
  | pinInputEdge (pin held : Nat) (level : Bool)
  /-- REFCLK_LOSS. R424: REFCLK absent for more than 10 us. -/
  | refclkLoss
  /-- DIE_FATAL_UNC_ERROR. R373: an uncorrectable error in a die-critical unit. -/
  | dieFatalUncError (die unit : Nat)
  /-- RLT_FORM_TIMEOUT. R231: no agreement within TIMEOUT. -/
  | rltFormTimeout (page : Nat)
  /-- MSIX_VECTOR_UNMASK. R35: the host unmasks a vector. -/
  | msixVectorUnmask (fn vec : Nat)
  /-- PERST_ASSERT. R393: PERST# asserted. -/
  | perstAssert
  /-- PERST_RELEASE. R397: PERST# released. -/
  | perstRelease
deriving DecidableEq, Repr

end Sys2Proof
end

