-- ==== Sys2Proof/Config.lean ====
section
/-!
DEFINITION. Config.lean: what the manual leaves open, as constants without a body.

No proof can see what a constant of this file is, so a statement that holds holds for every choice.
-/
namespace Sys2Proof.Config

/-- The n-th free value: a value an operation yields that the manual does not state. The model counts the free values it has
taken (`Dev.free`) and applies this to the count (log entry 2). -/
opaque freeValue : Nat → BitVec 64

/-- RB, the bytes of one head's key or value row, of a plane of a request's cache. KV_SCATTER, STAGE_FLUSH and PAGE_SPLIT lay tokens out by
it (R170) and no field of a task, a region or a page table tells it (log entry 63). -/
opaque kvRow : Nat → Nat → Nat

/-- L × 2 × H, the key and value rows of one token, of a plane of a request's cache: told by no field either (R170, log entry 63). -/
opaque kvRows : Nat → Nat → Nat

/-- PAGE_CAP of a block type beyond what R29, R37 and Table 3.7 fix: RT_QUEUE, RT_MSIX and BLKCAP have no value in the manual (log entry 80). -/
opaque pageCap : Nat → Nat

/-- What the verification of a firmware image makes of its bytes: whether header and signature verify against the fused key digest, the anti-rollback
number, the version (R400, R401; log entry 85). -/
opaque imageOf : List (BitVec 8) → Bool × Nat × Nat

/-- The transfers that an access of so many bytes beyond its die takes on each link of its way. R14 counts transfers and does not say how many an access
takes (log entry 23). -/
opaque linkTransfers : Nat → Nat

end Sys2Proof.Config
end

