-- ==== Sys2Proof/Machine/Regs.lean ====
section
/-!
DEFINITION. Regs.lean: the block-specific registers of every block type, as the tables of spec/ lay them out (R14, R20, R25,
R65, R79, R86, R99, R101, R119, R141, R153, R158, R167, R191, R213, R232, R246, R259, R273, R283, R285, R315, R331, R334, R335,
R352, R353, R362, R381, R392, R406, R407, R420, R427), and the name of every field.
-/
namespace Sys2Proof.Machine

/-- The access codes of R6 (Table 0.2). -/
inductive Acc where
  | rw | ro | w1c | wo | rwq
deriving DecidableEq, Repr

/-- A field of a register: its access code, its bits [hi:lo] and its reset value. -/
structure FldSpec where
  acc : Acc
  hi : Nat
  lo : Nat
  reset : Nat
deriving DecidableEq, Repr

/-- A register, or an array of `count` registers `stride` bytes apart. `only`: 0 on every page of its type, 1 on HD0 alone, 2 on
compute dies alone. -/
structure RegSpec where
  off : Nat
  stride : Nat
  count : Nat
  only : Nat
  flds : List FldSpec
deriving DecidableEq, Repr

/-- Where a named field stands: byte offset, stride of its array, bits [hi:lo]. -/
structure Fld where
  off : Nat
  stride : Nat
  hi : Nat
  lo : Nat
deriving DecidableEq, Repr

/-- The field of element `n` of its array. -/
def Fld.i (f : Fld) (n : Nat) : Fld := { f with off := f.off + f.stride * n }

/-- The registers of block type 0x01. -/
def regs01 : List RegSpec :=
  [
    ⟨0x140, 0, 1, 0, [⟨.ro, 2, 0, 0⟩, ⟨.ro, 8, 3, 0⟩, ⟨.ro, 9, 9, 0⟩, ⟨.ro, 10, 10, 0⟩, ⟨.ro, 23, 16, 0⟩]⟩,
    ⟨0x144, 0, 1, 0, [⟨.rwq, 3, 0, 0⟩, ⟨.rwq, 4, 4, 1⟩]⟩,
    ⟨0x148, 4, 8, 0, [⟨.rwq, 2, 0, 0⟩, ⟨.rwq, 27, 4, 0⟩]⟩,
    ⟨0x168, 0, 1, 0, [⟨.ro, 7, 0, 0⟩, ⟨.ro, 15, 8, 0⟩]⟩,
    ⟨0x16C, 0, 1, 0, [⟨.rw, 2, 0, 0⟩]⟩,
    ⟨0x170, 0, 1, 0, [⟨.ro, 3, 0, 0⟩]⟩,
    ⟨0x400, 16, 8, 0, [⟨.ro, 23, 0, 0⟩]⟩,
    ⟨0x404, 16, 8, 0, [⟨.ro, 23, 0, 0⟩]⟩,
    ⟨0x408, 16, 8, 0, [⟨.ro, 23, 0, 0⟩]⟩,
    ⟨0x40C, 16, 8, 0, [⟨.ro, 3, 0, 8⟩, ⟨.ro, 4, 4, 0⟩, ⟨.ro, 5, 5, 0⟩, ⟨.ro, 31, 8, 0⟩]⟩,
    ⟨0x480, 4, 64, 0, [⟨.ro, 8, 0, 0⟩, ⟨.ro, 11, 9, 0⟩, ⟨.ro, 12, 12, 0⟩, ⟨.ro, 14, 13, 0⟩, ⟨.ro, 18, 15, 0⟩, ⟨.ro, 20, 19, 0⟩, ⟨.ro, 21, 21, 0⟩]⟩]

/-- The registers of block type 0x02. -/
def regs02 : List RegSpec :=
  [
    ⟨0x600, 16, 4, 0, [⟨.ro, 13, 0, 0⟩]⟩,
    ⟨0x604, 16, 4, 0, [⟨.ro, 14, 0, 0⟩]⟩,
    ⟨0x608, 16, 4, 0, [⟨.ro, 3, 0, 0⟩]⟩,
    ⟨0x640, 32, 16, 0, [⟨.ro, 1, 0, 0⟩, ⟨.ro, 3, 2, 0⟩, ⟨.ro, 4, 4, 0⟩]⟩,
    ⟨0x644, 32, 16, 0, [⟨.ro, 8, 0, 0⟩, ⟨.ro, 24, 16, 0⟩]⟩,
    ⟨0x648, 32, 16, 0, [⟨.ro, 11, 0, 0⟩, ⟨.ro, 12, 12, 0⟩, ⟨.ro, 21, 16, 0⟩]⟩,
    ⟨0x64C, 32, 16, 0, [⟨.ro, 20, 0, 0⟩, ⟨.ro, 25, 21, 0⟩]⟩,
    ⟨0x650, 32, 16, 0, [⟨.ro, 31, 0, 0⟩]⟩,
    ⟨0x654, 32, 16, 0, [⟨.ro, 31, 0, 0⟩]⟩,
    ⟨0x658, 32, 16, 0, [⟨.rw, 8, 0, 0⟩]⟩,
    ⟨0x840, 0, 1, 0, [⟨.w1c, 15, 0, 0⟩]⟩,
    ⟨0x844, 0, 1, 0, [⟨.ro, 13, 0, 0⟩, ⟨.ro, 15, 14, 0⟩, ⟨.ro, 16, 16, 0⟩]⟩]

/-- The registers of block type 0x04. -/
def regs04 : List RegSpec :=
  [
    ⟨0x140, 0, 1, 0, [⟨.ro, 7, 0, 0⟩, ⟨.ro, 8, 8, 0⟩, ⟨.ro, 9, 9, 0⟩, ⟨.ro, 10, 10, 0⟩]⟩,
    ⟨0x144, 0, 1, 0, [⟨.ro, 15, 0, 167⟩]⟩,
    ⟨0x148, 0, 1, 0, [⟨.ro, 15, 0, 766⟩]⟩,
    ⟨0x150, 0, 1, 0, [⟨.ro, 15, 0, 0⟩, ⟨.ro, 16, 16, 0⟩, ⟨.ro, 17, 17, 0⟩, ⟨.ro, 18, 18, 0⟩, ⟨.ro, 19, 19, 0⟩]⟩,
    ⟨0x154, 0, 1, 0, [⟨.ro, 23, 0, 0⟩]⟩,
    ⟨0x158, 0, 1, 0, [⟨.ro, 6, 0, 0⟩]⟩,
    ⟨0x160, 0, 1, 0, [⟨.rw, 31, 0, 0⟩]⟩,
    ⟨0x164, 0, 1, 0, [⟨.rw, 31, 0, 0⟩]⟩,
    ⟨0x168, 0, 1, 0, [⟨.ro, 31, 0, 0⟩]⟩,
    ⟨0x16C, 0, 1, 0, [⟨.ro, 31, 0, 0⟩]⟩,
    ⟨0x300, 0, 1, 0, [⟨.ro, 7, 0, 0⟩, ⟨.ro, 8, 8, 0⟩, ⟨.ro, 9, 9, 0⟩, ⟨.ro, 13, 10, 0⟩, ⟨.ro, 14, 14, 0⟩]⟩,
    ⟨0x304, 0, 1, 0, [⟨.ro, 8, 0, 0⟩, ⟨.ro, 20, 16, 0⟩]⟩,
    ⟨0x308, 0, 1, 0, [⟨.rw, 19, 0, 10000⟩]⟩,
    ⟨0x30C, 0, 1, 0, [⟨.rw, 19, 0, 0⟩]⟩,
    ⟨0x310, 0, 1, 0, [⟨.ro, 8, 0, 0⟩]⟩,
    ⟨0x314, 0, 1, 0, [⟨.ro, 31, 0, 0⟩]⟩,
    ⟨0x320, 8, 10, 0, [⟨.ro, 31, 0, 0⟩]⟩,
    ⟨0x324, 8, 10, 0, [⟨.ro, 31, 0, 0⟩]⟩,
    ⟨0x400, 0, 1, 0, [⟨.ro, 1, 0, 0⟩, ⟨.ro, 14, 8, 0⟩, ⟨.ro, 22, 16, 0⟩, ⟨.ro, 23, 23, 0⟩]⟩,
    ⟨0x404, 0, 1, 0, [⟨.ro, 5, 0, 0⟩, ⟨.ro, 19, 8, 0⟩]⟩,
    ⟨0x408, 0, 1, 0, [⟨.rw, 19, 0, 100000⟩]⟩,
    ⟨0x40C, 0, 1, 0, [⟨.ro, 31, 0, 0⟩]⟩,
    ⟨0x410, 0, 1, 0, [⟨.ro, 31, 0, 0⟩]⟩,
    ⟨0x414, 0, 1, 0, [⟨.ro, 31, 0, 0⟩]⟩,
    ⟨0x418, 0, 1, 0, [⟨.ro, 11, 0, 0⟩, ⟨.ro, 27, 16, 0⟩]⟩,
    ⟨0x180, 0, 1, 0, [⟨.ro, 7, 0, 0⟩, ⟨.ro, 8, 8, 0⟩, ⟨.ro, 9, 9, 0⟩, ⟨.ro, 11, 10, 0⟩, ⟨.ro, 15, 12, 0⟩, ⟨.ro, 31, 16, 0⟩]⟩,
    ⟨0x184, 0, 1, 0, [⟨.rw, 19, 0, 10000⟩]⟩,
    ⟨0x188, 0, 1, 0, [⟨.ro, 15, 0, 0⟩]⟩,
    ⟨0x18C, 0, 1, 0, [⟨.ro, 31, 0, 0⟩]⟩,
    ⟨0x1C0, 4, 16, 0, [⟨.ro, 31, 0, 0⟩]⟩,
    ⟨0x500, 0, 1, 0, [⟨.ro, 31, 0, 0⟩]⟩,
    ⟨0x504, 0, 1, 0, [⟨.ro, 31, 0, 0⟩]⟩,
    ⟨0x508, 0, 1, 0, [⟨.ro, 31, 0, 0⟩]⟩,
    ⟨0x50C, 0, 1, 0, [⟨.ro, 31, 0, 0⟩]⟩,
    ⟨0x510, 0, 1, 0, [⟨.ro, 0, 0, 0⟩, ⟨.ro, 7, 1, 0⟩]⟩]

/-- The registers of block type 0x05. -/
def regs05 : List RegSpec :=
  [
    ⟨0x140, 0, 1, 0, [⟨.ro, 15, 0, 0⟩, ⟨.ro, 16, 16, 0⟩, ⟨.ro, 17, 17, 0⟩]⟩,
    ⟨0x144, 0, 1, 0, [⟨.ro, 15, 0, 0⟩, ⟨.ro, 23, 16, 0⟩]⟩,
    ⟨0x148, 0, 1, 0, [⟨.ro, 15, 0, 167⟩]⟩,
    ⟨0x14C, 0, 1, 0, [⟨.ro, 15, 0, 436⟩]⟩,
    ⟨0x150, 0, 1, 0, [⟨.ro, 5, 0, 0⟩]⟩]

/-- The registers of block type 0x06. -/
def regs06 : List RegSpec :=
  [
    ⟨0x140, 0, 1, 0, [⟨.ro, 6, 0, 0⟩, ⟨.ro, 7, 7, 0⟩, ⟨.ro, 12, 8, 0⟩, ⟨.ro, 23, 16, 0⟩]⟩,
    ⟨0x144, 0, 1, 0, [⟨.rwq, 1, 0, 2⟩]⟩,
    ⟨0x148, 0, 1, 0, [⟨.ro, 15, 0, 20⟩]⟩,
    ⟨0x14C, 0, 1, 0, [⟨.ro, 7, 0, 0⟩, ⟨.ro, 12, 8, 0⟩]⟩,
    ⟨0x150, 0, 1, 0, [⟨.ro, 31, 0, 0⟩]⟩]

/-- The registers of block type 0x07. -/
def regs07 : List RegSpec :=
  [
    ⟨0x140, 0, 1, 0, [⟨.ro, 1, 0, 0⟩, ⟨.ro, 7, 2, 0⟩, ⟨.ro, 12, 8, 0⟩, ⟨.ro, 15, 13, 0⟩]⟩,
    ⟨0x144, 0, 1, 0, [⟨.ro, 15, 0, 0⟩]⟩]

/-- The registers of block type 0x08. -/
def regs08 : List RegSpec :=
  [
    ⟨0x140, 0, 1, 0, [⟨.rw, 19, 0, 100000⟩]⟩,
    ⟨0x144, 0, 1, 0, [⟨.ro, 19, 0, 15320⟩]⟩,
    ⟨0x148, 0, 1, 0, [⟨.rw, 7, 0, 8⟩]⟩,
    ⟨0x14C, 0, 1, 0, [⟨.ro, 0, 0, 0⟩, ⟨.ro, 15, 8, 0⟩]⟩]

/-- The registers of block type 0x09. -/
def regs09 : List RegSpec :=
  [
    ⟨0x140, 0, 1, 0, [⟨.ro, 15, 0, 0⟩]⟩,
    ⟨0x144, 0, 1, 0, [⟨.ro, 15, 0, 1175⟩]⟩,
    ⟨0x148, 0, 1, 0, [⟨.ro, 11, 0, 0⟩]⟩,
    ⟨0x14C, 0, 1, 0, [⟨.ro, 11, 0, 0⟩]⟩,
    ⟨0x150, 0, 1, 0, [⟨.rw, 9, 0, 100⟩, ⟨.rw, 31, 16, 0⟩]⟩]

/-- The registers of block type 0x10. -/
def regs10 : List RegSpec :=
  [
    ⟨0x140, 0, 1, 0, [⟨.ro, 1, 0, 0⟩, ⟨.ro, 2, 2, 0⟩, ⟨.ro, 5, 3, 7⟩, ⟨.ro, 24, 16, 0⟩]⟩,
    ⟨0x144, 0, 1, 0, [⟨.rwq, 0, 0, 0⟩, ⟨.rw, 25, 16, 24⟩]⟩,
    ⟨0x148, 0, 1, 0, [⟨.ro, 31, 0, 0⟩]⟩,
    ⟨0x14C, 0, 1, 0, [⟨.ro, 15, 0, 0⟩, ⟨.ro, 16, 16, 0⟩]⟩,
    ⟨0x150, 0, 1, 0, [⟨.ro, 11, 0, 0⟩]⟩]

/-- The registers of block type 0x12. -/
def regs12 : List RegSpec :=
  [
    ⟨0x140, 0, 1, 0, [⟨.ro, 15, 0, 0⟩, ⟨.ro, 16, 16, 0⟩, ⟨.ro, 17, 17, 0⟩]⟩,
    ⟨0x144, 0, 1, 0, [⟨.ro, 15, 0, 0⟩, ⟨.ro, 23, 16, 0⟩]⟩,
    ⟨0x148, 0, 1, 0, [⟨.ro, 31, 0, 0⟩]⟩,
    ⟨0x14C, 0, 1, 0, [⟨.ro, 31, 0, 0⟩]⟩]

/-- The registers of block type 0x13. -/
def regs13 : List RegSpec :=
  [
    ⟨0x140, 0, 1, 0, [⟨.ro, 0, 0, 0⟩, ⟨.ro, 2, 1, 0⟩, ⟨.ro, 12, 3, 0⟩, ⟨.ro, 24, 13, 0⟩]⟩,
    ⟨0x144, 0, 1, 0, [⟨.ro, 31, 0, 0⟩]⟩,
    ⟨0x148, 0, 1, 1, [⟨.rwq, 31, 6, 0⟩]⟩,
    ⟨0x14C, 0, 1, 1, [⟨.rwq, 15, 0, 0⟩]⟩]

/-- The registers of block type 0x14. -/
def regs14 : List RegSpec :=
  [
    ⟨0x800, 32, 64, 1, [⟨.rw, 15, 0, 0⟩]⟩,
    ⟨0x804, 32, 64, 1, [⟨.rw, 15, 0, 0⟩]⟩,
    ⟨0x808, 32, 64, 1, [⟨.wo, 12, 0, 0⟩, ⟨.wo, 28, 16, 0⟩]⟩,
    ⟨0x80C, 32, 64, 1, [⟨.rwq, 31, 12, 0⟩]⟩,
    ⟨0x810, 32, 64, 1, [⟨.rwq, 31, 0, 0⟩]⟩,
    ⟨0x814, 32, 64, 1, [⟨.rwq, 3, 0, 0⟩, ⟨.rwq, 7, 4, 0⟩, ⟨.rw, 8, 8, 0⟩]⟩,
    ⟨0x818, 32, 64, 1, [⟨.ro, 0, 0, 0⟩, ⟨.ro, 1, 1, 0⟩, ⟨.ro, 31, 16, 0⟩]⟩,
    ⟨0x81C, 32, 64, 1, [⟨.rw, 7, 0, 0⟩, ⟨.rw, 9, 8, 2⟩, ⟨.rw, 21, 10, 0⟩]⟩,
    ⟨0x400, 4, 64, 1, [⟨.rw, 11, 0, 0⟩, ⟨.rw, 12, 12, 0⟩]⟩,
    ⟨0x148, 0, 1, 0, [⟨.rwq, 31, 11, 0⟩]⟩,
    ⟨0x14C, 0, 1, 0, [⟨.rwq, 15, 0, 0⟩]⟩,
    ⟨0x140, 0, 1, 0, [⟨.ro, 11, 0, 0⟩]⟩]

/-- The registers of block type 0x15. -/
def regs15 : List RegSpec :=
  [
    ⟨0x140, 0, 1, 0, [⟨.ro, 0, 0, 0⟩, ⟨.ro, 1, 1, 0⟩]⟩,
    ⟨0x144, 0, 1, 0, [⟨.ro, 12, 0, 0⟩, ⟨.w1c, 15, 15, 0⟩, ⟨.ro, 17, 16, 0⟩]⟩]

/-- The registers of block type 0x16. -/
def regs16 : List RegSpec :=
  [
    ⟨0x140, 0, 1, 0, [⟨.ro, 2, 0, 0⟩, ⟨.ro, 8, 3, 0⟩, ⟨.ro, 20, 9, 0⟩, ⟨.ro, 23, 21, 0⟩, ⟨.ro, 24, 24, 0⟩]⟩,
    ⟨0x144, 0, 1, 0, [⟨.rw, 0, 0, 1⟩]⟩,
    ⟨0x148, 0, 1, 0, [⟨.ro, 31, 0, 0⟩]⟩,
    ⟨0x14C, 0, 1, 0, [⟨.ro, 7, 0, 0⟩]⟩,
    ⟨0x150, 0, 1, 0, [⟨.rw, 19, 0, 100000⟩]⟩,
    ⟨0x154, 0, 1, 0, [⟨.ro, 14, 0, 0⟩]⟩]

/-- The registers of block type 0x17. -/
def regs17 : List RegSpec :=
  [
    ⟨0x800, 16, 128, 1, [⟨.rw, 0, 0, 0⟩, ⟨.rw, 6, 1, 0⟩, ⟨.rw, 31, 12, 0⟩]⟩,
    ⟨0x804, 16, 128, 1, [⟨.rw, 31, 0, 0⟩]⟩,
    ⟨0x808, 16, 128, 1, [⟨.rw, 9, 0, 0⟩]⟩,
    ⟨0x140, 0, 1, 1, [⟨.rwq, 11, 0, 0⟩, ⟨.rwq, 12, 12, 0⟩]⟩,
    ⟨0x180, 4, 16, 1, [⟨.rw, 3, 0, 0⟩, ⟨.rw, 7, 4, 0⟩, ⟨.rw, 9, 8, 0⟩, ⟨.rw, 10, 10, 0⟩]⟩,
    ⟨0x400, 4, 256, 1, [⟨.rw, 3, 0, 0⟩, ⟨.rw, 4, 4, 0⟩, ⟨.rw, 11, 8, 0⟩, ⟨.rw, 12, 12, 0⟩, ⟨.rw, 19, 16, 0⟩, ⟨.rw, 20, 20, 0⟩, ⟨.rw, 27, 24, 0⟩, ⟨.rw, 28, 28, 0⟩]⟩]

/-- The registers of block type 0x18. -/
def regs18 : List RegSpec :=
  [
    ⟨0x140, 0, 1, 0, [⟨.ro, 0, 0, 0⟩, ⟨.ro, 25, 16, 0⟩]⟩,
    ⟨0x144, 0, 1, 0, [⟨.ro, 31, 0, 0⟩]⟩,
    ⟨0x148, 0, 1, 0, [⟨.ro, 31, 0, 0⟩]⟩,
    ⟨0x200, 4, 64, 1, [⟨.ro, 15, 0, 0⟩]⟩,
    ⟨0x300, 4, 64, 1, [⟨.rw, 8, 0, 0⟩, ⟨.ro, 24, 16, 0⟩]⟩]

/-- The registers of block type 0x19. -/
def regs19 : List RegSpec :=
  [
    ⟨0x140, 0, 1, 0, [⟨.ro, 7, 0, 0⟩, ⟨.ro, 8, 8, 0⟩, ⟨.ro, 9, 9, 0⟩, ⟨.ro, 10, 10, 0⟩]⟩,
    ⟨0x144, 0, 1, 0, [⟨.rw, 19, 0, 150000⟩]⟩,
    ⟨0x148, 0, 1, 0, [⟨.ro, 31, 0, 0⟩]⟩,
    ⟨0x14C, 0, 1, 0, [⟨.ro, 31, 0, 0⟩]⟩,
    ⟨0x150, 0, 1, 0, [⟨.ro, 15, 0, 0⟩]⟩,
    ⟨0x154, 0, 1, 0, [⟨.rw, 19, 0, 1000⟩]⟩,
    ⟨0x180, 8, 256, 0, [⟨.ro, 7, 0, 0⟩, ⟨.ro, 15, 8, 0⟩, ⟨.ro, 23, 16, 0⟩, ⟨.ro, 28, 24, 0⟩, ⟨.ro, 31, 29, 0⟩]⟩,
    ⟨0x184, 8, 256, 0, [⟨.ro, 31, 0, 0⟩]⟩]

/-- The registers of block type 0x1A. -/
def regs1A : List RegSpec :=
  [
    ⟨0x140, 0, 1, 0, [⟨.ro, 0, 0, 0⟩, ⟨.ro, 3, 1, 0⟩, ⟨.ro, 8, 4, 0⟩, ⟨.ro, 9, 9, 0⟩, ⟨.ro, 10, 10, 0⟩, ⟨.ro, 11, 11, 0⟩]⟩,
    ⟨0x144, 0, 1, 0, [⟨.ro, 6, 0, 0⟩]⟩]

/-- The registers of block type 0x1B. -/
def regs1B : List RegSpec :=
  [
    ⟨0x140, 0, 1, 0, [⟨.ro, 3, 0, 2⟩, ⟨.ro, 19, 4, 53764⟩]⟩,
    ⟨0x144, 0, 1, 0, [⟨.ro, 0, 0, 0⟩, ⟨.ro, 1, 1, 0⟩, ⟨.ro, 3, 2, 0⟩, ⟨.ro, 4, 4, 0⟩, ⟨.ro, 5, 5, 0⟩]⟩,
    ⟨0x148, 0, 1, 0, [⟨.ro, 31, 0, 0⟩]⟩,
    ⟨0x14C, 0, 1, 0, [⟨.ro, 15, 0, 0⟩, ⟨.ro, 31, 16, 0⟩]⟩]

/-- The registers of block type 0x1C. -/
def regs1C : List RegSpec :=
  [
    ⟨0x140, 0, 1, 0, [⟨.ro, 31, 0, 0⟩]⟩,
    ⟨0x144, 0, 1, 0, [⟨.ro, 31, 0, 0⟩]⟩,
    ⟨0x148, 0, 1, 0, [⟨.ro, 0, 0, 0⟩, ⟨.ro, 1, 1, 0⟩, ⟨.ro, 31, 16, 0⟩]⟩,
    ⟨0x14C, 0, 1, 1, [⟨.rwq, 0, 0, 0⟩, ⟨.rwq, 4, 1, 0⟩]⟩,
    ⟨0x150, 0, 1, 0, [⟨.rw, 15, 0, 1000⟩]⟩]

/-- The registers of block type 0x1D. -/
def regs1D : List RegSpec :=
  [
    ⟨0x140, 0, 1, 1, [⟨.rw, 0, 0, 0⟩, ⟨.rw, 1, 1, 0⟩, ⟨.rw, 2, 2, 0⟩, ⟨.rw, 3, 3, 0⟩]⟩,
    ⟨0x144, 0, 1, 1, [⟨.wo, 0, 0, 0⟩, ⟨.wo, 1, 1, 0⟩]⟩,
    ⟨0x148, 0, 1, 1, [⟨.rw, 31, 0, 0⟩]⟩,
    ⟨0x14C, 0, 1, 1, [⟨.rw, 31, 0, 0⟩]⟩,
    ⟨0x150, 0, 1, 1, [⟨.rw, 4, 0, 0⟩, ⟨.rw, 15, 5, 0⟩, ⟨.rw, 20, 16, 0⟩]⟩,
    ⟨0x154, 0, 1, 0, [⟨.ro, 0, 0, 0⟩, ⟨.ro, 3, 1, 0⟩, ⟨.ro, 31, 16, 0⟩]⟩,
    ⟨0x158, 0, 1, 0, [⟨.ro, 31, 0, 0⟩]⟩,
    ⟨0x15C, 0, 1, 0, [⟨.ro, 31, 0, 0⟩]⟩,
    ⟨0x170, 0, 1, 1, [⟨.rw, 31, 12, 0⟩]⟩,
    ⟨0x174, 0, 1, 1, [⟨.rw, 15, 0, 0⟩]⟩,
    ⟨0x178, 0, 1, 1, [⟨.rw, 4, 0, 6⟩, ⟨.rw, 8, 8, 0⟩]⟩,
    ⟨0x17C, 0, 1, 1, [⟨.ro, 19, 0, 0⟩, ⟨.ro, 31, 31, 0⟩]⟩]

/-- The registers of block type 0x1E. -/
def regs1E : List RegSpec :=
  [
    ⟨0x160, 0, 1, 2, [⟨.ro, 15, 0, 150⟩]⟩,
    ⟨0x140, 0, 1, 0, [⟨.ro, 9, 0, 750⟩, ⟨.ro, 10, 10, 0⟩, ⟨.ro, 11, 11, 0⟩, ⟨.ro, 12, 12, 0⟩]⟩,
    ⟨0x144, 0, 1, 2, [⟨.rw, 9, 0, 750⟩]⟩,
    ⟨0x148, 0, 1, 0, [⟨.ro, 15, 0, 0⟩]⟩,
    ⟨0x14C, 0, 1, 1, [⟨.ro, 12, 0, 5000⟩, ⟨.ro, 28, 16, 0⟩]⟩,
    ⟨0x150, 0, 1, 1, [⟨.ro, 27, 0, 0⟩]⟩,
    ⟨0x154, 0, 1, 1, [⟨.ro, 1, 0, 0⟩, ⟨.ro, 2, 2, 0⟩]⟩,
    ⟨0x158, 0, 1, 1, [⟨.rw, 0, 0, 0⟩]⟩,
    ⟨0x180, 4, 8, 1, [⟨.rw, 1, 0, 2⟩, ⟨.rw, 3, 2, 1⟩, ⟨.rw, 5, 4, 0⟩]⟩]

/-- The registers of block type 0x1F. -/
def regs1F : List RegSpec :=
  [
    ⟨0x140, 0, 1, 0, [⟨.ro, 0, 0, 0⟩, ⟨.ro, 15, 8, 0⟩, ⟨.ro, 22, 16, 0⟩]⟩,
    ⟨0x144, 0, 1, 0, [⟨.ro, 15, 0, 0⟩]⟩,
    ⟨0x148, 0, 1, 0, [⟨.ro, 16, 0, 0⟩]⟩,
    ⟨0x14C, 0, 1, 0, [⟨.ro, 15, 0, 256⟩]⟩]

/-- The registers of block type 0x20. -/
def regs20 : List RegSpec :=
  [
    ⟨0x140, 0, 1, 1, [⟨.ro, 7, 0, 0⟩, ⟨.ro, 15, 8, 0⟩]⟩,
    ⟨0x144, 0, 1, 1, [⟨.rw, 19, 0, 100000⟩]⟩,
    ⟨0x148, 0, 1, 1, [⟨.ro, 19, 0, 0⟩]⟩]

/-- The registers of block type 0x21. -/
def regs21 : List RegSpec :=
  [
    ⟨0x140, 16, 4, 0, [⟨.ro, 0, 0, 0⟩, ⟨.ro, 5, 1, 0⟩, ⟨.ro, 6, 6, 0⟩, ⟨.ro, 13, 8, 0⟩]⟩,
    ⟨0x144, 16, 4, 0, [⟨.ro, 9, 0, 0⟩, ⟨.ro, 25, 16, 0⟩]⟩,
    ⟨0x148, 16, 4, 0, [⟨.ro, 25, 0, 0⟩]⟩,
    ⟨0x14C, 16, 4, 0, [⟨.ro, 3, 0, 0⟩, ⟨.ro, 31, 16, 0⟩]⟩,
    ⟨0x180, 0, 1, 0, [⟨.rw, 25, 0, 0⟩]⟩,
    ⟨0x184, 0, 1, 0, [⟨.ro, 11, 0, 0⟩]⟩,
    ⟨0x1C0, 4, 4, 0, [⟨.rwq, 11, 0, 0⟩, ⟨.rwq, 12, 12, 0⟩]⟩]

/-- The registers of a block type (Table 3.3). The cell registers 0x140–0x47F are common to CC and MC (R65); memory controllers
share one layout (R158). -/
def specsOf : Nat → List RegSpec
  | 0x01 => regs01
  | 0x02 => regs01 ++ regs02
  | 0x04 => regs04
  | 0x05 => regs05
  | 0x06 => regs06
  | 0x07 => regs07
  | 0x08 => regs08
  | 0x09 => regs09
  | 0x10 => regs10
  | 0x11 => regs10
  | 0x12 => regs12
  | 0x13 => regs13
  | 0x14 => regs14
  | 0x15 => regs15
  | 0x16 => regs16
  | 0x17 => regs17
  | 0x18 => regs18
  | 0x19 => regs19
  | 0x1A => regs1A
  | 0x1B => regs1B
  | 0x1C => regs1C
  | 0x1D => regs1D
  | 0x1E => regs1E
  | 0x1F => regs1F
  | 0x20 => regs20
  | 0x21 => regs21
  | _ => []

namespace R

abbrev DDL_STS_LSTATE : Fld := ⟨0x140, 0, 1, 0⟩
abbrev DDL_STS_SPARES : Fld := ⟨0x140, 0, 7, 2⟩
abbrev DDL_STS_PEERDIE : Fld := ⟨0x140, 0, 12, 8⟩
abbrev DDL_STS_PEERINST : Fld := ⟨0x140, 0, 15, 13⟩
abbrev DDL_RATE_RATE : Fld := ⟨0x144, 0, 15, 0⟩
abbrev RTM_RATE_RATE : Fld := ⟨0x140, 0, 15, 0⟩
abbrev RTM_FLOOR_FLOOR : Fld := ⟨0x144, 0, 15, 0⟩
abbrev RTM_TEMP_TEMP : Fld := ⟨0x148, 0, 11, 0⟩
abbrev RTM_VOLT_VOLT : Fld := ⟨0x14C, 0, 11, 0⟩
abbrev RTM_CFG_INTERVAL : Fld := ⟨0x150, 0, 9, 0⟩
abbrev RTM_CFG_THRESH : Fld := ⟨0x150, 0, 31, 16⟩
abbrev TMB_TIME_LO_TIME_LO : Fld := ⟨0x140, 0, 31, 0⟩
abbrev TMB_TIME_HI_TIME_HI : Fld := ⟨0x144, 0, 31, 0⟩
abbrev TMB_STS_TBCLK_OK : Fld := ⟨0x148, 0, 0, 0⟩
abbrev TMB_STS_LOCKED : Fld := ⟨0x148, 0, 1, 1⟩
abbrev TMB_STS_OFFSET : Fld := ⟨0x148, 0, 31, 16⟩
abbrev TMB_CTL_MASTER : Fld := ⟨0x14C, 0, 0, 0⟩
abbrev TMB_CTL_UPSTREAM : Fld := ⟨0x14C, 0, 4, 1⟩
abbrev TMB_MSG_PERIOD_PERIOD : Fld := ⟨0x150, 0, 15, 0⟩
abbrev CELL_STS_SLOT : Fld := ⟨0x140, 0, 2, 0⟩
abbrev CELL_STS_PC : Fld := ⟨0x140, 0, 8, 3⟩
abbrev CELL_STS_LATCH : Fld := ⟨0x140, 0, 9, 9⟩
abbrev CELL_STS_WAITING : Fld := ⟨0x140, 0, 10, 10⟩
abbrev CELL_STS_EPOCH : Fld := ⟨0x140, 0, 23, 16⟩
abbrev CELL_FOLD_NENT : Fld := ⟨0x144, 0, 3, 0⟩
abbrev CELL_FOLD_YIELD_BLOCK : Fld := ⟨0x144, 0, 4, 4⟩
abbrev CELL_FOLDENT_SLOT : Fld := ⟨0x148, 4, 2, 0⟩
abbrev CELL_FOLDENT_FIRINGS : Fld := ⟨0x148, 4, 27, 4⟩
abbrev CELL_SLOTS_LOADED : Fld := ⟨0x168, 0, 7, 0⟩
abbrev CELL_SLOTS_HALTED : Fld := ⟨0x168, 0, 15, 8⟩
abbrev CELL_DBGSEL_DBGSEL : Fld := ⟨0x16C, 0, 2, 0⟩
abbrev CELL_SLOTFMT_FORMAT : Fld := ⟨0x170, 0, 3, 0⟩
abbrev CELL_CVAL_VALUE : Fld := ⟨0x400, 16, 23, 0⟩
abbrev CELL_CBND_BOUND : Fld := ⟨0x404, 16, 23, 0⟩
abbrev CELL_CSTR_STRIDE : Fld := ⟨0x408, 16, 23, 0⟩
abbrev CELL_CCFG_CHAIN : Fld := ⟨0x40C, 16, 3, 0⟩
abbrev CELL_CCFG_ADDR_EN : Fld := ⟨0x40C, 16, 4, 4⟩
abbrev CELL_CCFG_ACC_EN : Fld := ⟨0x40C, 16, 5, 5⟩
abbrev CELL_CCFG_MAXB : Fld := ⟨0x40C, 16, 31, 8⟩
abbrev SEQ_CFGSTS_EPOCH : Fld := ⟨0x140, 0, 7, 0⟩
abbrev SEQ_CFGSTS_DRAINED : Fld := ⟨0x140, 0, 8, 8⟩
abbrev SEQ_CFGSTS_HOLD : Fld := ⟨0x140, 0, 9, 9⟩
abbrev SEQ_CFGSTS_CFGBUSY : Fld := ⟨0x140, 0, 10, 10⟩
abbrev SEQ_LOADRATE_RATE : Fld := ⟨0x144, 0, 15, 0⟩
abbrev SEQ_BUMPBOUND_BUMPNS : Fld := ⟨0x148, 0, 15, 0⟩
abbrev DLD_WINDOW_WINDOW : Fld := ⟨0x140, 0, 19, 0⟩
abbrev DLD_MINWIN_MINWIN : Fld := ⟨0x144, 0, 19, 0⟩
abbrev DLD_LIMIT_LIMIT : Fld := ⟨0x148, 0, 7, 0⟩
abbrev DLD_STS_SPILLING : Fld := ⟨0x14C, 0, 0, 0⟩
abbrev DLD_STS_CONTEXT : Fld := ⟨0x14C, 0, 15, 8⟩
abbrev CELL_EDGE_VALID : Fld := ⟨0x480, 4, 8, 0⟩
abbrev CELL_EDGE_TCTR : Fld := ⟨0x480, 4, 11, 9⟩
abbrev CELL_EDGE_TEN : Fld := ⟨0x480, 4, 12, 12⟩
abbrev CELL_EDGE_KIND : Fld := ⟨0x480, 4, 14, 13⟩
abbrev CELL_EDGE_LG : Fld := ⟨0x480, 4, 18, 15⟩
abbrev CELL_EDGE_PEND : Fld := ⟨0x480, 4, 20, 19⟩
abbrev CELL_EDGE_SET : Fld := ⟨0x480, 4, 21, 21⟩
abbrev SEQ_LNSTS_LASTSEQ : Fld := ⟨0x150, 0, 15, 0⟩
abbrev SEQ_LNSTS_ZEROK : Fld := ⟨0x150, 0, 16, 16⟩
abbrev SEQ_LNSTS_ZEROOUT : Fld := ⟨0x150, 0, 17, 17⟩
abbrev SEQ_LNSTS_CLAMPED : Fld := ⟨0x150, 0, 18, 18⟩
abbrev SEQ_LNSTS_WAITING : Fld := ⟨0x150, 0, 19, 19⟩
abbrev SEQ_LNDROP_CLAMP : Fld := ⟨0x154, 0, 23, 0⟩
abbrev SEQ_LNGO_NGO : Fld := ⟨0x158, 0, 6, 0⟩
abbrev SEQ_SRKEY_LO_KEY_LO : Fld := ⟨0x160, 0, 31, 0⟩
abbrev SEQ_SRKEY_HI_KEY_HI : Fld := ⟨0x164, 0, 31, 0⟩
abbrev SEQ_SRKEY_CUR_LO_CUR_LO : Fld := ⟨0x168, 0, 31, 0⟩
abbrev SEQ_SRKEY_CUR_HI_CUR_HI : Fld := ⟨0x16C, 0, 31, 0⟩
abbrev MC_PBASE_BASEL : Fld := ⟨0x600, 16, 13, 0⟩
abbrev MC_PSIZE_SIZEL : Fld := ⟨0x604, 16, 14, 0⟩
abbrev MC_PATTR_ATTR : Fld := ⟨0x608, 16, 3, 0⟩
abbrev MC_WCFG_WSTATE : Fld := ⟨0x640, 32, 1, 0⟩
abbrev MC_WCFG_PAIR : Fld := ⟨0x640, 32, 3, 2⟩
abbrev MC_WCFG_TIMEDOUT : Fld := ⟨0x640, 32, 4, 4⟩
abbrev MC_WGEOM_OFFU : Fld := ⟨0x644, 32, 8, 0⟩
abbrev MC_WGEOM_SIZEU : Fld := ⟨0x644, 32, 24, 16⟩
abbrev MC_WSRC_SRCPKG : Fld := ⟨0x648, 32, 11, 0⟩
abbrev MC_WSRC_ANYPKG : Fld := ⟨0x648, 32, 12, 12⟩
abbrev MC_WSRC_SRCPART : Fld := ⟨0x648, 32, 21, 16⟩
abbrev MC_WPOOL_FREE : Fld := ⟨0x64C, 32, 20, 0⟩
abbrev MC_WPOOL_NACC : Fld := ⟨0x64C, 32, 25, 21⟩
abbrev MC_WARR_LO_ARR_LO : Fld := ⟨0x650, 32, 31, 0⟩
abbrev MC_WARR_HI_ARR_HI : Fld := ⟨0x654, 32, 31, 0⟩
abbrev MC_WNOTIFY_NOTIFY : Fld := ⟨0x658, 32, 8, 0⟩
abbrev MC_WEVT_WINDATA : Fld := ⟨0x840, 0, 15, 0⟩
abbrev MC_SCRSTS_LINE : Fld := ⟨0x844, 0, 13, 0⟩
abbrev MC_SCRSTS_WORD : Fld := ⟨0x844, 0, 15, 14⟩
abbrev MC_SCRSTS_UNC : Fld := ⟨0x844, 0, 16, 16⟩
abbrev XLT_T3MAP_LO_VALID : Fld := ⟨0x800, 16, 0, 0⟩
abbrev XLT_T3MAP_LO_PARTITION : Fld := ⟨0x800, 16, 6, 1⟩
abbrev XLT_T3MAP_LO_HBASE_LO : Fld := ⟨0x800, 16, 31, 12⟩
abbrev XLT_T3MAP_HI_HBASE_HI : Fld := ⟨0x804, 16, 31, 0⟩
abbrev XLT_T3MAP_LEN_LENG : Fld := ⟨0x808, 16, 9, 0⟩
abbrev MEM_STS_CHSTATE : Fld := ⟨0x140, 0, 1, 0⟩
abbrev MEM_STS_INSET : Fld := ⟨0x140, 0, 2, 2⟩
abbrev MEM_STS_SETCODE : Fld := ⟨0x140, 0, 5, 3⟩
abbrev MEM_STS_CAPG : Fld := ⟨0x140, 0, 24, 16⟩
abbrev MEM_CFG_SPREAD : Fld := ⟨0x144, 0, 0, 0⟩
abbrev MEM_CFG_SCRUBH : Fld := ⟨0x144, 0, 25, 16⟩
abbrev MEM_ERRADDR_LO_ADDR_LO : Fld := ⟨0x148, 0, 31, 0⟩
abbrev MEM_ERRADDR_HI_ADDR_HI : Fld := ⟨0x14C, 0, 15, 0⟩
abbrev MEM_ERRADDR_HI_UNC : Fld := ⟨0x14C, 0, 16, 16⟩
abbrev MEM_TEMP_TEMP : Fld := ⟨0x150, 0, 11, 0⟩
abbrev SEQ_PFSTS_PHASE : Fld := ⟨0x300, 0, 7, 0⟩
abbrev SEQ_PFSTS_ARMED : Fld := ⟨0x300, 0, 8, 8⟩
abbrev SEQ_PFSTS_STALLED : Fld := ⟨0x300, 0, 9, 9⟩
abbrev SEQ_PFSTS_CAUSE : Fld := ⟨0x300, 0, 13, 10⟩
abbrev SEQ_PFSTS_PENDARM : Fld := ⟨0x300, 0, 14, 14⟩
abbrev SEQ_PFRING_NDESC : Fld := ⟨0x304, 0, 8, 0⟩
abbrev SEQ_PFRING_INFLIGHT : Fld := ⟨0x304, 0, 20, 16⟩
abbrev SEQ_STALLLIM_LIMIT : Fld := ⟨0x308, 0, 19, 0⟩
abbrev SEQ_STALLNOTE_NOTE : Fld := ⟨0x30C, 0, 19, 0⟩
abbrev SEQ_PFERR_INDEX : Fld := ⟨0x310, 0, 8, 0⟩
abbrev SEQ_PFTAG_TAG : Fld := ⟨0x314, 0, 31, 0⟩
abbrev SEQ_STALLNS_LO_NS_LO : Fld := ⟨0x320, 8, 31, 0⟩
abbrev SEQ_STALLNS_HI_NS_HI : Fld := ⟨0x324, 8, 31, 0⟩
abbrev PPL_RCFG_VALID : Fld := ⟨0x140, 16, 0, 0⟩
abbrev PPL_RCFG_TSHIFT : Fld := ⟨0x140, 16, 5, 1⟩
abbrev PPL_RCFG_ZEROFREE : Fld := ⟨0x140, 16, 6, 6⟩
abbrev PPL_RCFG_PARTITION : Fld := ⟨0x140, 16, 13, 8⟩
abbrev PPL_RGRAN_FIRST : Fld := ⟨0x144, 16, 9, 0⟩
abbrev PPL_RGRAN_COUNT : Fld := ⟨0x144, 16, 25, 16⟩
abbrev PPL_RFREE_FREE : Fld := ⟨0x148, 16, 25, 0⟩
abbrev PPL_RSTAT_LARGEST : Fld := ⟨0x14C, 16, 3, 0⟩
abbrev PPL_RSTAT_WAITS : Fld := ⟨0x14C, 16, 31, 16⟩
abbrev PPL_LOWMARK_LOWMARK : Fld := ⟨0x180, 0, 25, 0⟩
abbrev PPL_TABLES_NTAB : Fld := ⟨0x184, 0, 11, 0⟩
abbrev HWK_LSTS_JOBSDONE : Fld := ⟨0x140, 0, 15, 0⟩
abbrev HWK_LSTS_ACTIVE : Fld := ⟨0x140, 0, 16, 16⟩
abbrev HWK_LSTS_CHECKING : Fld := ⟨0x140, 0, 17, 17⟩
abbrev HWK_LFAIL_FAILJOB : Fld := ⟨0x144, 0, 15, 0⟩
abbrev HWK_LFAIL_CODE : Fld := ⟨0x144, 0, 23, 16⟩
abbrev HWK_FETCH_FETCH : Fld := ⟨0x148, 0, 15, 0⟩
abbrev HWK_BLKNS_BLKNS : Fld := ⟨0x14C, 0, 15, 0⟩
abbrev HWK_DEQUE_DEPTH : Fld := ⟨0x150, 0, 5, 0⟩
abbrev SEQ_RLTSTS_RSTATE : Fld := ⟨0x400, 0, 1, 0⟩
abbrev SEQ_RLTSTS_RANK : Fld := ⟨0x400, 0, 14, 8⟩
abbrev SEQ_RLTSTS_P : Fld := ⟨0x400, 0, 22, 16⟩
abbrev SEQ_RLTSTS_ODDCLOSE : Fld := ⟨0x400, 0, 23, 23⟩
abbrev SEQ_RLTPOS_J : Fld := ⟨0x404, 0, 5, 0⟩
abbrev SEQ_RLTPOS_C : Fld := ⟨0x404, 0, 19, 8⟩
abbrev SEQ_RLTTMO_TIMEOUT : Fld := ⟨0x408, 0, 19, 0⟩
abbrev SEQ_RLTBLK_BLOCKS : Fld := ⟨0x40C, 0, 31, 0⟩
abbrev SEQ_RLTWAIT_LO_WAIT_LO : Fld := ⟨0x410, 0, 31, 0⟩
abbrev SEQ_RLTWAIT_HI_WAIT_HI : Fld := ⟨0x414, 0, 31, 0⟩
abbrev SEQ_RLTPEER_PRED : Fld := ⟨0x418, 0, 11, 0⟩
abbrev SEQ_RLTPEER_SUCC : Fld := ⟨0x418, 0, 27, 16⟩
abbrev SKP_STS_DEPTH : Fld := ⟨0x140, 0, 6, 0⟩
abbrev SKP_STS_ACTIVE : Fld := ⟨0x140, 0, 7, 7⟩
abbrev SKP_STS_KIND : Fld := ⟨0x140, 0, 12, 8⟩
abbrev SKP_STS_CONTEXT : Fld := ⟨0x140, 0, 23, 16⟩
abbrev SKP_STEALCFG_SCOPE : Fld := ⟨0x144, 0, 1, 0⟩
abbrev SKP_RATE_RATE : Fld := ⟨0x148, 0, 15, 0⟩
abbrev SKP_LASTFAIL_STATUS : Fld := ⟨0x14C, 0, 7, 0⟩
abbrev SKP_LASTFAIL_KIND : Fld := ⟨0x14C, 0, 12, 8⟩
abbrev SKP_LASTTAG_TAG : Fld := ⟨0x150, 0, 31, 0⟩
abbrev TSL_STS_JOBSDONE : Fld := ⟨0x140, 0, 15, 0⟩
abbrev TSL_STS_ACTIVE : Fld := ⟨0x140, 0, 16, 16⟩
abbrev TSL_STS_CHECKING : Fld := ⟨0x140, 0, 17, 17⟩
abbrev TSL_LFAIL_FAILJOB : Fld := ⟨0x144, 0, 15, 0⟩
abbrev TSL_LFAIL_CODE : Fld := ⟨0x144, 0, 23, 16⟩
abbrev TSL_OLDEST_LO_OLD_LO : Fld := ⟨0x148, 0, 31, 0⟩
abbrev TSL_OLDEST_HI_OLD_HI : Fld := ⟨0x14C, 0, 31, 0⟩
abbrev EXR_STS_ACTIVE : Fld := ⟨0x140, 0, 0, 0⟩
abbrev EXR_STS_CONTEXT : Fld := ⟨0x140, 0, 15, 8⟩
abbrev EXR_STS_QUEUED : Fld := ⟨0x140, 0, 22, 16⟩
abbrev EXR_POS_TOKEN : Fld := ⟨0x144, 0, 15, 0⟩
abbrev EXR_LASTDROP_DROPS : Fld := ⟨0x148, 0, 16, 0⟩
abbrev EXR_RATE_RATE : Fld := ⟨0x14C, 0, 15, 0⟩
abbrev DB_SUBTAIL_TAIL : Fld := ⟨0x800, 32, 15, 0⟩
abbrev DB_EVHEAD_HEAD : Fld := ⟨0x804, 32, 15, 0⟩
abbrev DB_TOKHEAD_RING : Fld := ⟨0x808, 32, 12, 0⟩
abbrev DB_TOKHEAD_HEAD : Fld := ⟨0x808, 32, 28, 16⟩
abbrev DB_WINLO_BASE_LO : Fld := ⟨0x80C, 32, 31, 12⟩
abbrev DB_WINHI_BASE_HI : Fld := ⟨0x810, 32, 31, 0⟩
abbrev DB_WINCFG_SUBLOG : Fld := ⟨0x814, 32, 3, 0⟩
abbrev DB_WINCFG_EVLOG : Fld := ⟨0x814, 32, 7, 4⟩
abbrev DB_WINCFG_ENABLE : Fld := ⟨0x814, 32, 8, 8⟩
abbrev DB_STS_SUBSTALL : Fld := ⟨0x818, 32, 0, 0⟩
abbrev DB_STS_EVSTALL : Fld := ⟨0x818, 32, 1, 1⟩
abbrev DB_STS_EVFREE : Fld := ⟨0x818, 32, 31, 16⟩
abbrev DB_DEFAULT_CONTEXT : Fld := ⟨0x81C, 32, 7, 0⟩
abbrev DB_DEFAULT_PCLASS : Fld := ⟨0x81C, 32, 9, 8⟩
abbrev DB_DEFAULT_TENANT : Fld := ⟨0x81C, 32, 21, 10⟩
abbrev TRG_STS_ACTIVE : Fld := ⟨0x140, 0, 0, 0⟩
abbrev TRG_STS_WRITING : Fld := ⟨0x140, 0, 1, 1⟩
abbrev TRG_LASTFAIL_RQIDX : Fld := ⟨0x144, 0, 12, 0⟩
abbrev TRG_LASTFAIL_VALID : Fld := ⟨0x144, 0, 15, 15⟩
abbrev TRG_LASTFAIL_CAUSE : Fld := ⟨0x144, 0, 17, 16⟩
abbrev LDR_STS_ACTIVE : Fld := ⟨0x140, 0, 0, 0⟩
abbrev LDR_STS_MODE : Fld := ⟨0x140, 0, 2, 1⟩
abbrev LDR_STS_LAYER : Fld := ⟨0x140, 0, 12, 3⟩
abbrev LDR_STS_MODEL : Fld := ⟨0x140, 0, 24, 13⟩
abbrev LDR_PROG_PROG : Fld := ⟨0x144, 0, 31, 0⟩
abbrev LDR_ADMAP_LO_ADMAP_LO : Fld := ⟨0x148, 0, 31, 6⟩
abbrev LDR_ADMAP_HI_ADMAP_HI : Fld := ⟨0x14C, 0, 15, 0⟩
abbrev PWR_PREEMPT_BOUND_BOUND : Fld := ⟨0x160, 0, 15, 0⟩
abbrev BND_STS_COMMITTING : Fld := ⟨0x140, 0, 0, 0⟩
abbrev BND_STS_ZGRAN : Fld := ⟨0x140, 0, 25, 16⟩
abbrev BND_LAST_LO_STAMP_LO : Fld := ⟨0x144, 0, 31, 0⟩
abbrev BND_LAST_HI_STAMP_HI : Fld := ⟨0x148, 0, 31, 0⟩
abbrev BND_EPOCH_EPOCH : Fld := ⟨0x200, 4, 15, 0⟩
abbrev SPW_STS_WINDOW : Fld := ⟨0x140, 0, 7, 0⟩
abbrev SPW_STS_FRAME : Fld := ⟨0x140, 0, 8, 8⟩
abbrev SPW_STS_PENDLOAD : Fld := ⟨0x140, 0, 9, 9⟩
abbrev SPW_STS_ACTING : Fld := ⟨0x140, 0, 10, 10⟩
abbrev SPW_LEAD_LEAD : Fld := ⟨0x144, 0, 19, 0⟩
abbrev SPW_FRAME_LO_FS_LO : Fld := ⟨0x148, 0, 31, 0⟩
abbrev SPW_FRAME_HI_FS_HI : Fld := ⟨0x14C, 0, 31, 0⟩
abbrev SPW_RTLAT_MAXLAT : Fld := ⟨0x150, 0, 15, 0⟩
abbrev SPW_SLICE_SLICE : Fld := ⟨0x154, 0, 19, 0⟩
abbrev GYL_STS_LSTATE : Fld := ⟨0x140, 0, 2, 0⟩
abbrev GYL_STS_WIDTH : Fld := ⟨0x140, 0, 8, 3⟩
abbrev GYL_STS_PEER : Fld := ⟨0x140, 0, 20, 9⟩
abbrev GYL_STS_PEERPORT : Fld := ⟨0x140, 0, 23, 21⟩
abbrev GYL_STS_PEERVALID : Fld := ⟨0x140, 0, 24, 24⟩
abbrev GYL_CTL_LINKEN : Fld := ⟨0x144, 0, 0, 0⟩
abbrev GYL_LANES_LO_INSVC_LO : Fld := ⟨0x148, 0, 31, 0⟩
abbrev GYL_LANES_HI_INSVC_HI : Fld := ⟨0x14C, 0, 7, 0⟩
abbrev GYL_LANETHR_LANETHR : Fld := ⟨0x150, 0, 19, 0⟩
abbrev GYL_REPLAY_HELD : Fld := ⟨0x154, 0, 14, 0⟩
abbrev XLT_PKGID_PKGID : Fld := ⟨0x140, 0, 11, 0⟩
abbrev XLT_PKGID_IDVALID : Fld := ⟨0x140, 0, 12, 12⟩
abbrev XLT_BRT_EXITY : Fld := ⟨0x180, 4, 3, 0⟩
abbrev XLT_BRT_EXITX : Fld := ⟨0x180, 4, 7, 4⟩
abbrev XLT_BRT_PORT : Fld := ⟨0x180, 4, 9, 8⟩
abbrev XLT_BRT_VALID : Fld := ⟨0x180, 4, 10, 10⟩
abbrev SEQ_COLLSTS_PC : Fld := ⟨0x180, 0, 7, 0⟩
abbrev SEQ_COLLSTS_ACTIVE : Fld := ⟨0x180, 0, 8, 8⟩
abbrev SEQ_COLLSTS_ABORTED : Fld := ⟨0x180, 0, 9, 9⟩
abbrev SEQ_COLLSTS_REASON : Fld := ⟨0x180, 0, 11, 10⟩
abbrev SEQ_COLLSTS_W : Fld := ⟨0x180, 0, 15, 12⟩
abbrev SEQ_COLLSTS_GROUP : Fld := ⟨0x180, 0, 31, 16⟩
abbrev SEQ_COLLTMO_TIMEOUT : Fld := ⟨0x184, 0, 19, 0⟩
abbrev SEQ_COLLINST_INST : Fld := ⟨0x188, 0, 15, 0⟩
abbrev SEQ_COLLDISC_DISC : Fld := ⟨0x18C, 0, 31, 0⟩
abbrev SEQ_COLLX_X : Fld := ⟨0x1C0, 4, 31, 0⟩
abbrev SEQ_STEP_LO_STEP_LO : Fld := ⟨0x500, 0, 31, 0⟩
abbrev SEQ_STEP_HI_STEP_HI : Fld := ⟨0x504, 0, 31, 0⟩
abbrev SEQ_CMTSTAMP_LO_CS_LO : Fld := ⟨0x508, 0, 31, 0⟩
abbrev SEQ_CMTSTAMP_HI_CS_HI : Fld := ⟨0x50C, 0, 31, 0⟩
abbrev SEQ_CMTSTS_WAITING : Fld := ⟨0x510, 0, 0, 0⟩
abbrev SEQ_CMTSTS_WAITFOR : Fld := ⟨0x510, 0, 7, 1⟩
abbrev SPW_CTXFAULT_CODE : Fld := ⟨0x180, 8, 7, 0⟩
abbrev SPW_CTXFAULT_TYPE : Fld := ⟨0x180, 8, 15, 8⟩
abbrev SPW_CTXFAULT_INSTANCE : Fld := ⟨0x180, 8, 23, 16⟩
abbrev SPW_CTXFAULT_DIE : Fld := ⟨0x180, 8, 28, 24⟩
abbrev SPW_CTXFAULT_CAUSE : Fld := ⟨0x180, 8, 31, 29⟩
abbrev SPW_CTXFSTAMP_STAMP_LO : Fld := ⟨0x184, 8, 31, 0⟩
abbrev BND_SPARE_ALLOW : Fld := ⟨0x300, 4, 8, 0⟩
abbrev BND_SPARE_USED : Fld := ⟨0x300, 4, 24, 16⟩
abbrev PPL_MIRROR_MPKG : Fld := ⟨0x1C0, 4, 11, 0⟩
abbrev PPL_MIRROR_MEN : Fld := ⟨0x1C0, 4, 12, 12⟩
abbrev RQT_MIRTGT_MPKG : Fld := ⟨0x400, 4, 11, 0⟩
abbrev RQT_MIRTGT_MEN : Fld := ⟨0x400, 4, 12, 12⟩
abbrev RQT_MIRBASE_LO_MB_LO : Fld := ⟨0x148, 0, 31, 11⟩
abbrev RQT_MIRBASE_HI_MB_HI : Fld := ⟨0x14C, 0, 15, 0⟩
abbrev CMP_STS_RUNNING : Fld := ⟨0x140, 0, 7, 0⟩
abbrev CMP_STS_PENDING : Fld := ⟨0x140, 0, 15, 8⟩
abbrev CMP_PENDWARN_PENDWARN : Fld := ⟨0x144, 0, 19, 0⟩
abbrev CMP_PENDMAX_PENDMAX : Fld := ⟨0x148, 0, 19, 0⟩
abbrev SNP_CTL_TIMEEN : Fld := ⟨0x140, 0, 0, 0⟩
abbrev SNP_CTL_EVTEN : Fld := ⟨0x140, 0, 1, 1⟩
abbrev SNP_CTL_PINEN : Fld := ⟨0x140, 0, 2, 2⟩
abbrev SNP_CTL_OUTEN : Fld := ⟨0x140, 0, 3, 3⟩
abbrev SNP_TRIG_TRIG : Fld := ⟨0x144, 0, 0, 0⟩
abbrev SNP_TRIG_RELEASE : Fld := ⟨0x144, 0, 1, 1⟩
abbrev SNP_MATCH_LO_MATCH_LO : Fld := ⟨0x148, 0, 31, 0⟩
abbrev SNP_MATCH_HI_MATCH_HI : Fld := ⟨0x14C, 0, 31, 0⟩
abbrev SNP_EVSEL_DIE : Fld := ⟨0x150, 0, 4, 0⟩
abbrev SNP_EVSEL_PAGE : Fld := ⟨0x150, 0, 15, 5⟩
abbrev SNP_EVSEL_BIT : Fld := ⟨0x150, 0, 20, 16⟩
abbrev SNP_STS_FROZEN : Fld := ⟨0x154, 0, 0, 0⟩
abbrev SNP_STS_SOURCE : Fld := ⟨0x154, 0, 3, 1⟩
abbrev SNP_STS_SEQNO : Fld := ⟨0x154, 0, 31, 16⟩
abbrev SNP_STAMP_LO_ST_LO : Fld := ⟨0x158, 0, 31, 0⟩
abbrev SNP_STAMP_HI_ST_HI : Fld := ⟨0x15C, 0, 31, 0⟩
abbrev SNP_TRBASE_LO_TB_LO : Fld := ⟨0x170, 0, 31, 12⟩
abbrev SNP_TRBASE_HI_TB_HI : Fld := ⟨0x174, 0, 15, 0⟩
abbrev SNP_TRCFG_LOG2N : Fld := ⟨0x178, 0, 4, 0⟩
abbrev SNP_TRCFG_TREN : Fld := ⟨0x178, 0, 8, 8⟩
abbrev SNP_TRIDX_NEXT : Fld := ⟨0x17C, 0, 19, 0⟩
abbrev SNP_TRIDX_WRAPPED : Fld := ⟨0x17C, 0, 31, 31⟩
abbrev PCI_STS_LINKUP : Fld := ⟨0x140, 0, 0, 0⟩
abbrev PCI_STS_SPEED : Fld := ⟨0x140, 0, 3, 1⟩
abbrev PCI_STS_WIDTH : Fld := ⟨0x140, 0, 8, 4⟩
abbrev PCI_STS_FLIT : Fld := ⟨0x140, 0, 9, 9⟩
abbrev PCI_STS_READY : Fld := ⟨0x140, 0, 10, 10⟩
abbrev PCI_STS_FATAL : Fld := ⟨0x140, 0, 11, 11⟩
abbrev PCI_NUMVF_NUMVF : Fld := ⟨0x144, 0, 6, 0⟩
abbrev KMC_IDENT_STEPPING : Fld := ⟨0x140, 0, 3, 0⟩
abbrev KMC_IDENT_PART : Fld := ⟨0x140, 0, 19, 4⟩
abbrev KMC_STS_STANDBY : Fld := ⟨0x144, 0, 0, 0⟩
abbrev KMC_STS_ACTING : Fld := ⟨0x144, 0, 1, 1⟩
abbrev KMC_STS_BOOT : Fld := ⟨0x144, 0, 3, 2⟩
abbrev KMC_STS_SLOT : Fld := ⟨0x144, 0, 4, 4⟩
abbrev KMC_STS_STAGED : Fld := ⟨0x144, 0, 5, 5⟩
abbrev KMC_FWVER_FWVER : Fld := ⟨0x148, 0, 31, 0⟩
abbrev KMC_ROLLBACK_FUSED : Fld := ⟨0x14C, 0, 15, 0⟩
abbrev KMC_ROLLBACK_IMAGE : Fld := ⟨0x14C, 0, 31, 16⟩
abbrev PWR_STS_VREQ : Fld := ⟨0x140, 0, 9, 0⟩
abbrev PWR_STS_CAPPED : Fld := ⟨0x140, 0, 10, 10⟩
abbrev PWR_STS_THERM : Fld := ⟨0x140, 0, 11, 11⟩
abbrev PWR_STS_ON : Fld := ⟨0x140, 0, 12, 12⟩
abbrev PWR_VSET_VSET : Fld := ⟨0x144, 0, 9, 0⟩
abbrev PWR_POWER_POWER : Fld := ⟨0x148, 0, 15, 0⟩
abbrev PWR_PKG_LIMIT : Fld := ⟨0x14C, 0, 12, 0⟩
abbrev PWR_PKG_PKGW : Fld := ⟨0x14C, 0, 28, 16⟩
abbrev PWR_DOMAINS_DON : Fld := ⟨0x150, 0, 27, 0⟩
abbrev PWR_RSTCAUSE_CAUSE : Fld := ⟨0x154, 0, 1, 0⟩
abbrev PWR_RSTCAUSE_SUFAIL : Fld := ⟨0x154, 0, 2, 2⟩
abbrev PWR_CTL_KEEPT2 : Fld := ⟨0x158, 0, 0, 0⟩
abbrev PWR_IOCFG_DRIVE : Fld := ⟨0x180, 4, 1, 0⟩
abbrev PWR_IOCFG_SLEW : Fld := ⟨0x180, 4, 3, 2⟩
abbrev PWR_IOCFG_FILT : Fld := ⟨0x180, 4, 5, 4⟩
abbrev RQT_STS_NUSED : Fld := ⟨0x140, 0, 11, 0⟩
abbrev XLT_RWIN_PBOARD : Fld := ⟨0x400, 4, 3, 0⟩
abbrev XLT_RWIN_VALID : Fld := ⟨0x400, 4, 4, 4⟩
abbrev XLT_RWIN_PBOARD1 : Fld := ⟨0x400, 4, 11, 8⟩
abbrev XLT_RWIN_VALID1 : Fld := ⟨0x400, 4, 12, 12⟩
abbrev XLT_RWIN_PBOARD2 : Fld := ⟨0x400, 4, 19, 16⟩
abbrev XLT_RWIN_VALID2 : Fld := ⟨0x400, 4, 20, 20⟩
abbrev XLT_RWIN_PBOARD3 : Fld := ⟨0x400, 4, 27, 24⟩
abbrev XLT_RWIN_VALID3 : Fld := ⟨0x400, 4, 28, 28⟩

end R

end Sys2Proof.Machine
end

