-- ==== Sys2Proof/Machine/Maps.lean ====
section
/-!
DEFINITION. Maps.lean: sparse tables and the byte memory, each a list in one canonical form.

A sparse table lists (key, value) pairs with strictly rising keys and lists no value equal to its default, so that equal
tables are equal lists. The byte memory is such a table of Host.Cell pairs whose default is zero.
-/
namespace Sys2Proof.Machine

/-- A sparse table: rising keys, no entry equal to the default of the table. -/
abbrev SMap (β : Type) := List (Nat × β)

/-- The value at a key; `d` where none is listed. -/
def SMap.at {β : Type} (d : β) : SMap β → Nat → β
  | [], _ => d
  | (k, v) :: m, i => if i = k then v else SMap.at d m i

/-- The table without a key. -/
def SMap.drop {β : Type} (m : SMap β) (i : Nat) : SMap β := m.filter fun e => decide (e.1 ≠ i)

/-- The table with a value listed at a key. -/
def SMap.ins {β : Type} : SMap β → Nat → β → SMap β
  | [], i, x => [(i, x)]
  | (k, v) :: m, i, x =>
    if i = k then (i, x) :: m else if i < k then (i, x) :: (k, v) :: m else (k, v) :: SMap.ins m i x

/-- The table with a key set to a value; the default is not listed. -/
def SMap.put {β : Type} [DecidableEq β] (d : β) (m : SMap β) (i : Nat) (x : β) : SMap β :=
  if x = d then SMap.drop m i else SMap.ins m i x

/-- The table with the value at a key changed. -/
def SMap.mod {β : Type} [DecidableEq β] (d : β) (m : SMap β) (i : Nat) (f : β → β) : SMap β :=
  SMap.put d m i (f (SMap.at d m i))

/-- The keys listed. -/
def SMap.keys {β : Type} (m : SMap β) : List Nat := m.map (·.1)

/-- The canonical form: keys strictly rising from `lo`, no value equal to the default. -/
def SMap.wfFrom {β : Type} [DecidableEq β] (d : β) : Nat → SMap β → Bool
  | _, [] => true
  | lo, (k, v) :: m => decide (lo ≤ k) && decide (v ≠ d) && SMap.wfFrom d (k + 1) m

/-- The canonical form of a table. -/
def SMap.wf {β : Type} [DecidableEq β] (d : β) (m : SMap β) : Bool := SMap.wfFrom d 0 m

/-- The byte memory: every byte the package holds outside its registers, as (address, byte) pairs. An unlisted
address reads zero (DESIGN CHOICE, log entry 1). The address spaces are laid out in Ops.lean. -/
abbrev Memory := List (Nat × BitVec 8)

/-- One byte. -/
def Memory.byte (m : Memory) (a : Nat) : Byte := SMap.at 0#8 m a

/-- One byte written. -/
def Memory.write (m : Memory) (a : Nat) (b : Byte) : Memory := SMap.put 0#8 m a b

/-- Bytes written one after another, the first of the list first. -/
def Memory.writeAll (m : Memory) : List (Nat × BitVec 8) → Memory
  | [] => m
  | (a, b) :: l => Memory.writeAll (Memory.write m a b) l

/-- The canonical form of the memory. -/
def Memory.wf (m : Memory) : Bool := SMap.wf 0#8 m

end Sys2Proof.Machine
end

