-- ==== Sys2Proof/Machine/State.lean ====
section
/-!
DEFINITION. State.lean: everything the DW20 holds, as plain data (INVENTORY.md lists it with the rule that names each piece).

Registers live in one table keyed by page and word (`Dev.regs`), under the names of Regs.lean; what the manual gives the
device beside registers has a record per chapter. `State` adds the byte memory, the contents that survive a power-on reset, the
timebase, the frozen snapshot, and the queue of waiting commands.
-/
namespace Sys2Proof.Machine

/-! ### Block pages (chapter 3) -/

/-- The block states of R33 (Table 3.2). -/
inductive BlockState where
  | off | idle | bound | running | quiescing | quiesced | fenced
deriving DecidableEq, Repr

/-- Status codes of commands (R39, Table 3.6). -/
inductive Status where
  | done | accepted | state | busy | shape | capacity | bound | owner | admission | pending | epoch | poison | unknown | fault
deriving DecidableEq, Repr

/-- The outstanding command of a page (R38): what was latched at its acceptance, and the final status once it is decided but
not yet published. -/
structure Outst where
  code : Nat
  tag : Word
  caller : Caller
  args : List Word
  stamp : Nat
  final : Option Status
deriving DecidableEq, Repr

/-- The common registers of one block page (R29, R30, R36, R38). -/
structure Page where
  state : BlockState := .off
  bindLock : Bool := false
  evt : Word := 0
  evten : Word := 0
  route : Word := 0
  owner : Word := 0
  log0 : Word := 0
  log1 : Word := 0
  log2 : Word := 0
  log3 : Word := 0
  args : List Word := List.replicate 12 0
  tag : Word := 0
  cmdSts : Word := 0
  outst : Option Outst := none
  /-- CMD_TAG and the final status of the last completion, which the delivery of CMD_DONE carries (R38). -/
  doneTag : Word := 0
  doneFin : Nat := 0
deriving DecidableEq, Repr

/-- One event delivered to a context's event queue (R35, R38): the page and bit, the tag and final status a completion carries,
and the stamp. -/
structure Note where
  page : Nat
  bit : Nat
  tag : Word
  final : Nat
  stamp : Nat
deriving DecidableEq, Repr

/-- What the package has sent to the outside. -/
inductive OutMsg where
  /-- An MSI-X message of a function (0: the PF) (R35). -/
  | msix (fn vec : Nat)
  /-- A Device Readiness Status message (R397). -/
  | drs
  /-- An ERR_FATAL message (R399). -/
  | errFatal
  /-- A FATAL control message on a GYL port, hub × 2 + instance (R375). -/
  | fatalCtl (port : Nat)
  /-- A time step message carrying a difference (R25). -/
  | tbStep (port : Nat) (diff : Nat)
  /-- A time reply or request (R24). -/
  | tbTime (port : Nat) (t : Nat)
  /-- A GYL flit leaving on a port, hub × 2 + instance (R341, R345). -/
  | gyl (port : Nat) (f : Flit)
  /-- A flit-level acknowledgement on a port (R341). -/
  | ack (port : Nat) (nak : Bool) (seq : Nat)
  /-- A completion of a host access: 0 successful, 1 poisoned, 2 Unsupported Request, 3 Request Retry Status. -/
  | cpl (status : Nat) (data : List Byte)
  /-- A read of host memory with its tag, with the requester ID of a function (0: the PF) (R153, R154, R277). -/
  | hostRead (fn tag addr len : Nat)
  /-- A write of host memory with the requester ID of a function (R277). -/
  | hostWrite (fn addr : Nat) (data : List Byte)
  /-- A credit message (R135, R136, R138): kind 0 request, 1 grant, 2 revoke, 3 confirmation with a returned balance, 4 refusal with a
  status. -/
  | credit (kind : Nat) (acc : Account) (n : Nat)
  /-- A credited line on its way to a window: byte offset and data (R135). -/
  | line (acc : Account) (off : Nat) (data : List Byte)
  /-- A collective message to the SEQ page that `dst` names as a peer entry does (R355, R358). -/
  | coll (dst : Nat) (m : CollMsg)
  /-- A migration message: 0 hold, 1 release, 2 failure; destination package, request index, partition (R293). -/
  | migrate (kind dst rq part : Nat)
  /-- The source's answer to a hold: its entry with its USERTAG, and the table header with each plane's TSHIFT (R293). -/
  | migrateReply (dst : Nat) (ok : Bool) (entry header : List Byte)
  /-- A PLDM response or an in-band interrupt of the sideband (R403). -/
  | sideband (kind : Nat) (vals : List Nat)
  /-- An AVSBus voltage request: domain and millivolts (R404). -/
  | avs (domain mv : Nat)
deriving DecidableEq, Repr

/-! ### Timebase (chapter 2) -/

/-- The root and the follower of the board's time (R23–R25). -/
structure TimeSt where
  /-- TBCLK edges are present (R23). -/
  edges : Bool := false
  /-- A qualification of returned edges runs (R23). -/
  qualifying : Bool := false
  /-- REFCLK is present; without it and without TBCLK the always-on oscillator counts (R424). -/
  refclk : Bool := true
  /-- The root counts at all: from PORSTn release on (R410). -/
  counting : Bool := false
  /-- The step before first lock has been taken or given up (R24). -/
  stepped : Bool := false
  /-- The follower has locked once (R24). -/
  everLocked : Bool := false
  /-- Consecutive exchanges within 10 ns (R24). -/
  good : Nat := 0
  /-- The correction in force: 0 none, 1 slewing forward, 2 slewing backward at up to 100 ppm (R24). -/
  slew : Nat := 0
  /-- Nanoseconds of it that are left, and how many nanoseconds have passed since the last corrected one (R24). -/
  slewLeft : Nat := 0
  slewAge : Nat := 0
  /-- The stamp of the last exchange with the neighbours (R23, TMB_MSG_PERIOD). -/
  lastMsg : Nat := 0
deriving DecidableEq, Repr

/-! ### Contexts, binding and Speedwell (chapter 18) -/

/-- The context states of Table 18.7. -/
inductive CtxState where
  | none | created | ready | restoring | running | saving | saved | ending
deriving DecidableEq, Repr

/-- The commit of a context that waits or is being published (R366, R367). -/
structure Commit where
  page : Nat
  batch : Nat
  outBase : Nat
  /-- The records of the mirror have been sent (R377). -/
  recordsSent : Bool
  /-- The stamp, once taken. -/
  stamp : Option Nat
deriving DecidableEq, Repr

/-- A context (R323–R325): its descriptor, its state, and what the device keeps for it. -/
structure Ctx where
  state : CtxState := .none
  part : Nat := 0
  cls : Nat := 0
  discard : Bool := false
  tenant : Nat := 0
  saveA : Nat := 0
  saveSz : Nat := 0
  spillSz : Nat := 0
  spillA : Nat := 0
  groups : Nat := 0
  seqs : Nat := 0
  hwks : Nat := 0
  skps : Nat := 0
  tsls : Nat := 0
  /-- The fabric epoch (R7, R77). -/
  epoch : BitVec 8 := 0
  /-- The stochastic-rounding key in force (R119). -/
  srKey : DWord := 0
  /-- Committed steps and the last commit stamp (R367). -/
  step : DWord := 0
  cmtStamp : DWord := 0
  /-- CTX_DEADLINE, 0 for none, and the earliest non-zero deadline of the last batch, 0 for none (R329). -/
  deadline : DWord := 0
  batchDeadline : DWord := 0
  /-- The context's event queue, oldest first (R35). -/
  events : List Note := []
  /-- Its restore has completed and it waits for a granted window (R325). -/
  restored : Bool := false
  /-- Its state is held in its save area (R330). -/
  hasSave : Bool := false
  /-- The commit that waits or is published (R366). -/
  commit : Option Commit := none
  /-- The fault or other cause that is tearing it down: code, type, instance, die, cause (Table 21.6), stamp. -/
  fault : Option (Nat × Nat × Nat × Nat × Nat × Nat) := none
  /-- The SPW page whose CTX_END waits for the teardown, + 1 (R324). -/
  endPage : Nat := 0
  /-- Expiry of its class-2 turn in running time, ns (R329). -/
  turnLeft : Nat := 0
  /-- When it was last set running, and when it last stopped, + 1. -/
  runSince : DWord := 0
  stopAt : Nat := 0
  /-- Deadlock stalls of the present step (R86). -/
  stalls : Nat := 0
deriving DecidableEq, Repr

/-- One Speedwell window (R326): its length in microseconds and GRANT, bit 3p + c. -/
structure Win where
  len : Nat
  grant : Nat
deriving DecidableEq, Repr

/-- The Speedwell scheduler and its replica, which holds the same (R326–R333). -/
structure Speedwell where
  bank : List Win := []
  shadowBank : List Win := []
  shadowFull : Bool := false
  running : Bool := false
  /-- The frame of SPW_START has reached T0. -/
  started : Bool := false
  stopReq : Bool := false
  t0 : Nat := 0
  frameStart : Nat := 0
  win : Nat := 0
  weights : SMap Nat := []
  /-- Per partition, the tenant whose class-2 turn it is or that comes next; per partition × 4096 + tenant, the context that comes first among
  the tenant's (R329). -/
  turnAt : SMap Nat := []
  turnCtx : SMap Nat := []
  /-- Five microseconds without the primary have passed and the replica waits for a window boundary (R333). -/
  primaryLost : Bool := false
  /-- The lead point of the next window has passed (R331). -/
  lead : Bool := false
  /-- The replica on HD2 schedules. -/
  standbyActs : Bool := false
  /-- The page of an outstanding SPW_STOP + 1. -/
  stopPage : Nat := 0
deriving DecidableEq, Repr

/-- An outstanding binding commit (R318, R319): its list, whether FORCE is set, and the stamp of its acceptance. -/
structure BndCommit where
  page : Nat
  entries : List (Nat × Bool × Nat × Nat × Nat × Nat)
  force : Bool
deriving DecidableEq, Repr

/-- The binding table (R316): partition + 1 per resource, keyed kind × 4096 + index, 0 for unbound; roles per partition. -/
structure Binding where
  owner : SMap Nat := []
  role : SMap Nat := []
  /-- Granules ZEROING: 0 for tier 1, keyed granule; tier 2 keyed 4096 + granule (R320). -/
  zeroing : SMap Bool := []
  commit : Option BndCommit := none
  /-- Dies whose spare commit is due (R374). -/
  spareDue : List Nat := []
deriving DecidableEq, Repr

/-! ### Faults, Campion, snapshots (chapters 21, 22) -/

/-- An activity of Campion (R379): its code of Table 21.5, its scope, the stamp of its request, and the page whose command it
holds + 1. -/
structure Activity where
  act : Nat
  scope : Nat
  stamp : Nat
  page : Nat
deriving DecidableEq, Repr

/-- What faults and the arbiter hold beside the registers. -/
structure FaultSt where
  /-- Fenced compute dies (R373). -/
  fencedDies : SMap Bool := []
  /-- The fatal stamp, once the package is PKG_FATAL (R375). -/
  fatalStamp : Option Nat := none
  running : List Activity := []
  pendingActs : List Activity := []
  /-- A RELEASE accepted during a dump waits for its end (R389). -/
  releaseWaits : Bool := false
deriving DecidableEq, Repr

/-! ### Host interface, management, power (chapters 23–25) -/

/-- The endpoint, the sideband and the test port. -/
structure HostIf where
  /-- PERST# is asserted. -/
  perst : Bool := true
  /-- 100 ms after the release of PERST# the endpoint answers configuration requests (R397). -/
  perstAt : Nat := 0
  link : Bool := false
  msixEn : SMap Bool := []
  fnMask : SMap Bool := []
  /-- Vectors the host has unmasked, keyed function × 2048 + vector (R35). -/
  unmasked : SMap Bool := []
  /-- Messages held pending. -/
  pendVec : SMap Bool := []
  fatalReporting : Bool := false
  out : List OutMsg := []
  /-- BAR4 accesses that wait for the end of a zeroing: local address, whether they write, data (R395). -/
  bar4Wait : List (Nat × Bool × List Byte) := []
  /-- The dynamic I3C address, 0 for none (R403). -/
  i3cAddr : Nat := 0
  /-- The sensor values of the last refresh, keyed by sensor number (R403). -/
  sensors : SMap Nat := []
  /-- The TAP's instruction: 0 BYPASS, 1 IDCODE, 2 SAMPLE, 3 EXTEST, 4 EXTEST_PULSE, 5 EXTEST_TRAIN, 6 PRELOAD (R405). -/
  tapIr : Nat := 1
  /-- The data register the TAP has captured. -/
  tapDr : Word := 0
deriving DecidableEq, Repr

/-- The management cores (R400–R402). -/
structure KmcSt where
  /-- What the staging under way has found in its image: whether it verifies, its anti-rollback number and its version. -/
  found : Bool × Nat × Nat := (false, 0, 0)
  /-- Sideband updates that wait for admission: verifies, number, version. -/
  offers : List (Bool × Nat × Nat) := []
deriving DecidableEq, Repr

/-- What survives a power-on reset: fuses and QSPI contents (R417). -/
structure NonVolatile where
  /-- The fused anti-rollback number. -/
  fused : Nat := 0
  /-- The fuse preference: the slot tried first. -/
  prefB : Bool := false
  /-- Slots A and B: (signature verifies, anti-rollback number, version). -/
  slotA : Bool × Nat × Nat := (false, 0, 0)
  slotB : Bool × Nat × Nat := (false, 0, 0)
  /-- A staged image that no boot has tried yet: 1 in slot A, 2 in slot B, 0 none. -/
  staged : Nat := 0
deriving DecidableEq, Repr

/-- Power control (R404, R413–R416). -/
structure PowerSt where
  /-- Request of the cap controller per die, mV (750 at start-up). -/
  capReq : SMap Nat := []
  /-- Power of each domain at its last readback, µW. -/
  power : SMap Nat := []
  /-- Rails whose request is frozen after an AVS failure (R404). -/
  frozenRail : SMap Bool := []
  /-- The voltage the floor of a die stands on, mV: the request, but for a rise that has not settled (R21); 750 where unlisted. -/
  settled : SMap Nat := []
  /-- The die has completed an RTM interval since it reached IDLE (R22). -/
  rtmDone : SMap Bool := []
  /-- The last period was spent at the floor above LIMIT (R414). -/
  capFloorRun : Bool := false
  /-- WRSTn is asserted. -/
  wrst : Bool := false
  /-- PORSTn is asserted. -/
  porst : Bool := true
  /-- Start-up steps that have been reached: bit n for step n of Table 24.2. -/
  startup : Nat := 0
  /-- Die resets and switch-ons under way: die ↦ 1 + page of the command, 1 at start-up (R413, R419). -/
  bringUp : SMap Nat := []
  /-- The last warm reset kept tier 2 (R418). -/
  kept : Bool := false
  /-- Levels that have passed the input filters, by pin: 0 PORSTn, 1 WRSTn, 2 PERST#, 3 SNAPIN, 4 sideband (R427). -/
  pinLevel : SMap Bool := []
  /-- SNAPOUT is high (R388). -/
  snapout : Bool := false
  /-- FATAL_N is driven low (R375). -/
  fatalN : Bool := false
deriving DecidableEq, Repr

/-! ### The spatial fabric (chapters 4–7) -/

/-- A transfer of a fabric network: its epoch, its unit as a number (a flit of 1024 bits, a word, or a token's tag), and the GO entry that
injected it + 1, 0 for none (R52, R95). -/
structure Xfer where
  epoch : Nat
  data : Nat
  go : Nat := 0
deriving DecidableEq, Repr

/-- Slot states (Table 5.4). -/
inductive SlotState where
  | empty | staged | live | draining | drained | halted
deriving DecidableEq, Repr

/-- A counter of a slot (R61). -/
structure Ctr where
  value : Nat := 0
  bound : Nat := 0
  /-- 24 bits, two's complement. -/
  stride : Nat := 0
  /-- CELL_CCFG: CHAIN, ADDR_EN, ACC_EN, MAXB. -/
  cfg : Nat := 8
deriving DecidableEq, Repr

/-- An edge entry (R98, R99). -/
structure EdgeE where
  valid : Nat
  tctr : Nat
  ten : Bool
  kind : Nat
  lg : Nat
deriving DecidableEq, Repr

/-- A CELL_EDGE register: the current entry and the pending ones. -/
structure Edge where
  cur : Option EdgeE := none
  pend : List EdgeE := []
deriving DecidableEq, Repr

/-- What a slot holds of an operand stream (R432): untaken bytes of popped flits, and, inside a CNF4 record, its scale bytes and the
number of waves taken. -/
structure Stream where
  residue : List Byte := []
  scales : List Byte := []
  wave : Nat := 0
deriving DecidableEq, Repr

/-- One slot of a cell (R58–R61, R73). -/
structure Slot where
  st : SlotState := .empty
  hold : Bool := false
  /-- EPOCH of the image it was loaded from (R77). -/
  imgEpoch : Nat := 0
  fmt : Nat := 0
  drainIn : Nat := 0
  drainOut : Nat := 0
  /-- Inputs on which DRAIN has been taken (R74). -/
  drainSeen : Nat := 0
  /-- Logical die of its image (R118). -/
  ldie : Nat := 0
  pc : Nat := 0
  latch : Bool := false
  /-- ACC_DRAIN firings since it entered LIVE (R118). -/
  dcount : Nat := 0
  mstore : SMap Nat := []
  ctrs : List Ctr := List.replicate 8 {}
  edges : SMap Edge := []
  /-- Queue banks, keyed network × 4 + input (R53); the head first. -/
  banks : SMap (List Xfer) := []
  /-- Entries of a bank that are in the spill area (R84); the oldest first. -/
  spill : SMap (List Xfer) := []
  /-- Output staging, keyed network × 2 + output (R52). -/
  outs : SMap (List Xfer) := []
  streams : SMap Stream := []
  /-- Bytes of a converting drain not yet sent (R116). -/
  drainRes : List Byte := []
deriving DecidableEq, Repr

/-- A site: what cell and switch hold beside the slots (R55, R56, R63, R64). -/
structure Site where
  /-- The epoch the cell and the switch have taken (R78). -/
  epoch : Nat := 0
  foldPos : Nat := 0
  foldCount : Nat := 0
  /-- The current instruction has been counted as waiting (R65). -/
  waitedIn : Bool := false
  waitedOut : Bool := false
  /-- Route words, keyed slot × 4 + word (R57). -/
  routes : SMap Nat := []
  /-- Staging of the switch's outputs, keyed (slot × 3 + network) × 16 + output: 0–3 N, E, S, W; 4–7 cell inputs; 8–9 steering inputs. -/
  stage : SMap (List Xfer) := []
  /-- Outputs that have accepted the transfer waiting at an input, keyed (slot × 3 + network) × 16 + source (R55). -/
  given : SMap Nat := []
  /-- Holdings of the steering units, keyed (slot × 2 + network) × 3 + (0 A, 1 B, 2 C) (R56). -/
  steer : SMap (List Xfer) := []
  /-- Their outputs, keyed (slot × 2 + network) × 2 + output. -/
  steerOut : SMap (List Xfer) := []
deriving DecidableEq, Repr

/-- The fabric: sites keyed die × 256 + site, slots keyed (die × 256 + site) × 8 + slot. -/
structure Fabric where
  sites : SMap Site := []
  slots : SMap Slot := []
  /-- Stamp of the last handshake of a context on a die, keyed die × 256 + context (R83). -/
  lastHs : SMap Nat := []
  /-- Stalls of a context on a die in the present step, keyed the same way (R85). -/
  stalls : SMap Nat := []
  /-- Banks being spilled on a die: slot key × 16 + bank (R84). -/
  spilling : SMap (List Nat) := []
deriving DecidableEq, Repr

/-- A GO entry of the nest unit (R95): die, site, control input, slot; the next sequence number; the GO of the last issue has neither been
popped nor discarded; the epoch that GO carries. -/
structure GoEntry where
  die : Nat
  site : Nat
  inp : Nat
  slot : Nat
  seq : Nat
  inFlight : Bool
  epoch : Nat := 0
deriving DecidableEq, Repr

/-- A loop-nest issue that waits (R95): its GO entry, bound list and edge entries as computed at acceptance. -/
structure NestIssue where
  page : Nat
  die : Nat
  site : Nat
  inp : Nat
  slot : Nat
  blist : Nat
  bpr : Nat
  words : List Nat
  /-- (slot key, counter, entry) -/
  edges : List (Nat × Nat × EdgeE)
  zerok : Bool
  zeroout : Bool
  clamped : Bool
  clamp : Nat
deriving DecidableEq, Repr

/-- What the configuration commands and the nest unit keep per context (R76, R79, R95). -/
structure CfgCtx where
  /-- Physical die of each logical die; 16 for unmapped (R76). -/
  dieMap : List Nat := []
  /-- Drain entries: (die, slot, site, control input) (R76). -/
  drains : List (Nat × Nat × Nat × Nat) := []
  /-- Page of the outstanding configuration command + 1. -/
  cfgPage : Nat := 0
  /-- Page that issued the last DRAIN + 1. -/
  drainPage : Nat := 0
  /-- Of an accepted load that is being written: its records (slot key, logical die, bytes), its die map, drain entries and slots. -/
  recs : List (Nat × Nat × List Byte) := []
  newMap : List Nat := []
  newDrains : List (Nat × Nat × Nat × Nat) := []
  loadMask : Nat := 0
  /-- DRAIN tokens that wait for room: (die, slot, site, control input). -/
  inject : List (Nat × Nat × Nat × Nat) := []
  /-- Slots EV_DRAINED waits for (R79), and whether it waits. -/
  waitSlots : List Nat := []
  waiting : Bool := false
  drained : Bool := false
  /-- A slot it waits for was loaded again before it had drained: the event is never raised for that drain (R79, R81). -/
  cutOff : Bool := false
  /-- An outstanding EPOCH_BUMP: new epoch + 1, 0 for none; FORCE. -/
  bumpTo : Nat := 0
  bumpForce : Bool := false
  /-- The stochastic-rounding key to be taken at the next bump (R119). -/
  srNext : DWord := 0
  /-- The key that the outstanding bump takes, latched at its acceptance (R119). -/
  srBump : DWord := 0
  gos : List GoEntry := []
  nests : List NestIssue := []
deriving DecidableEq, Repr

/-! ### Remote windows (chapter 8) -/

/-- An account as its window keeps it (R135, R138): units asked for and not yet granted. Accounts whose requests wait stand in the order of those
requests. -/
structure WinAcct where
  acc : Account
  waiting : Nat
deriving DecidableEq, Repr

/-- A window beside its registers. -/
structure WinSt where
  accts : List WinAcct := []
  /-- Bytes returned by MC_WINRET (R137). -/
  returned : Nat := 0
  /-- Accounts that had not confirmed when a close timed out (R138). -/
  late : List Account := []
deriving DecidableEq, Repr

/-- An account as its sending die keeps it (R135): byte balance, window size once the first grant has told it, what is left of the writes that wait for
credit as (offset, data), the stamp of its last use. -/
structure SendAcct where
  acc : Account
  balance : Nat
  size : Nat
  queue : List (Nat × List Byte)
  last : Nat
deriving DecidableEq, Repr

/-- Remote windows keyed (die × 128 + mc) × 16 + window, and the accounts of each die's remote-write unit. -/
structure Remote where
  wins : SMap WinSt := []
  sends : SMap (List SendAcct) := []
  /-- Writes of a die for which no account can be released, as (context, address, data), the oldest first (R136). -/
  waits : SMap (List (Nat × Nat × List Byte)) := []
  /-- The status of the last remote write of a context on a die, keyed die × 256 + context, as its issuer is told it (R136). -/
  told : SMap Nat := []
deriving DecidableEq, Repr
/-! ### Memory tiers and prefetch (chapter 9) -/

/-- A prefetch descriptor (Table 9.5). `dst` is the tier-1 address, or for DKIND 1 the memory cell; lengths in bytes. -/
structure PfDesc where
  src : Nat
  scratch : Bool
  dst : Nat
  pair : Nat
  line : Nat
  len : Nat
  start : Nat
  need : Nat
  prev : Bool
  tag : Nat
deriving DecidableEq, Repr

/-- How far one execution of a descriptor has come: 0 not started, 1 in flight, 2 complete, 3 failed in tier 2, 4 failed in tier 3; the bytes a tier-3
source has delivered; and whether a line of its source is being decoded a second time (R157). -/
structure PfSt where
  st : Nat := 0
  got : Nat := 0
  retry : Bool := false
deriving DecidableEq, Repr

/-- The prefetch ring of a SEQ page (R159–R163). -/
structure PfRing where
  descs : List PfDesc := []
  inflight : Nat := 1
  /-- Executions that belong to the current step, and those of PREV descriptors that belong to the next one. -/
  cur : List PfSt := []
  next : List PfSt := []
  /-- The ring has not yet seen a whole step (R161). -/
  first : Bool := true
  /-- Executions, as (descriptor, of the next step), that run again after a restore before the suspended ones go on (R164). -/
  redo : List (Nat × Bool) := []
  /-- A ring that waits for the next step start. -/
  pendDescs : List PfDesc := []
  pendInflight : Nat := 1
  pend : Bool := false
deriving DecidableEq, Repr

/-- A stall that runs (R165): what waits (0 PF_ADVANCE, 1 step commit, 2 remote-window credit, 3 a GYL access, 16 + p a read of the unit of page p), when it began, since when its
present cause governs, that cause, the descriptor, and whether NOTE has been reached. -/
structure Stall where
  kind : Nat
  start : Nat
  since : Nat
  cause : Nat
  idx : Nat
  noted : Bool
deriving DecidableEq, Repr

/-- A tier-3 read in flight (R154): the SEQ page and the execution of a descriptor it serves, which step's it is, and the offset in the descriptor's data;
or, with `unit`, the page of another unit, and in `addr` the line it asked for. -/
structure HostRd where
  page : Nat
  idx : Nat
  isNext : Bool
  addr : Nat
  unit : Bool := false
deriving DecidableEq, Repr

/-- What the tiers and the prefetch engines hold. -/
structure Tiers where
  rings : SMap PfRing := []
  stalls : SMap (List Stall) := []
  /-- Tier-3 reads in flight, by tag; and the next tag. -/
  reads : SMap (Option HostRd) := []
  nextTag : Nat := 0
  /-- Tier-3 lines that a unit, by its page, has asked for: (line, 0 under way, 1 delivered, 2 failed) (R154). -/
  lines : SMap (List (Nat × Nat)) := []
  /-- Phase of a context's step and of its previous step (R159, R162). -/
  phase : SMap Nat := []
  prevPhase : SMap Nat := []
deriving DecidableEq, Repr

/-! ### Attention cache paging (chapter 10) -/

/-- A page: region tag, address, size code. -/
structure PageRef where
  tag : Nat
  addr : Nat
  k : Nat
deriving DecidableEq, Repr

/-- A page region beside its registers (R169, R175, R176): free blocks as (address, class), by rising address; freed pages being zeroed. -/
structure Region where
  free : List (Nat × Nat) := []
  zeroing : List (Nat × Nat) := []
deriving DecidableEq, Repr

/-- A pool operation (Table 10.3). -/
inductive PoolOp where
  | share (src r0 r1 : Nat)
  | grow (n : Nat)
  | replace (row : Nat) (pages : List Nat)
  | setpaged (n : Nat)
  | dropall
deriving DecidableEq, Repr

/-- What the PPL keeps of a registered page table (R177–R188). -/
structure Tab where
  reg : Bool := false
  addr : Nat := 0
  part : Nat := 0
  ctx : Nat := 0
  /-- The published generation. -/
  gen : Nat := 0
  /-- The edit log of the generation being built: rows, and header fields as 8192 + n. -/
  log : List Nat := []
  /-- Edits that admission has made outside any step (R180). -/
  admLog : List Nat := []
  /-- What the edits of the present step overwrote, the newest first: (address, bytes). -/
  undo : List (Nat × List Byte) := []
  /-- Pages the step has allocated, counts it has added, pages it has released, split pages it has taken. -/
  alloc : List PageRef := []
  added : List PageRef := []
  rel : List PageRef := []
  tookSplit : List PageRef := []
  dropping : Bool := false
  /-- The generation before the published one has not retired: its edit log and its releases wait. -/
  oldOpen : Bool := false
  oldLog : List Nat := []
  oldRel : List PageRef := []
  oldDrop : Bool := false
  /-- Generations that walkers read (R183). -/
  walkers : List Nat := []
  /-- The split reserve (R180). -/
  split : List PageRef := []
  /-- The stamp of a page wait + 1 and the tag of its region (R188). -/
  wait : Nat := 0
  waitTag : Nat := 0
  /-- An edit that waits for the retirement has been counted. -/
  retireCounted : Bool := false
  /-- Pool operations that wait for it, the oldest first: the issuer's context, the generation it names, the operation (R181). -/
  ops : List (Nat × Nat × PoolOp) := []
deriving DecidableEq, Repr

/-- The page pools: regions by tag, page counts and classes by address / 4096, tables by request index; and by context the status of the last pool
operation one of its units issued, as that unit is told it (R177). -/
structure Pool where
  regions : SMap Region := []
  refs : SMap (Nat × Nat) := []
  tabs : SMap Tab := []
  told : SMap Nat := []
deriving DecidableEq, Repr

/-! ### Hawkmoth (chapter 11) -/

/-- A task: the page its list was issued on, the job, the row group and the chunk (R201). -/
structure HwkTask where
  page : Nat
  job : Nat
  rg : Nat
  ch : Nat
deriving DecidableEq, Repr

/-- The running state of a row, FP32 bits: m, l and o (R204). -/
structure HwkRow where
  m : Nat := 0xFF800000
  l : Nat := 0
  o : List Nat := []
deriving DecidableEq, Repr

/-- A task in progress: its next block (of a backward task, blocks of all row groups in one count), and its rows. -/
structure HwkRun where
  task : HwkTask
  next : Nat
  rows : List HwkRow
deriving DecidableEq, Repr

/-- An engine (R192, R202): its deque with the near end first, the tasks of its job that found no room yet (page, job, next task), the task
in progress, and the page cache, the latest entry first: (request, plane, generation, row). -/
structure HwkEng where
  deque : List HwkTask := []
  feed : List (Nat × Nat × Nat) := []
  cur : Option HwkRun := none
  cache : List (List Nat) := []
deriving DecidableEq, Repr

/-- A job under way: its offset in the partial area and the bytes it takes, the tasks completed, the chunks completed per row group, bits
EMPTY and NANROW. -/
structure HwkJobSt where
  off : Nat := 0
  need : Nat := 0
  tasks : Nat := 0
  chunks : SMap Nat := []
  flags : Nat := 0
  taken : Bool := false
deriving DecidableEq, Repr

/-- Where a completion injects GO: die, site, control input, slot. -/
structure GoSite where
  die : Nat
  site : Nat
  inp : Nat
  slot : Nat
deriving DecidableEq, Repr

/-- A job list (R194): the generation each PAGED job has registered, by job; the next job to be taken; jobs under way; jobs complete. -/
structure HwkList where
  ctx : Nat
  addr : Nat
  njob : Nat
  mask : Nat
  part : Nat
  size : Nat
  res : Nat
  go : Option GoSite
  stamp : Nat
  gens : SMap (Option Nat)
  next : Nat
  jobs : SMap HwkJobSt
  ended : Nat
  /-- Issued by the Hawkmoth mover of a Ringlet member, not by HWK_RUN (R222). -/
  mover : Bool
deriving DecidableEq, Repr

/-- Engines keyed die × 8 + engine, lists keyed by page. -/
structure Hawkmoth where
  engs : SMap HwkEng := []
  lists : SMap (Option HwkList) := []
deriving DecidableEq, Repr

/-! ### Ringlet (chapter 12) -/

/-- A ring run (R221–R227): the schedule and the partial area; blocks received and sent; the next list record to be issued as (block,
record); lists outstanding as (HWK page, block, record) and records complete whose merges wait for earlier ones; the record whose merges come
next; receive slots whose block is computed and not yet freed, by block; free slots of the successor; the stamp of the last arrival; since
when nothing is left to compute; whether the state of DECODE has come and has been sent. -/
structure RltRun where
  sched : Nat
  ncb : Nat
  decode : Bool
  part : Nat
  psize : Nat
  recv : Nat := 0
  sent : Nat := 0
  issue : Nat × Nat := (0, 0)
  lists : List (Nat × Nat × Nat) := []
  done : List (Nat × Nat) := []
  merge : Nat × Nat := (0, 0)
  slots : List Nat := []
  free : List Nat := []
  last : Nat
  waitFrom : Option Nat := none
  stateIn : Bool := false
  stateOut : Bool := false
deriving DecidableEq, Repr

/-- A group as its anchor keeps it (R219): what RLT_FORM named, the neighbours that have agreed, the committed length last noticed (R228), and
the run. The manual does not say how a member learns where its successor's slots lie: `succArea` is a free value (log entry 73). -/
structure RltGroup where
  p : Nat := 0
  rank : Nat := 0
  swlog : Nat := 0
  nslot : Nat := 0
  pred : Nat := 0
  succ : Nat := 0
  gid : Nat := 0
  area : Nat := 0
  slotK : Nat := 0
  predOk : Bool := false
  succOk : Bool := false
  clen : Nat := 0
  run : Option RltRun := none
  succArea : Nat := 0
  /-- Blocks that have landed while no run is under way, and the state that has (R222, R227, Table 12.4). -/
  early : Nat := 0
  earlyState : Option (List Byte) := none
  /-- A run whose group barrier has not ended with AND = 1 (R228). -/
  owed : Bool := false
deriving DecidableEq, Repr

structure Ringlet where
  /-- Groups keyed by the anchor's page. -/
  groups : SMap RltGroup := []
  /-- Per context, the merge tasks that wait, in the order of R225, and whether the first of them has been pushed. -/
  merges : SMap (List Nat) := []
  merging : SMap Bool := []
deriving DecidableEq, Repr
/-! ### Skippers (chapter 13) -/

/-- A task on its way (R234, R239): its 64-byte descriptor as a number, the context that pushed it, the page of the deque it was pushed to,
and its number among the tasks pushed to that deque. -/
structure SkpTask where
  x : Nat
  ctx : Nat
  home : Nat
  seq : Nat
  /-- Where its DONEENT injects GO, resolved when it was pushed (R76). -/
  go : Option GoSite := none
deriving DecidableEq, Repr

/-- The task a Skipper has taken: whether it has been carried out and only its completion is left, and the walk it has registered as
(request, generation). -/
structure SkpRun where
  task : SkpTask
  ran : Bool
  walk : Option (Nat × Nat)
deriving DecidableEq, Repr

/-- A Skipper: its deque, the near end first; the task in hand; the number of the next task pushed; idle since that stamp + 1 (R246). -/
structure Skp where
  deque : List SkpTask := []
  run : Option SkpRun := none
  next : Nat := 0
  idleFrom : Nat := 0
deriving DecidableEq, Repr

/-! ### Teasel (chapter 14) -/

/-- The list of a Teasel engine (R252): where it stands (job, bag, the lookup that comes next once the bag is open) and the running
accumulator, FP32 bits, with the lookups pooled. -/
structure TslList where
  ctx : Nat
  addr : Nat
  njob : Nat
  save : Nat
  go : Option GoSite
  job : Nat
  bag : Nat
  at_ : Option Nat
  acc : List Nat
  n : Nat
deriving DecidableEq, Repr

/-! ### Experts (chapter 15) -/

/-- A route that an EXR has accepted (R260): the SEQ page that issued it, its context, its descriptor, its GO. -/
structure ExrRoute where
  page : Nat
  ctx : Nat
  desc : Nat
  go : Option GoSite
  noGo : Bool := false
deriving DecidableEq, Repr

/-- A route of the present step that completed with LOOP = 1 (R269): the hub that served it, its table, and r_e per expert. -/
structure ExrLoop where
  hub : Nat
  table : Nat
  routed : List Nat
deriving DecidableEq, Repr

/-- Routes waiting per hub in issue order; loop records per context. -/
structure Experts where
  routes : SMap (List ExrRoute) := []
  loops : SMap (List ExrLoop) := []
deriving DecidableEq, Repr

/-! ### Serving (chapter 16) -/

/-- A request-table entry (Table 16.1) and what the RQT keeps beside it. -/
structure Req where
  state : Nat := 0
  pclass : Nat := 0
  part : Nat := 0
  tenant : Nat := 0
  ctx : Nat := 0
  clen : Nat := 0
  limit : Nat := 0
  prompt : Nat := 0
  ptaddr : Nat := 0
  deadline : Nat := 0
  model : Nat := 0
  draft : Nat := 0
  spec : Nat := 0
  accmode : Nat := 0
  adapter : Nat := 0
  aden : Bool := false
  ring : Nat := 0
  nnode : Nat := 0
  pending : Nat := 0
  pvalid : Bool := false
  stopid : Nat := 0
  stopen : Bool := false
  seed : Nat := 0
  rinv : Nat := 0
  topk : Nat := 0
  topp : Nat := 0
  prior : Nat := 0
  usertag : Nat := 0
  /-- Stamp of its last inclusion in a batch (R286). -/
  lastIncl : Nat := 0
  /-- A CANCEL or a PAUSE waits for the commit of a step that includes it. -/
  cancelling : Bool := false
  pausing : Bool := false
  /-- Its DL_MISS has been reported (Table 16.6). -/
  missed : Bool := false
  /-- A RELEASE or a finished migration waits for the retirement. -/
  releasing : Bool := false
  /-- The package that takes it + 1, while a hold waits for a commit and in MIGRATING; and the state before (R293). -/
  toPkg : Nat := 0
  before : Nat := 0
  /-- A mirrored entry that is held (R378). -/
  held : Bool := false
deriving DecidableEq, Repr

/-- A token ring (R278, R279): whether it is set, its offset in the window, log2 of its slots, HEAD, and the device's next count. -/
structure TokRing where
  isSet : Bool := false
  off : Nat := 0
  lg : Nat := 0
  head : Nat := 0
  next : Nat := 0
deriving DecidableEq, Repr

/-- The rings of a partition's window: the device's counts, and event slots reserved for requests of formed batches (R281, R286). -/
structure WinRings where
  sub : Nat := 0
  ev : Nat := 0
  resv : Nat := 0
  /-- Events for which no slot was free: they are written as slots are given, the oldest first. -/
  owed : List (List Word) := []
deriving DecidableEq, Repr

/-- A tenant's bucket (R292). -/
structure Bucket where
  level : Int := 0
  rate : Nat := 0
  burst : Nat := 0
  pweight : Nat := 0
  limited : Bool := false
  rem : Nat := 0
  last : Nat := 0
deriving DecidableEq, Repr

/-- A formed batch (R286): the context's array, and per entry the request, KIND and NPOS. -/
structure Batch where
  formed : Bool := false
  base : Nat := 0
  ents : List (Nat × Nat × Nat) := []
  /-- Event slots reserved for them. -/
  resv : Nat := 0
  /-- Requests whose sampling failed (R289). -/
  failed : List Nat := []
deriving DecidableEq, Repr

/-- A migration that the receiving package runs (R293). -/
structure Migration where
  srcIdx : Nat
  srcPkg : Nat
  part : Nat
  ctx : Nat
  idx : Nat
  ring : Nat
  table : Nat
  tags : List Nat
  /-- The source's entry once its reply has come, and the addresses into which the copy goes. -/
  entry : Option Req
deriving DecidableEq, Repr

/-- What a commit still has to write for one request (R291): the token slots and the events as words. -/
structure PubReq where
  rq : Nat
  slots : List (List Word)
  events : List (List Word)
deriving DecidableEq, Repr

/-- The publication of a context's last commit. -/
structure Publication where
  stamp : Nat
  reqs : List PubReq
  resv : Nat
  /-- Tokens and prompt positions, for the commit trace (R391). -/
  ntok : Nat
  nprompt : Nat
  /-- The link was down at the stamp or has gone down since: what is still to be written to host windows is lost (R398). -/
  lost : Bool := false
deriving DecidableEq, Repr

/-- The request tables, rings, buckets and batches. -/
structure Serving where
  reqs : SMap Req := []
  rings : SMap TokRing := []
  wins : SMap WinRings := []
  buckets : SMap Bucket := []
  batches : SMap Batch := []
  migration : Option Migration := none
  /-- Per context, the publication that is still to be written (R291). -/
  publish : SMap (Option Publication) := []
deriving DecidableEq, Repr

/-! ### Model residency (chapter 17) -/

/-- A replacement that runs (R304–R307): its mode, the new image, the area that takes the new copy; the layer or group that comes next;
whether a switch waits for its retirement; private experts placed meanwhile in layers whose new copy is still to come (R310): layer, place in its data, source,
bytes. -/
structure Repl where
  mode : Nat
  image : Nat
  area : Nat
  next : Nat
  waiting : Bool
  adds : List (Nat × Nat × Nat × Nat) := []
deriving DecidableEq, Repr

/-- A model entry (R300). -/
structure Model where
  state : Nat := 0
  part : Nat := 0
  nlayer : Nat := 0
  sw : Nat := 0
  image : Nat := 0
  origin : Nat := 0
  map : Nat := 0
  /-- The area that holds the copy in force. -/
  area : Nat := 0
  free : Nat := 0
  /-- Opens: (context, switch count) (R302). -/
  opens : List (Nat × Nat) := []
  repl : Option Repl := none
  /-- PHASE, GROUP, offset in the shard and length in bytes of each layer of the copy in force. -/
  layers : List (Nat × Nat × Nat × Nat) := []
deriving DecidableEq, Repr

/-- An adapter slot (R309). -/
structure Adapter where
  model : Nat
  tenant : Nat
  addr : Nat
deriving DecidableEq, Repr

/-- The residency table of HD0. -/
structure Residency where
  models : SMap Model := []
  slots : SMap (Option Adapter) := []
deriving DecidableEq, Repr

/-! ### Gymbiust Link (chapter 19) -/

/-- A GYL port beside its registers (R341, R350, R351). -/
structure GylPort where
  /-- The next SEQ to send, and the next expected. -/
  next : Nat := 0
  expect : Nat := 0
  /-- Sequenced flits not yet acknowledged, the oldest first. -/
  replay : List Flit := []
  /-- NAKs since a new flit was last accepted. -/
  naks : Nat := 0
  /-- Messages that wait for the port. -/
  wait : List Msg := []
  /-- The lane that has failed and waits for its removal, as a mask. -/
  failed : Nat := 0
  /-- Lanes that have failed since, the oldest first (Table 19.7). -/
  later : List Nat := []
  /-- A scan that runs: MODE, record address, DURATION. -/
  scan : Option (Nat × Nat × Nat) := none
deriving DecidableEq, Repr

/-- An access that waits for its response (R344, R346): its tag; the unit's page and context; kind 0 write of a unit, 1 read into a tier-1
address, 2 mirror write, 3 Ringlet block, 4 atomic operation; the destination of the data. -/
structure GylTxn where
  tag : Nat
  page : Nat
  ctx : Nat
  kind : Nat
  dst : Nat
deriving DecidableEq, Repr

/-- The ports keyed hub × 2 + instance; messages issued here that no port has taken yet; accesses outstanding; the next tag. -/
structure Gymbiust where
  ports : SMap GylPort := []
  issued : List Msg := []
  pend : List GylTxn := []
  nextTag : Nat := 0
deriving DecidableEq, Repr

/-! ### Collectives (chapter 20) -/

/-- A collective program under way (R354, R358): its ops and its peer table as they were read at the start, its data block, the next op, ops
executed, since when its op waits, and the writes a FENCE waits for. -/
structure CollProg where
  ctx : Nat
  ops : List Nat
  peers : List Nat
  data : Nat
  pc : Nat := 0
  steps : Nat := 0
  waitFrom : Option Nat := none
  fence : Option (List Nat) := none
deriving DecidableEq, Repr

/-- What the hub keeps for a SEQ page: its program, the messages buffered in the order of their arrival, its messages not yet accepted, and, by
peer, those not yet consumed. -/
structure Coll where
  prog : Option CollProg := none
  buf : List CollMsg := []
  unaccepted : Nat := 0
  held : SMap Nat := []
deriving DecidableEq, Repr
/-! ### Saved contexts (R67, R330) -/

/-- What a context whose resources another context holds has left behind: the parts of its cells, switches, windows and units, keyed as the
device keys them. The saved bytes of its cells lie in memory (Save.lean). -/
structure CtxSave where
  sites : SMap Site := []
  slots : SMap Slot := []
  regs : SMap Word := []
  pages : SMap Page := []
  wins : SMap WinSt := []
  rings : SMap PfRing := []
  stalls : SMap (List Stall) := []
  engs : SMap HwkEng := []
  lists : SMap (Option HwkList) := []
  groups : SMap RltGroup := []
  tsl : SMap (Option TslList) := []
  coll : SMap Coll := []
deriving DecidableEq, Repr

/-! ### The device and the machine -/

/-- The device: its pages and registers, and a record for each subsystem. -/
structure Dev where
  /-- The common registers, keyed by page (die × 2048 + page index). -/
  pages : SMap Page := []
  /-- The block-specific registers, keyed page × 1024 + word; unlisted ones hold their reset values. -/
  regs : SMap Word := []
  /-- The counters, keyed page × 8 + n (R37). -/
  ctrs : SMap DWord := []
  /-- The high-word latches, keyed by requester, page and word (R37). -/
  latches : SMap Word := []
  /-- The data of the last register read. -/
  bus : Word := 0
  /-- How many free values have been taken: the model's own field (log entry 2). -/
  free : Nat := 0
  time : TimeSt := {}
  ctxs : SMap Ctx := []
  spw : Speedwell := {}
  bnd : Binding := {}
  flt : FaultSt := {}
  host : HostIf := {}
  kmc : KmcSt := {}
  pwr : PowerSt := {}
  fab : Fabric := {}
  cfg : SMap CfgCtx := []
  rem : Remote := {}
  tiers : Tiers := {}
  pool : Pool := {}
  hwk : Hawkmoth := {}
  rlt : Ringlet := {}
  skp : SMap Skp := []
  tsl : SMap (Option TslList) := []
  exr : Experts := {}
  serve : Serving := {}
  mdl : Residency := {}
  gyl : Gymbiust := {}
  coll : SMap Coll := []
  saves : SMap CtxSave := []
deriving DecidableEq, Repr

/-- A frozen snapshot (R385): the device as it stood at the latch, the trigger stamp, SEQNO and source. Its shadows are the words
R386 takes from it. -/
structure Frozen where
  dev : Dev
  stamp : Nat
  seqno : Nat
  source : Nat
deriving DecidableEq, Repr

/-- Why the machine stops with a fault: never. Every act the manual describes has its effect. -/
inductive Fault where
  /-- Raised by nobody: the model has no act whose effect the manual leaves out altogether; safe. -/
  | none
deriving DecidableEq, Repr

/-- Why a command is refused. -/
inductive Refusal where
  /-- Raised by an arm of Dispatch.lean for a command whose meaning is not written yet; safe. -/
  | notModelled (mnemonic : String)
deriving DecidableEq, Repr

/-- The whole machine. -/
structure State where
  dev : Dev
  /-- The shadows of the last latch (R385, R387). -/
  shadow : Option Frozen
  mem : Memory
  nv : NonVolatile
  /-- The timebase in nanoseconds (R23). -/
  now : DWord
  /-- The commands that wait, first in, first out. -/
  pending : List Instr
deriving DecidableEq, Repr

/-- The machine with PORSTn asserted and nothing powered (R417, R410). -/
def State.reset : State :=
  { dev := {}, shadow := none, mem := [], nv := {}, now := 0, pending := [] }

end Sys2Proof.Machine
end

