-- ==== Sys2Proof/Machine/Ops.lean ====
section
/-!
DEFINITION. Ops.lean: the named operations every meaning is built from: bytes and lines of memory, pages and registers, counters,
events and error logs, commands, and the three ways a meaning enters the state.

A meaning works on a `Work`: the device, and the memory seen through a list of writes. It never writes the memory itself, so that
whatever it does the memory keeps its canonical form; and only the meanings the manual lets set the timebase or the fuses can.
-/
namespace Sys2Proof.Machine

/-! ### Entering the state -/

/-- What one command works on. `wr` holds the bytes written so far, the newest first; `at_` the page whose unit makes the accesses,
where they take links; `cut`: a transfer found no way to its target (R13). While `gate` holds, a read that cannot be served now leaves in `wait` why (a cause of
Table 9.6), in `want` the tier-3 lines to be asked for, and in `again` the lines to be decoded a second time (R154, R157). -/
structure Work where
  now : Nat
  mem : Memory
  nv : NonVolatile
  dev : Dev
  wr : List (Nat × BitVec 8)
  shadow : Option Frozen
  at_ : Option Nat := none
  cut : Bool := false
  gate : Bool := false
  wait : Option Nat := none
  want : List Nat := []
  again : List Nat := []
deriving DecidableEq

/-- The state as a command finds it. -/
def State.work (s : State) : Work :=
  { now := s.now.toNat, mem := s.mem, nv := s.nv, dev := s.dev, wr := [], shadow := s.shadow }

/-- A command that changes neither the timebase nor the contents that survive a power-on reset. -/
def State.run (s : State) (f : Work → Work) : State :=
  { s with dev := (f s.work).dev, shadow := (f s.work).shadow, mem := s.mem.writeAll (f s.work).wr.reverse }

/-- A command that may also move the timebase. -/
def State.runTime (s : State) (f : Work → Work) : State :=
  { s.run f with now := BitVec.ofNat 64 (f s.work).now }

/-- A command that may also write the fuses or the boot flash. -/
def State.runNv (s : State) (f : Work → Work) : State :=
  { s.run f with nv := (f s.work).nv }

/-! ### Memory: address spaces, bytes, lines, poison -/

/-- Host memory as the endpoint reaches it: host address `a` (chapters 9 and 16). -/
def hostA (a : Nat) : Nat := 2 ^ 64 + a
/-- Byte `b` of the scratch of MC `mc` of die `d` (R123). -/
def scratchA (d mc b : Nat) : Nat := 2 ^ 80 + (d * 128 + mc) * 2 ^ 21 + b
/-- Byte `b` of the accumulator memory of CC `cc` of die `d`. -/
def accA (d cc b : Nat) : Nat := 2 ^ 81 + (d * 128 + cc) * 2 ^ 21 + b
/-- Byte `b` of the operand buffer of CC `cc` of die `d`. -/
def opbA (d cc b : Nat) : Nat := 2 ^ 82 + (d * 128 + cc) * 2 ^ 21 + b
/-- Byte `b` of the vector registers of CC `cc` of die `d`. -/
def vregA (d cc b : Nat) : Nat := 2 ^ 83 + (d * 128 + cc) * 2 ^ 21 + b
/-- Where the state of the check symbols of the 64-byte line (or, in scratch, the 32-byte word) with the byte at `a` is kept (R142, R143, R155, R156):
0 they agree, 1 the poison tag, 2 an error they cannot correct and no access has found yet, 3 one they can correct, 4 one they correct in a second decoding
pass. -/
def poisonA (a : Nat) : Nat := if a < 2 ^ 64 then 2 ^ 100 + a / 64 else 2 ^ 101 + a / 32

/-- The byte at an address, writes of this command included. -/
def Work.rd (w : Work) (a : Nat) : Byte :=
  match w.wr.lookup a with
  | some b => b
  | none => w.mem.byte a

/-- `n` bytes from `a`. -/
def Work.rdN (w : Work) (a : Nat) : Nat → List Byte
  | 0 => []
  | n + 1 => w.rd a :: Work.rdN w (a + 1) n

/-- A little-endian number (R4). -/
def leNat : List Byte → Nat
  | [] => 0
  | b :: l => b.toNat + 256 * leNat l

/-- The `n` bytes of a number, little-endian (R4). -/
def natLE : Nat → Nat → List Byte
  | 0, _ => []
  | n + 1, v => BitVec.ofNat 8 v :: natLE n (v / 256)

/-- `n` bytes from `a` as a number. -/
def Work.le (w : Work) (a n : Nat) : Nat := leNat (w.rdN a n)

/-- One byte written. -/
def Work.wrB (a : Nat) (b : Byte) (w : Work) : Work := { w with wr := (a, b) :: w.wr }

/-- Bytes written from `a` on, in ascending order. -/
def Work.wrs (a : Nat) : List Byte → Work → Work
  | [], w => w
  | b :: l, w => Work.wrs (a + 1) l (w.wrB a b)

/-- A number of `n` bytes written little-endian. -/
def Work.wrLE (a n v : Nat) (w : Work) : Work := w.wrs a (natLE n v)

/-- `n` zero bytes written from `a`. -/
def Work.zero (a n : Nat) (w : Work) : Work := w.wrs a (List.replicate n 0)

/-- A state of check symbols in which an access delivers poison: tagged, or not to be corrected (R143, R156). -/
def spoiled (b : Byte) : Bool := b == 1#8 || b == 2#8

/-- Whether the line with byte `a` is delivered as poison. -/
def Work.poisonAt (w : Work) (a : Nat) : Bool := spoiled (w.rd (poisonA a))

/-- Whether some byte of [a, a + n) lies in a line delivered as poison. -/
def Work.poisoned (w : Work) (a n : Nat) : Bool :=
  if n = 0 then false
  else (List.range (poisonA (a + n - 1) - poisonA a + 1)).any fun i => spoiled (w.rd (poisonA a + i))

/-- The tag of the line with byte `a` set or cleared. -/
def Work.setPoison (a : Nat) (p : Bool) (w : Work) : Work := w.wrB (poisonA a) (if p then 1 else 0)

/-- The tags of the lines of [a, a + n) set or cleared. -/
def Work.tagRange (a n : Nat) (p : Bool) (w : Work) : Work :=
  if n = 0 then w
  else (List.range (poisonA (a + n - 1) - poisonA a + 1)).foldl (fun w i => w.wrB (poisonA a + i) (if p then 1 else 0)) w

/-! ### Dies, blocks, pages (chapters 1 and 3) -/

/-- The page of a die with a page index (R43). -/
def pg (die ix : Nat) : Nat := die * 2048 + ix
/-- The die of a page. -/
def dieOf (p : Nat) : Nat := p / 2048
/-- The page index of a page. -/
def ixOf (p : Nat) : Nat := p % 2048

def ccPage (d i : Nat) : Nat := pg d i
def mcPage (d i : Nat) : Nat := pg d (0x80 + i)
def swtPage (d i : Nat) : Nat := pg d (0x100 + i)
def seqPage (d i : Nat) : Nat := pg d (0x200 + i)
def hwkPage (d i : Nat) : Nat := pg d (0x208 + i)
def skpPage (d i : Nat) : Nat := pg d (0x220 + i)
/-- The DDL page `i` of a die: compute dies from 0x240, hubs from 0x028 (Table 3.9). -/
def ddlPage (d i : Nat) : Nat := if d < 16 then pg d (0x240 + i) else pg d (0x28 + i)
def dldPage (d : Nat) : Nat := pg d 0x250
def rtmPage (d : Nat) : Nat := pg d 0x251
def tmbPage (d : Nat) : Nat := if d < 16 then pg d 0x252 else pg d 0x30
def snpPage (d : Nat) : Nat := if d < 16 then pg d 0x253 else pg d 0x31
def pwrPage (d : Nat) : Nat := if d < 16 then pg d 0x254 else pg d 0x32
def hbcPage (q i : Nat) : Nat := pg (16 + q) i
def bkcPage (q i : Nat) : Nat := pg (16 + q) (8 + i)
def tslPage (q i : Nat) : Nat := pg (16 + q) (0x10 + i)
def ldrPage (q : Nat) : Nat := pg (16 + q) 0x18
def rqtPage (q : Nat) : Nat := pg (16 + q) 0x19
def trgPage (q : Nat) : Nat := pg (16 + q) 0x1A
def xltPage (q : Nat) : Nat := pg (16 + q) 0x1B
def bndPage (q : Nat) : Nat := pg (16 + q) 0x1C
def exrPage (q : Nat) : Nat := pg (16 + q) 0x1D
def cmpPage (q : Nat) : Nat := pg (16 + q) 0x1E
def pplPage (q : Nat) : Nat := pg (16 + q) 0x1F
def gylPage (q i : Nat) : Nat := pg (16 + q) (0x20 + i)
def pciPage : Nat := pg 16 0x38
/-- The KMC page of HD0 or, standby, of HD2. -/
def kmcPage (standby : Bool) : Nat := if standby then pg 18 0x39 else pg 16 0x39
/-- The SPW page of HD0 or, standby, of HD2. -/
def spwPage (standby : Bool) : Nat := if standby then pg 18 0x3A else pg 16 0x3A

/-- Row and column of compute die d in the array (R8, Table 1.1). -/
def diePos (d : Nat) : Nat × Nat :=
  (([(0, 0), (0, 1), (1, 0), (1, 1), (0, 2), (0, 3), (1, 2), (1, 3), (2, 2), (2, 3), (3, 2), (3, 3), (2, 0), (2, 1), (3, 0), (3, 1)] :
    List (Nat × Nat))[d]?).getD (0, 0)

/-- The compute die at a row and column. -/
def dieAt (r c : Nat) : Nat := ((List.range 16).find? fun d => diePos d == (r, c)).getD 16

/-- The neighbour of a die over DDL instance 1 north, 2 east, 3 south, 4 west (R11); none at the array's edge. -/
def neighbour (d inst : Nat) : Option Nat :=
  let (r, c) := diePos d
  match inst with
  | 1 => if r = 0 then none else some (dieAt (r - 1) c)
  | 2 => if c = 3 then none else some (dieAt r (c + 1))
  | 3 => if r = 3 then none else some (dieAt (r + 1) c)
  | 4 => if c = 0 then none else some (dieAt r (c - 1))
  | _ => none

/-- The far end of a DDL link: die and instance (Table 1.3). -/
def ddlPeer (d inst : Nat) : Option (Nat × Nat) :=
  if d < 16 then
    if inst = 0 then some (16 + d / 4, d % 4)
    else (neighbour d inst).map fun n => (n, (inst + 1) % 4 + 1)
  else if inst < 4 then some (4 * (d - 16) + inst, 0)
  else if inst = 4 then some (16 + (d - 16 + 1) % 4, 5)
  else if inst = 5 then some (16 + (d - 16 + 3) % 4, 4)
  else none

/-- Bandwidth of a DDL link per direction, GB/s (Table 1.3). -/
def ddlRate (d inst : Nat) : Nat :=
  if d < 16 then (if inst = 0 then 2400 else 1200) else if inst < 4 then 2400 else 3200

/-- Block type and instance of a page; type 0 for an absent page (R32, R43, Tables 1.4–1.6 and 3.9). -/
def blockOf (p : Nat) : Nat × Nat :=
  let d := dieOf p
  let x := ixOf p
  if d < 16 then
    if x < 0x80 then (0x01, x)
    else if x < 0x100 then (0x02, x - 0x80)
    else if x < 0x200 then (0x03, x - 0x100)
    else if x < 0x204 then (0x04, x - 0x200)
    else if 0x208 ≤ x ∧ x < 0x210 then (0x05, x - 0x208)
    else if 0x220 ≤ x ∧ x < 0x240 then (0x06, x - 0x220)
    else if 0x240 ≤ x ∧ x < 0x245 then (if (ddlPeer d (x - 0x240)).isSome then (0x07, x - 0x240) else (0, 0))
    else match x with
      | 0x250 => (0x08, 0)
      | 0x251 => (0x09, 0)
      | 0x252 => (0x1C, 0)
      | 0x253 => (0x1D, 0)
      | 0x254 => (0x1E, 0)
      | _ => (0, 0)
  else if d < 20 then
    if x < 5 then (0x10, x)
    else if 8 ≤ x ∧ x < 12 then (0x11, x - 8)
    else if 0x10 ≤ x ∧ x < 0x18 then (0x12, x - 0x10)
    else if x = 0x20 ∨ x = 0x21 then (0x16, x - 0x20)
    else if 0x28 ≤ x ∧ x < 0x2E then (0x07, x - 0x28)
    else match x with
      | 0x18 => (0x13, 0)
      | 0x19 => (0x14, 0)
      | 0x1A => (0x15, 0)
      | 0x1B => (0x17, 0)
      | 0x1C => (0x18, 0)
      | 0x1D => (0x1F, 0)
      | 0x1E => (0x20, 0)
      | 0x1F => (0x21, 0)
      | 0x30 => (0x1C, 0)
      | 0x31 => (0x1D, 0)
      | 0x32 => (0x1E, 0)
      | 0x38 => if d = 16 then (0x1A, 0) else (0, 0)
      | 0x39 => if d = 16 ∨ d = 18 then (0x1B, 0) else (0, 0)
      | 0x3A => if d = 16 ∨ d = 18 then (0x19, 0) else (0, 0)
      | _ => (0, 0)
  else (0, 0)

/-- The block type of a page. -/
def typeOf (p : Nat) : Nat := (blockOf p).1

/-- Counters a page implements (the counter lists of the chapters); of the TMB pages that of HD0 alone has them (R25). -/
def ncount (p : Nat) : Nat :=
  match typeOf p with
  | 0x01 => 8 | 0x02 => 8 | 0x03 => 3 | 0x04 => 8 | 0x05 => 8 | 0x06 => 8 | 0x07 => 6 | 0x08 => 4 | 0x09 => 1
  | 0x10 => 6 | 0x11 => 6 | 0x12 => 8 | 0x13 => 7 | 0x14 => 8 | 0x15 => 5 | 0x16 => 8 | 0x17 => 2 | 0x18 => 4 | 0x19 => 8
  | 0x1A => 6 | 0x1B => 0 | 0x1C => if dieOf p = 16 then 3 else 0 | 0x1D => 3 | 0x1E => 4 | 0x1F => 8 | 0x20 => 3 | 0x21 => 8 | _ => 0

/-! ### Work on the device -/

/-- The device changed. -/
def Work.d (f : Dev → Dev) (w : Work) : Work := { w with dev := f w.dev }
/-- The host interface changed. -/
def Work.host (f : HostIf → HostIf) (w : Work) : Work := w.d fun d => { d with host := f d.host }
/-- Power control changed. -/
def Work.pwr (f : PowerSt → PowerSt) (w : Work) : Work := w.d fun d => { d with pwr := f d.pwr }
/-- The time follower changed. -/
def Work.tm (f : TimeSt → TimeSt) (w : Work) : Work := w.d fun d => { d with time := f d.time }
/-- Speedwell changed. -/
def Work.spw (f : Speedwell → Speedwell) (w : Work) : Work := w.d fun d => { d with spw := f d.spw }
/-- The binding table changed. -/
def Work.bnd (f : Binding → Binding) (w : Work) : Work := w.d fun d => { d with bnd := f d.bnd }
/-- The fault record changed. -/
def Work.flt (f : FaultSt → FaultSt) (w : Work) : Work := w.d fun d => { d with flt := f d.flt }

/-- A message sent to the outside. -/
def Work.send (m : OutMsg) (w : Work) : Work := w.host fun h => { h with out := h.out ++ [m] }

/-- A free value and the work after taking it (log entry 2). -/
def Work.fresh (w : Work) : DWord × Work := (Config.freeValue w.dev.free, w.d fun d => { d with free := d.free + 1 })

/-- Context c. -/
def Work.ctx (w : Work) (c : Nat) : Ctx := SMap.at {} w.dev.ctxs c
/-- Context c changed. -/
def Work.modCtx (c : Nat) (f : Ctx → Ctx) (w : Work) : Work := w.d fun d => { d with ctxs := SMap.mod {} d.ctxs c f }

/-! ### Registers -/

/-- Reset values that depend on the page (R14, R407, R427). -/
def resetFix (p word : Nat) (v : Nat) : Nat :=
  let (t, inst) := blockOf p
  let d := dieOf p
  if t = 7 then
    match word, ddlPeer d inst with
    | 0x50, some (pd, pi) => setBits (setBits v 12 8 pd) 15 13 pi
    | 0x51, some _ => ddlRate d inst
    | _, _ => v
  else if t = 0x1B ∧ word = 0x51 then (if d = 16 then 2 else 1)
  else if t = 0x1E ∧ d = 16 ∧ 0x60 ≤ word ∧ word < 0x68 then
    let g := word - 0x60
    let filt := if g = 0 then 2 else if g = 1 ∨ g = 2 then 1 else 0
    (if g < 4 then 0 else 2 + 4 * 1) + 16 * filt
  else v

/-- Whether a register of the table is present on a die: some exist on HD0 alone, some on compute dies alone. -/
def RegSpec.onDie (r : RegSpec) (d : Nat) : Bool := r.only == 0 || (r.only == 1 && d == 16) || (r.only == 2 && decide (d < 16))

/-- The table's register at a word of a page, if there is one. -/
def specAt (p word : Nat) : Option RegSpec :=
  (specsOf (typeOf p)).find? fun r =>
    r.onDie (dieOf p) && (r.off == 4 * word ||
      (r.stride != 0 && decide (r.off ≤ 4 * word) && (4 * word - r.off) % r.stride == 0 &&
        decide ((4 * word - r.off) / r.stride < r.count)))

/-- The reset value of a block-specific register. -/
def resetWord (p word : Nat) : Word :=
  BitVec.ofNat 32 (match specAt p word with
    | some r => resetFix p word (r.flds.foldl (fun v f => setBits v f.hi f.lo f.reset) 0)
    | none => 0)

/-- The block-specific register at a word of a page. -/
def Work.reg (w : Work) (p word : Nat) : Word :=
  match w.dev.regs.lookup (p * 1024 + word) with
  | some v => v
  | none => resetWord p word

/-- That register set. -/
def Work.setReg (p word : Nat) (v : Word) (w : Work) : Work :=
  w.d fun d => { d with regs := SMap.put (resetWord p word) d.regs (p * 1024 + word) v }

/-- A field of a register of a page. -/
def Work.get (w : Work) (p : Nat) (f : Fld) : Nat := bits (w.reg p (f.off / 4)).toNat f.hi f.lo

/-- A field set. -/
def Work.set (p : Nat) (f : Fld) (v : Nat) (w : Work) : Work :=
  w.setReg p (f.off / 4) (BitVec.ofNat 32 (setBits (w.reg p (f.off / 4)).toNat f.hi f.lo v))

/-- A one-bit field set from a Boolean. -/
def Work.setB (p : Nat) (f : Fld) (b : Bool) (w : Work) : Work := w.set p f (if b then 1 else 0)

/-- A 64-bit value held in two registers, the low word first. -/
def Work.get64 (w : Work) (p : Nat) (f : Fld) : Nat := (w.reg p (f.off / 4)).toNat + 2 ^ 32 * (w.reg p (f.off / 4 + 1)).toNat

/-- That value set. -/
def Work.set64 (p : Nat) (f : Fld) (v : Nat) (w : Work) : Work :=
  (w.setReg p (f.off / 4) (BitVec.ofNat 32 v)).setReg p (f.off / 4 + 1) (BitVec.ofNat 32 (v / 2 ^ 32))

/-- Counter n of a page (R37). -/
def Work.ctr (w : Work) (p n : Nat) : DWord := SMap.at 0 w.dev.ctrs (p * 8 + n)

/-- Counter n of a page counts `k`, modulo 2^64 (R37). -/
def Work.count (p n k : Nat) (w : Work) : Work :=
  w.d fun d => { d with ctrs := SMap.mod 0 d.ctrs (p * 8 + n) (· + BitVec.ofNat 64 k) }

/-! ### Transfers on the links (R12–R14) -/

/-- A link is REMOVED (R13). -/
def Work.removed (w : Work) (d inst : Nat) : Bool := w.get (ddlPage d inst) R.DDL_STS_LSTATE == 3

/-- The ring links from hub q to hub t, at each sending end: the shorter direction, increasing hub numbers between opposite hubs, the other one where a
link of that way is removed; none where both ways are cut (R12, R13). -/
def Work.ringWay (w : Work) (q t : Nat) : Option (List (Nat × Nat)) :=
  let n := (t + 4 - q) % 4
  let up := (List.range n).map fun i => (16 + (q + i) % 4, 4)
  let down := (List.range (4 - n)).map fun i => (16 + (q + 4 - i) % 4, 5)
  let ok := fun (l : List (Nat × Nat)) => l.all fun e => !w.removed e.1 e.2
  if n = 0 then some []
  else
    let (first, other) := if n ≤ 2 then (up, down) else (down, up)
    if ok first then some first else if ok other then some other else none

/-- The hub of a die. -/
def hubOf (d : Nat) : Nat := if d < 16 then d / 4 else d - 16

/-- The links of a transfer between two dies that goes by the hubs (R12): a compute die's hub link, the ring, the target's hub link. -/
def Work.hubWay (w : Work) (a b : Nat) : Option (List (Nat × Nat)) :=
  if a = b then some []
  else (w.ringWay (hubOf a) (hubOf b)).map fun l =>
    (if a < 16 then [(a, 0)] else []) ++ l ++ if b < 16 then [(16 + b / 4, b % 4)] else []

/-- The neighbour links from compute die d to compute die t in dimension order: along the row, then along the column (R12). -/
def neighbourPath (d t : Nat) : Nat → List (Nat × Nat)
  | 0 => []
  | n + 1 =>
    if d = t then []
    else
      let (r, c) := diePos d
      let (tr, tc) := diePos t
      let inst := if c < tc then 2 else if tc < c then 4 else if r < tr then 3 else 1
      (d, inst) :: (match neighbour d inst with | some m => neighbourPath m t n | none => [])

/-- Counters with `k` transfers counted at both ends of each link of a path (R14). -/
def xferCtrs (l : List (Nat × Nat)) (k : Nat) (m : SMap DWord) : SMap DWord :=
  l.foldl (fun m e =>
    let m := SMap.mod 0 m (ddlPage e.1 e.2 * 8) (· + BitVec.ofNat 64 k)
    match ddlPeer e.1 e.2 with
    | some (pd, pi) => SMap.mod 0 m (ddlPage pd pi * 8 + 1) (· + BitVec.ofNat 64 k)
    | none => m) m

/-- `k` transfers carried over the links of a path; without a path they cannot complete (R13). -/
def Work.onLinks (way : Option (List (Nat × Nat))) (k : Nat) (w : Work) : Work :=
  match way with
  | some [] => w
  | some l => w.d fun d => { d with ctrs := xferCtrs l k d.ctrs }
  | none => { w with cut := true }

/-- Bytes carried from one die to another by the hubs. How many transfers they take is open (log entry 23). -/
def Work.carry (a b bytes : Nat) (w : Work) : Work := w.onLinks (w.hubWay a b) (Config.linkTransfers bytes)

/-- `k` transfers from compute die d to compute die t over the neighbour links. A removed link on the way sends them through the hubs, counted as detours
on the page of that link at its sending end, which is the origin's own page where the link is one of the origin's (R12–R14; for a link further on the way
R14 names no page, and that the whole way is given up is the model's choice, log entry 23). -/
def Work.acrossDies (d t k : Nat) (w : Work) : Work :=
  let path := neighbourPath d t 8
  match path.find? fun e => w.removed e.1 e.2 with
  | some e => (w.count (ddlPage e.1 e.2) 5 k).onLinks (w.hubWay d t) k
  | none => w.onLinks (some path) k

/-- Keys of [lo, hi) dropped from a table. -/
def SMap.dropRange {β : Type} (m : SMap β) (lo hi : Nat) : SMap β := m.filter fun e => decide (e.1 < lo) || decide (hi ≤ e.1)

/-- The common registers of a page. -/
def Work.page (w : Work) (p : Nat) : Page := SMap.at {} w.dev.pages p
/-- Those registers changed. -/
def Work.modPage (p : Nat) (f : Page → Page) (w : Work) : Work := w.d fun d => { d with pages := SMap.mod {} d.pages p f }

/-- The code of a block state (Table 3.2). -/
def BlockState.code : BlockState → Nat
  | .off => 0 | .idle => 1 | .bound => 2 | .running => 3 | .quiescing => 4 | .quiesced => 5 | .fenced => 6

/-- The power domain of die `d` is on (R31, R408). -/
def Work.dieOn (w : Work) (d : Nat) : Bool := bit (w.get (pwrPage 16) R.PWR_DOMAINS_DON) d

/-- Compute die d is fenced: every transfer to or from it is refused with FAULT (R373). -/
def Work.fenced (w : Work) (d : Nat) : Bool := SMap.at false w.dev.flt.fencedDies d

/-- The page names an implemented block whose domain is on (R31). -/
def Work.live (w : Work) (p : Nat) : Bool := typeOf p != 0 && w.dieOn (dieOf p)

/-- The owning partition, where OWNED = 1. -/
def Page.part (g : Page) : Option Nat := if bit g.owner.toNat 31 then some (bits g.owner.toNat 5 0) else none
/-- The owning context, where CTX_VALID = 1. -/
def Page.ctx (g : Page) : Option Nat := if bit g.owner.toNat 30 then some (bits g.owner.toNat 15 8) else none

/-- PAGE_OWNER for a partition and a context (R30). -/
def ownerWord (part ctx : Option Nat) : Word :=
  BitVec.ofNat 32 ((part.elim 0 fun p => 2 ^ 31 + p) + (ctx.elim 0 fun c => 2 ^ 30 + c * 256))

/-! ### Events, error logs, snapshot triggers (R35, R36, R384, R385) -/

/-- What reaches a page's event logic. -/
inductive Sig where
  /-- An event: page, bit, and the tag and final status a completion carries. -/
  | ev (p bit : Nat) (tag : Word) (fin : Nat)
  /-- An error to log: page, DETAIL, WORD, CODE, CMD. -/
  | err (p : Nat) (detail : Word) (word code cmd : Nat)
  /-- A snapshot trigger from a source of Table 22.1. -/
  | trig (src : Nat)
deriving DecidableEq, Repr

/-- A message of a function's MSI-X vector: sent, or held pending while it cannot be (R35). -/
def Work.msix (fn vec : Nat) (w : Work) : Work :=
  let h := w.dev.host
  if SMap.at false h.msixEn fn && !SMap.at false h.fnMask fn && SMap.at false h.unmasked (fn * 2048 + vec) then w.send (.msix fn vec)
  else w.host fun h => { h with pendVec := SMap.put false h.pendVec (fn * 2048 + vec) true }

/-- PAGE_ERRLOG0–3 of a page for an error (R36, Table 3.5). -/
def logRegs (g : Page) (now : Nat) (detail : Word) (word code cmd : Nat) : Page :=
  let more := bit g.log1.toNat 31
  { g with
    log0 := detail
    log1 := BitVec.ofNat 32 (word % 1024 + (if more then 1024 else 0) + (code % 256) * 2 ^ 12 + (cmd % 256) * 2 ^ 20 +
      g.state.code * 2 ^ 28 + 2 ^ 31)
    log2 := BitVec.ofNat 32 now
    log3 := BitVec.ofNat 32 (now / 2 ^ 32) }

/-- The page that SNP_EVSEL names and its bit (R384). -/
def Work.watched (w : Work) : Nat × Nat :=
  (pg (w.get (snpPage 16) R.SNP_EVSEL_DIE) (w.get (snpPage 16) R.SNP_EVSEL_PAGE), w.get (snpPage 16) R.SNP_EVSEL_BIT)

/-- The SNP registers at a latch (R385): FROZEN, SEQNO, source and stamp. -/
def Work.latchRegs (src n : Nat) (w : Work) : Work :=
  let p := snpPage 16
  ((((w.setB p R.SNP_STS_FROZEN true).set p R.SNP_STS_SOURCE src).set p R.SNP_STS_SEQNO n).set64 p R.SNP_STAMP_LO_ST_LO w.now).count p 0 1

/-- SNAPOUT driven where OUTEN says so (R388). -/
def Work.driveOut (w : Work) : Work :=
  if w.get (snpPage 16) R.SNP_CTL_OUTEN = 1 then w.pwr fun q => { q with snapout := true } else w

/-- The latch of a snapshot (R385, R388): the registers, SNAPOUT, the device copied. -/
def Work.latch (src : Nat) (w : Work) : Work :=
  let n := (w.get (snpPage 16) R.SNP_STS_SEQNO + 1) % 65536
  let w := (w.latchRegs src n).driveOut
  { w with shadow := some { dev := w.dev, stamp := w.now, seqno := n, source := src } }

/-- The event put into the queue of the page's context, where the route says so (R35). -/
def Work.notify (p b : Nat) (tag : Word) (fin : Nat) (w : Work) : Work :=
  match bit (w.page p).route.toNat 0, (w.page p).ctx with
  | true, some c =>
    if (w.ctx c).state = .none then w
    else w.modCtx c fun x => { x with events := x.events ++ [{ page := p, bit := b, tag := tag, final := fin, stamp := w.now }] }
  | _, _ => w

/-- The event sent as a message of the page's function, where the route says so; an undeliverable route logs UNKNOWN through `again` (R35). -/
def interruptWith (again : Sig → Work → Work) (p : Nat) (w : Work) : Work :=
  let r := (w.page p).route.toNat
  let vec := bits r 26 16
  let unknown := fun (w : Work) => again (.err p (w.fresh.1.setWidth 32) 7 0x1F 0) w.fresh.2
  match bit r 1, (w.page p).part with
  | false, _ => w
  | true, none => if vec < 128 then w.msix 0 vec else unknown w
  | true, some q => if w.get pciPage R.PCI_NUMVF_NUMVF ≤ q ∨ vec ≥ 30 then unknown w else w.msix (q + 1) vec

/-- Delivery along PAGE_EVTROUTE (R35). -/
def deliverWith (again : Sig → Work → Work) (p b : Nat) (tag : Word) (fin : Nat) (w : Work) : Work :=
  interruptWith again p (w.notify p b tag fin)

/-- The bit of an event set (R35). -/
def Work.markEvt (p b : Nat) (w : Work) : Work := w.modPage p fun g => { g with evt := g.evt ||| BitVec.ofNat 32 (2 ^ b) }

/-- The EVENT trigger, where the event is the one watched (R384). -/
def watchWith (again : Sig → Work → Work) (p b : Nat) (w : Work) : Work :=
  if w.get (snpPage 16) R.SNP_CTL_EVTEN = 1 ∧ w.watched = (p, b) then again (.trig 3) w else w

/-- An event of a page (R35): its bit, OVERRUN where it was set, the EVENT trigger of R384, delivery. -/
def eventWith (again : Sig → Work → Work) (p b : Nat) (tag : Word) (fin : Nat) (w : Work) : Work :=
  if bit (w.page p).evt.toNat b then
    if bit (w.page p).evt.toNat 4 then w else again (.ev p 4 0 0) w
  else if bit (w.page p).evten.toNat b then deliverWith again p b tag fin (watchWith again p b (w.markEvt p b))
  else watchWith again p b (w.markEvt p b)

/-- A second trigger in the nanosecond of the latch, of a lower source code, gives the latch its name (R384); the event that the latch itself raises is no such
trigger. PIN has the highest code. -/
def Work.sameInstant (src : Nat) (w : Work) : Work :=
  match w.shadow with
  | some f =>
    if f.stamp = w.now ∧ src < f.source ∧ src < 4 ∧ (src = 3 → w.watched ≠ (snpPage 16, 16)) then
      let named := fun (w : Work) => w.set (snpPage 16) R.SNP_STS_SOURCE src
      { named w with shadow := some { f with source := src, dev := (named { w with dev := f.dev }).dev } }
    else w
  | none => w

/-- A snapshot trigger (R384): lost while FROZEN, else a latch. -/
def triggerWith (again : Sig → Work → Work) (src : Nat) (w : Work) : Work :=
  if w.get (snpPage 16) R.SNP_STS_FROZEN = 1 then again (.ev (snpPage 16) 17 0 0) ((w.sameInstant src).count (snpPage 16) 1 1)
  else again (.ev (snpPage 16) 16 0 0) (w.latch src)

/-- One signal, given what its own consequences do. -/
def signalWith (again : Sig → Work → Work) (g : Sig) (w : Work) : Work :=
  match g with
  | .err p detail word code cmd => again (.ev p 3 0 0) (w.modPage p fun g => logRegs g w.now detail word code cmd)
  | .trig src => triggerWith again src w
  | .ev p b tag fin => eventWith again p b tag fin w

/-- An event, an error or a trigger, with all it brings about; `n` bounds how far one brings about another. -/
def signal : Nat → Sig → Work → Work
  | 0, _, w => w
  | n + 1, g, w => signalWith (signal n) g w

/-- The depth to which events bring about events: an event, its snapshot, that snapshot's event, a log, its event, an overrun. -/
def sigDepth : Nat := 12

/-- An event of a page (R35). -/
def Work.raise (p b : Nat) (w : Work) : Work := signal sigDepth (.ev p b 0 0) w

/-- An error logged on a page (R36). -/
def Work.logErr (p : Nat) (detail : Word) (word code cmd : Nat) (w : Work) : Work := signal sigDepth (.err p detail word code cmd) w

/-- An error whose DETAIL or WORD the manual leaves open is logged with free values there (log entry 77). -/
def Work.logOpen (p : Nat) (detail word : Option Nat) (code cmd : Nat) (w : Work) : Work :=
  let (v, w) := w.fresh
  w.logErr p (BitVec.ofNat 32 (detail.getD v.toNat)) (word.getD (v.toNat / 2 ^ 32)) code cmd

/-- A snapshot trigger (R384). -/
def Work.trigger (src : Nat) (w : Work) : Work := signal sigDepth (.trig src) w

/-- Delivery of a bit that is already set, at the moment of enabling (R35); CMD_DONE carries the tag and the final status of the last completion (R38). -/
def Work.deliver (p b : Nat) (w : Work) : Work :=
  let g := w.page p
  deliverWith (signal sigDepth) p b (if b = 1 then g.doneTag else 0) (if b = 1 then g.doneFin else 0) w

/-- A write dropped for state (R6, R34, R36): WR_STATE, and the log with CODE STATE and the written value. -/
def Work.dropWrite (p word : Nat) (v : Word) (w : Work) : Work := (w.raise p 0).logErr p v word 0x10 0

/-- A block moves to a state; a change sets STATE_CHG (R33). -/
def Work.toState (p : Nat) (st : BlockState) (w : Work) : Work :=
  if (w.page p).state = st then w else (w.modPage p fun g => { g with state := st }).raise p 2

/-- All registers of a page at their reset values, its counters and latches zero (R33). -/
def Work.resetRegs (p : Nat) (w : Work) : Work :=
  w.d fun d =>
    { d with
      regs := SMap.dropRange d.regs (p * 1024) (p * 1024 + 1024)
      ctrs := SMap.dropRange d.ctrs (p * 8) (p * 8 + 8)
      pages := SMap.drop d.pages p }

/-- What begins with OFF → IDLE: a die's monitor starts afresh (R22), a Skipper's idle time runs (R246). -/
def Work.startUnit (p : Nat) (w : Work) : Work :=
  match typeOf p with
  | 6 => w.d fun d => { d with skp := SMap.mod {} d.skp p fun g => { g with idleFrom := w.now + 1 } }
  | 9 => w.pwr fun q => { q with rtmDone := SMap.put false q.rtmDone (dieOf p) false }
  | _ => w

/-- OFF → IDLE: all registers take their reset values (R33). -/
def Work.bringIdle (p : Nat) (w : Work) : Work := ((w.resetRegs p).toState p .idle).startUnit p

/-- What an enable leaves as it is, since another rule holds it fast: a link stays REMOVED until a reset (R14), the link fields of PCI_STS follow the PCIe
link whatever the page's state (R410), and the PWR pages show which domains are on and what the rails
are asked for (R404, R408). -/
def Work.kept (p : Nat) (old : Work) (w : Work) : Work :=
  match typeOf p with
  | 0x07 => if old.removed (dieOf p) (blockOf p).2 then (w.set p R.DDL_STS_LSTATE 3).set p R.DDL_RATE_RATE 0 else w
  | 0x1A => (((w.set p R.PCI_STS_LINKUP (old.get p R.PCI_STS_LINKUP)).set p R.PCI_STS_SPEED (old.get p R.PCI_STS_SPEED)).set p R.PCI_STS_WIDTH
      (old.get p R.PCI_STS_WIDTH)).set p R.PCI_STS_FLIT (old.get p R.PCI_STS_FLIT)
  | 0x1E => ((w.set p R.PWR_DOMAINS_DON (old.get p R.PWR_DOMAINS_DON)).set p R.PWR_STS_ON (old.get p R.PWR_STS_ON)).set p R.PWR_STS_VREQ
      (old.get p R.PWR_STS_VREQ)
  | _ => w

/-- ENABLE written 1 in OFF: all registers take their reset values (R33, Table 3.4), but for what other rules hold fast (log entry 83). -/
def Work.enableIdle (p : Nat) (w : Work) : Work := (((w.resetRegs p).kept p w).toState p .idle).startUnit p

/-! ### Commands (R38, R39) -/

/-- The code of a status. -/
def Status.code : Status → Nat
  | .done => 0x00 | .accepted => 0x01 | .state => 0x10 | .busy => 0x11 | .shape => 0x12 | .capacity => 0x13 | .bound => 0x14
  | .owner => 0x15 | .admission => 0x16 | .pending => 0x17 | .epoch => 0x18 | .poison => 0x1E | .unknown => 0x1F | .fault => 0x20

/-- An accepted issue: the page, the code, the caller, and ARG0–ARG11 and CMD_TAG as latched (R38). -/
structure Call where
  page : Nat
  code : Nat
  caller : Caller
  args : List Word
  tag : Word
deriving DecidableEq, Repr

/-- ARGn. -/
def Call.arg (c : Call) (n : Nat) : Nat := (c.args.getD n 0).toNat
/-- ARGn (low word) and ARG(n+1) (high word). -/
def Call.arg64 (c : Call) (n : Nat) : Nat := c.arg n + 2 ^ 32 * c.arg (n + 1)

/-- Every code from 0x10 to 0x20 except PENDING is logged (R39). -/
def logged (code : Nat) : Bool := decide (0x10 ≤ code) && decide (code ≤ 0x20) && code != 0x17

/-- The immediate status of a command (R38): in STATUS, and, with no command outstanding, in FINAL; logged where R39 says so. -/
def Work.reply (c : Call) (st : Status) (w : Work) : Work :=
  let g := w.page c.page
  let old := g.cmdSts.toNat
  let inprog := decide (st = .accepted) || decide (st = .pending)
  let v := if g.outst.isSome then setBits old 7 0 st.code else st.code + st.code * 256 + (if inprog then 2 ^ 31 else 0)
  let w := w.modPage c.page fun g => { g with cmdSts := BitVec.ofNat 32 v }
  if logged st.code then w.logOpen c.page none (some 0x40) st.code c.code else w

/-- The command starts and stays outstanding (R38). -/
def Work.accept (c : Call) (w : Work) : Work :=
  (w.reply c .accepted).modPage c.page fun g =>
    { g with outst := some { code := c.code, tag := c.tag, caller := c.caller, args := c.args, stamp := w.now, final := none } }

/-- The command is held by the Campion arbiter and stays outstanding (R380). -/
def Work.hold (c : Call) (w : Work) : Work :=
  (w.reply c .pending).modPage c.page fun g =>
    { g with outst := some { code := c.code, tag := c.tag, caller := c.caller, args := c.args, stamp := w.now, final := none } }

/-- The dies on which a context holds cells, ascending (R76). -/
def Ctx.dies (x : Ctx) : List Nat := (List.range 16).filter fun d => bits x.groups (16 * d + 15) (16 * d) != 0

/-- A condition that froze the deadlock windows of a context ends: they start afresh (R83). -/
def Work.thaw (c : Nat) (w : Work) : Work :=
  w.d fun d => { d with fab := { d.fab with lastHs := (w.ctx c).dies.foldl (fun m i => SMap.put 0 m (i * 256 + c) w.now) d.fab.lastHs } }

/-- Commands whose completion a unit of the fabric may wait for from outside it (R83, log entry 79): PF_ADVANCE, EXR_ROUTE, COLL_RUN, HWK_RUN, RLT_RUN
and TSL_RUN. -/
def external : List Nat := [0x29, 0x2C, 0x3C, 0x50, 0x59, 0x68]

/-- The outstanding command of a page completes (R38): FINAL, INPROG 0, CMD_DONE with its tag and final status. -/
def Work.complete (p : Nat) (st : Status) (w : Work) : Work :=
  match (w.page p).outst with
  | none => w
  | some o =>
    let w := w.modPage p fun g =>
      { g with outst := none, doneTag := o.tag, doneFin := st.code, cmdSts := BitVec.ofNat 32 (setBits (setBits g.cmdSts.toNat 15 8 st.code) 31 31 0) }
    let w := if logged st.code then w.logOpen p none (some 0x40) st.code o.code else w
    let w := signal sigDepth (.ev p 1 o.tag st.code) w
    match (w.page p).ctx with
    | some c => if external.contains o.code then w.thaw c else w
    | none => w

/-- The final status of the outstanding command of a page is decided; CMD_COMPLETION publishes it. -/
def Work.settle (p : Nat) (st : Status) (w : Work) : Work :=
  w.modPage p fun g => { g with outst := g.outst.map fun o => { o with final := some st } }

/-- A command result written to an argument register. -/
def Work.setArg (p n : Nat) (v : Nat) (w : Work) : Work :=
  w.modPage p fun g => { g with args := g.args.set n (BitVec.ofNat 32 v) }

end Sys2Proof.Machine
end

