-- ==== Sys2Proof/Machine/Fault.lean ====
section
/-!
DEFINITION. Fault.lean: how a remote window closes (R138), and how a fault of a context begins its teardown (R370).
-/
namespace Sys2Proof.Machine

/-- The pages a context holds. -/
def Work.ctxPages (w : Work) (c : Nat) : List Nat := (w.dev.pages.filter fun e => e.2.ctx == some c).map (·.1)

/-! ### Closing a remote window (R138) -/

def Work.winState (w : Work) (p i : Nat) : Nat := w.get p (R.MC_WCFG_WSTATE.i i)

/-- The key of a window. -/
def winKey (p i : Nat) : Nat := (dieOf p * 128 + (blockOf p).2) * 16 + i
def Work.win (w : Work) (k : Nat) : WinSt := SMap.at {} w.dev.rem.wins k
def Work.modWin (k : Nat) (f : WinSt → WinSt) (w : Work) : Work :=
  w.d fun d => { d with rem := { d.rem with wins := SMap.mod {} d.rem.wins k f } }

/-- The page of the memory cell an account's window lies in. -/
def acctPage (a : Account) : Nat := mcPage a.tdie a.tmc

/-- A window closed for good: CLOSED, and the close that waits completes (R138). -/
def Work.winClosed (p i : Nat) (timedOut : Bool) (w : Work) : Work :=
  let k := winKey p i
  let st := w.win k
  let w := (w.set p (R.MC_WCFG_WSTATE.i i) 0).setB p (R.MC_WCFG_TIMEDOUT.i i) timedOut
  let w := (w.set p (R.MC_WPOOL_FREE.i i) 0).set p (R.MC_WPOOL_NACC.i i) 0
  let w := w.modWin k fun _ => { accts := [], returned := 0, late := if timedOut then (st.late ++ st.accts.map (·.acc)).eraseDups else st.late }
  match (w.page p).outst with
  | some o => if o.code = 0x32 ∧ (o.args.getD 0 0).toNat = i then w.complete p .done else w
  | none => w

/-- A close begins (R138): CLOSING, waiting requests refused with BOUND, a revoke to every account; closed at once where there is none. -/
def Work.closeWin (p i : Nat) (w : Work) : Work :=
  let k := winKey p i
  let accs := (w.win k).accts
  let w := w.set p (R.MC_WCFG_WSTATE.i i) 2
  let w := w.modWin k fun x => { x with accts := x.accts.map fun a => { a with waiting := 0 } }
  let w := (accs.filter fun a => a.waiting ≠ 0).foldl (fun w a => w.send (.credit 4 a.acc 0x14)) w
  let w := accs.foldl (fun w a => w.send (.credit 2 a.acc 0)) w
  if accs.isEmpty then w.winClosed p i false else w

/-! ### The beginning of a teardown (R370) -/

/-- The accounts of a context's senders are given up: their balances go back to the windows (R138). -/
def Work.dropSends (c : Nat) (w : Work) : Work :=
  let mine := w.dev.rem.sends.flatMap fun e => e.2.filter fun x => x.acc.ctx == c
  let w := w.d fun d => { d with rem := { d.rem with
    sends := (d.rem.sends.map fun e => (e.1, e.2.filter fun x => x.acc.ctx != c)).filter fun e => !e.2.isEmpty
    waits := (d.rem.waits.map fun e => (e.1, e.2.filter fun x => x.1 != c)).filter fun e => !e.2.isEmpty
    told := d.rem.told.filter fun e => e.1 % 256 != c } }
  mine.foldl (fun (w : Work) x => w.send (.credit 3 x.acc x.balance)) w

/-- The teardown of a context begins (R370, Table 21.3 steps 0 to 3): its units stop, its cause is recorded for SPW_CTXFAULT, its windows are
forced to close. -/
def Work.beginTeardown (c cause code p : Nat) (w : Work) : Work :=
  let x := w.ctx c
  if x.state = .none ∨ x.state = .ending then w
  else
    let (t, i) := blockOf p
    let w := w.modCtx c fun x => { x with state := .ending, fault := some (code, t, i, dieOf p, cause, w.now) }
    let w := (w.ctxPages c).foldl (fun w p => if (w.page p).state = .running then w.toState p .quiescing else w) w
    (((w.ctxPages c).filter fun p => typeOf p == 2).foldl (fun (w : Work) p => (List.range 16).foldl (fun (w : Work) i =>
      if w.winState p i = 1 then w.closeWin p i else w) w) w).dropSends c

/-- A contained error of context c detected on page p (R370): logged there, and the teardown begins. -/
def Work.ctxFault (c p code : Nat) (detail : Option Nat) (w : Work) : Work :=
  (w.logOpen p detail none code 0).beginTeardown c 0 code p

end Sys2Proof.Machine
end

