-- ==== Sys2Proof/Machine/Commands.lean ====
section
/-!
DEFINITION. Commands.lean: who reaches a page (R31, R46), who may issue a command on it (R38), the common checks (R39), and the ways by which the
accesses of a command and of a unit take the links (R12, R13).
-/
namespace Sys2Proof.Machine

/-- Ready has been reached (R397). -/
def Work.ready (w : Work) : Bool := w.get pciPage R.PCI_STS_READY == 1
/-- The package is PKG_FATAL (R375). -/
def Work.fatal (w : Work) : Bool := w.dev.flt.fatalStamp.isSome

/-- What becomes of a BAR0 or internal access before the page sees it. -/
inductive Reach where
  /-- It reaches the page. -/
  | ok
  /-- It is ignored: an absent or unpowered page, a page that does not answer yet (R31, R397, R399, R412). -/
  | ignored
  /-- It is a virtual function's access to a page that is not its own (R46). -/
  | denied
deriving DecidableEq, Repr

/-- Whether a write by a caller reaches a page (R31, R46, R397, R399). A sequencer core does not write EXR pages (R273). -/
def Work.reach (w : Work) (by_ : Caller) (p : Nat) : Reach :=
  let early := p == pciPage || p == kmcPage false || p == snpPage 16 || p == pwrPage 16
  match by_ with
  | .vf n =>
    if !w.ready || w.fatal then .ignored
    else if (w.page p).part = some (n - 1) && n != 0 then (if w.live p then .ok else .ignored)
    else .denied
  | .pf => if !w.live p || w.fatal || (!w.ready && !early) then .ignored else .ok
  | .kmc => if w.live p then .ok else .ignored
  | .seq _ _ => if w.live p && typeOf p != 0x1F then .ok else .ignored

/-- The die from which a caller's register accesses come: its own of a sequencer core, that of the endpoint or of the acting management core else. -/
def Work.callerDie (w : Work) (by_ : Caller) : Nat :=
  match by_ with
  | .seq d _ => d
  | .kmc => if w.get (kmcPage true) R.KMC_STS_ACTING = 1 then 18 else 16
  | _ => 16

/-- The caller may issue commands on the page (R38). -/
def Work.mayIssue (w : Work) (by_ : Caller) (p : Nat) : Bool :=
  match by_ with
  | .pf => true
  | .kmc => true
  | .vf n => n != 0 && (w.page p).part == some (n - 1)
  | .seq d i => (w.page p).ctx.isSome && (w.page (seqPage d i)).ctx == (w.page p).ctx

/-- The physical function or the KMC. -/
def privileged : Caller → Bool
  | .pf => true
  | .kmc => true
  | _ => false

/-- Who may issue a command. -/
inductive Who where
  /-- Whoever R38 allows. -/
  | any
  /-- The physical function and the KMC. -/
  | priv
  /-- The physical function. -/
  | pf
deriving DecidableEq, Repr

/-- What a command's chapter fixes: block types that have it, code, callers, states in which it is legal (of its block, and, in `legal`, of its unit), and
whether reserved argument bits are zero. -/
structure CmdSpec where
  types : List Nat
  code : Nat
  who : Who := .any
  states : List BlockState := [.idle, .bound, .running, .quiescing, .quiesced, .fenced]
  resv : Call → Bool := fun _ => true
  legal : Call → Work → Bool := fun _ _ => true

/-- The issue of a command as its page sees it. -/
def Work.call (w : Work) (q : Issue) (code : Nat) : Call :=
  { page := q.page, code := code, caller := q.caller, args := (w.page q.page).args, tag := (w.page q.page).tag }

/-- A SEQ page without a context refuses every command but the common ones as its block state would (R76). -/
def Work.seqIdle (w : Work) (p code : Nat) : Bool := typeOf p == 4 && decide (code < 0xF0) && (w.page p).ctx.isNone

/-- The primary management core has lost its page's commands to the standby (R402). -/
def Work.kmcGone (w : Work) (p : Nat) : Bool := p == kmcPage false && w.get (kmcPage true) R.KMC_STS_ACTING == 1

/-- The first common check that fails, in the order of R39. -/
def Work.verdict (w : Work) (q : Issue) (k : CmdSpec) : Option Status :=
  let c := w.call q k.code
  if !k.types.contains (typeOf q.page) || q.hi != 0 || !k.resv c then some .unknown
  else if !(match k.who with | .any => w.mayIssue q.caller q.page | .priv => privileged q.caller | .pf => q.caller == .pf) then some .owner
  else if !k.states.contains (w.page q.page).state || w.seqIdle q.page k.code || w.kmcGone q.page || !k.legal c w then some .state
  else if (w.page q.page).outst.isSome then some .busy
  else none

/-- A transfer of the work that found no way to its target is a contained fault of the context that issued it, logged on a page (R13). The manual gives no
code for it: its CODE is a free value. -/
def Work.cutFault (c : Option Nat) (p : Nat) (w : Work) : Work :=
  if w.cut then
    match c with
    | some c => ({ w with cut := false }.fresh.2).ctxFault c p (w.fresh.1.toNat % 256) none
    | none => { w with cut := false }
  else w
/-- The same for the unit of a page, which issues for the page's context. -/
def Work.ended (p : Nat) (w : Work) : Work := w.cutFault (w.page p).ctx p

/-- What a unit of page p does: its accesses take the links from its die (R12). -/
def Work.asUnit (p : Nat) (f : Work → Work) (w : Work) : Work := (f { w with at_ := some p }).ended p

/-- A register access on its way to its page, one word over the links (R12); without a way it is a contained fault of the context that made it (R13). -/
def Work.onWay (by_ : Caller) (p : Nat) (f : Work → Work) (w : Work) : Work :=
  match w.hubWay (w.callerDie by_) (dieOf p) with
  | none => (match by_ with | .seq d i => { w with cut := true }.ended (seqPage d i) | _ => w)
  | some l => f (w.onLinks (some l) (Config.linkTransfers 4))

/-- A command (R38, R39): the access reaches its page, the common checks pass, and then its own part runs. -/
def Work.command (q : Issue) (k : CmdSpec) (body : Call → Work → Work) (w : Work) : Work :=
  match w.reach q.caller q.page with
  | .ignored => w
  | .denied => w.count pciPage 0 1
  | .ok =>
    w.onWay q.caller q.page fun w =>
      match w.verdict q k with
      | some st => w.reply (w.call q k.code) st
      | none => w.asUnit q.page (body (w.call q k.code))

/-- A write reaching a page, or counted as denied, or ignored (R31, R46). -/
def Work.access (by_ : Caller) (p : Nat) (f : Work → Work) (w : Work) : Work :=
  match w.reach by_ p with
  | .ok => w.onWay by_ p f
  | .ignored => w
  | .denied => w.count pciPage 0 1

/-- The reserved bits of an argument pair that holds a local address, those above bit 47, are zero (R44). -/
def Call.addrOk (c : Call) (n : Nat) : Bool := c.arg (n + 1) / 2 ^ 16 == 0

/-- The first failing check of a list, in its order. -/
def firstFail : List (Bool × Status) → Option Status
  | [] => none
  | (bad, st) :: l => if bad then some st else firstFail l

/-- The command's own checks, then its effect (R39). -/
def Work.checked (c : Call) (checks : List (Bool × Status)) (eff : Work → Work) (w : Work) : Work :=
  match firstFail checks with
  | some st => w.reply c st
  | none => eff w

/-- One nanosecond of a follower that slews: at 100 ppm, the most R24 allows, every ten thousandth nanosecond counts twice, or not at all, until the
offset is made up (log entry 11). -/
def slewTick (s : State) : State :=
  let t := s.dev.time
  let tm := fun (t : TimeSt) => { s.dev with time := t }
  if t.slewAge + 1 < 10000 then { s with now := s.now + 1, dev := tm { t with slewAge := t.slewAge + 1 } }
  else
    let left := t.slewLeft - 1
    { s with now := s.now + (if t.slew = 1 then 2 else 0)
             dev := tm { t with slewAge := 0, slewLeft := left, slew := if left = 0 then 0 else t.slew } }

/-- One nanosecond of an idle machine: the timebase counts once the root runs (R23, R410), a little faster or slower while it slews (R24). -/
def idle (s : State) : State :=
  if !s.dev.time.counting then s
  else if s.dev.time.slew = 0 then { s with now := s.now + 1 }
  else slewTick s

end Sys2Proof.Machine
end

