-- ==== Sys2Proof/Machine/Pages.lean ====
section
/-!
DEFINITION. Pages.lean: the common registers of every block page: PAGE_CTL, events, error log, the common commands (R29–R40), and
the refusals of R43 and R46.
-/
namespace Sys2Proof.Machine

/-- Whether PAGE_CTL's ENABLE and QUIESCE read 1 in a state (R30). -/
def BlockState.enableBit : BlockState → Bool
  | .off => false
  | _ => true
def BlockState.quiesceBit : BlockState → Bool
  | .quiescing => true
  | .quiesced => true
  | _ => false

/-- The transition that changed ENABLE and QUIESCE fields of one PAGE_CTL write request from a state, `none` where Table 3.4 lists none
(R34). `some st` with the present state: no transition is asked for. -/
def ctlTarget (st : BlockState) (en qu : Bool) : Option BlockState :=
  let chEn := en != st.enableBit
  let chQu := qu != st.quiesceBit
  match chEn, chQu with
  | false, false => some st
  | true, true => none
  | true, false => match st, en with
    | .off, true => some .idle
    | .idle, false => some .off
    | _, _ => none
  | false, true => match st, qu with
    | .running, true => some .quiescing
    | .quiesced, false => some .running
    | _, _ => none

/-- A write of PAGE_CTL (R34), once it reaches the page. -/
def Work.pageCtl (by_ : Caller) (p : Nat) (v : Word) (w : Work) : Work :=
  let g := w.page p
  let bl := bit v.toNat 2
  let lock := bl != g.bindLock && privileged by_
  match ctlTarget g.state (bit v.toNat 0) (bit v.toNat 1) with
  | none => w.dropWrite p 3 v
  | some st =>
    let w := if g.state = .off ∧ st = .idle then w.enableIdle p else w.toState p st
    let w := match g.state, g.ctx with | .quiesced, some c => if st = .running then w.thaw c else w | _, _ => w
    if lock then w.modPage p fun g => { g with bindLock := bl } else w

/-- A W1C write of PAGE_EVT (R35). -/
def Work.evtClear (p : Nat) (v : Word) (w : Work) : Work :=
  w.modPage p fun g => { g with evt := g.evt &&& ~~~v }

/-- The implemented bits of PAGE_EVT and PAGE_EVTEN (R30). -/
def evtMask : Word := 0xFFFF001F#32

/-- A write of PAGE_EVTEN; a bit enabled while already set is delivered once (R35). -/
def Work.evtenWrite (p : Nat) (v : Word) (w : Work) : Work :=
  let old := (w.page p).evten
  let new := v &&& evtMask
  let w := w.modPage p fun g => { g with evten := new }
  (List.range 32).foldl (fun w b =>
    if bit new.toNat b && !bit old.toNat b && bit (w.page p).evt.toNat b then w.deliver p b else w) w

/-- A W1C write of PAGE_ERRLOG1: VALID 1 clears VALID and MORE (R36). -/
def Work.errlogClear (p : Nat) (v : Word) (w : Work) : Work :=
  if bit v.toNat 31 then
    w.modPage p fun g => { g with log1 := BitVec.ofNat 32 (setBits (setBits g.log1.toNat 31 31 0) 10 10 0) }
  else w

/-- PAGE_ENABLE. R34: a PAGE_CTL write asking for ENABLE 1; from OFF with the domain on the page goes to IDLE with all registers reset. -/
def execPageEnable (by_ : Caller) (page : Nat) (v : Word) (s : State) : Host.Outcome State Fault Refusal :=
  .next (s.run fun w => w.access by_ page fun w => w.pageCtl by_ page v)

/-- PAGE_DISABLE. R34: a PAGE_CTL write asking for ENABLE 0; from IDLE the page goes OFF. -/
def execPageDisable (by_ : Caller) (page : Nat) (v : Word) (s : State) : Host.Outcome State Fault Refusal :=
  .next (s.run fun w => w.access by_ page fun w => w.pageCtl by_ page v)

/-- PAGE_QUIESCE. R34: a PAGE_CTL write asking for QUIESCE 1; from RUNNING the page goes to QUIESCING. -/
def execPageQuiesce (by_ : Caller) (page : Nat) (v : Word) (s : State) : Host.Outcome State Fault Refusal :=
  .next (s.run fun w => w.access by_ page fun w => w.pageCtl by_ page v)

/-- PAGE_UNQUIESCE. R34: a PAGE_CTL write asking for QUIESCE 0; from QUIESCED the page returns to RUNNING. -/
def execPageUnquiesce (by_ : Caller) (page : Nat) (v : Word) (s : State) : Host.Outcome State Fault Refusal :=
  .next (s.run fun w => w.access by_ page fun w => w.pageCtl by_ page v)

/-- PAGE_BIND_LOCK. R34: a PAGE_CTL write changing BIND_LOCK, heeded from the physical function and the KMC alone. -/
def execPageBindLock (by_ : Caller) (page : Nat) (v : Word) (s : State) : Host.Outcome State Fault Refusal :=
  .next (s.run fun w => w.access by_ page fun w => w.pageCtl by_ page v)

/-- PAGE_EVT_CLEAR. R35. -/
def execPageEvtClear (by_ : Caller) (page : Nat) (v : Word) (s : State) : Host.Outcome State Fault Refusal :=
  .next (s.run fun w => w.access by_ page fun w => w.evtClear page v)

/-- PAGE_EVTEN_WRITE. R35. -/
def execPageEvtenWrite (by_ : Caller) (page : Nat) (v : Word) (s : State) : Host.Outcome State Fault Refusal :=
  .next (s.run fun w => w.access by_ page fun w => w.evtenWrite page v)

/-- ERRLOG_CLEAR. R36. -/
def execErrlogClear (by_ : Caller) (page : Nat) (v : Word) (s : State) : Host.Outcome State Fault Refusal :=
  .next (s.run fun w => w.access by_ page fun w => w.errlogClear page v)

/-- All block types (Table 3.3): every page has a command interface (log entry 4). -/
def allTypes : List Nat :=
  [0x01, 0x02, 0x03, 0x04, 0x05, 0x06, 0x07, 0x08, 0x09, 0x10, 0x11, 0x12, 0x13, 0x14, 0x15, 0x16, 0x17, 0x18, 0x19, 0x1A, 0x1B,
    0x1C, 0x1D, 0x1E, 0x1F, 0x20, 0x21]

/-- The counters of a page whose bits are set cleared; with them MAXLAT of SPW with bit 5 (R335), SEQ_STALLNS 1 to 9 with bit 6 (R167), a Skipper's present
idle time with bit 6 (R246) and SEQ_COLLDISC with bit 7 (R362). -/
def Work.clearCounters (p m : Nat) (w : Work) : Work :=
  let w := (List.range 8).foldl (fun w n => if bit m n then w.d fun d => { d with ctrs := SMap.drop d.ctrs (p * 8 + n) } else w) w
  let w := if typeOf p = 0x19 ∧ bit m 5 then w.set p R.SPW_RTLAT_MAXLAT 0 else w
  let w := if typeOf p = 0x04 ∧ bit m 6 then
      ((List.range 9).foldl (fun (w : Work) c => w.set64 p (R.SEQ_STALLNS_LO_NS_LO.i (c + 1)) 0) w).d fun d => { d with tiers := { d.tiers with
        stalls := SMap.mod [] d.tiers.stalls p fun l => l.map fun t => { t with since := w.now } } }
    else w
  let w := if typeOf p = 0x06 ∧ bit m 6 then
      w.d fun d => { d with skp := SMap.mod {} d.skp p fun g => if g.idleFrom = 0 then g else { g with idleFrom := w.now + 1 } }
    else w
  if typeOf p = 0x04 ∧ bit m 7 then w.set p R.SEQ_COLLDISC_DISC 0 else w

/-- The common checks of NOP (R40): legal in any state except OFF. -/
def nopSpec : CmdSpec := { types := allTypes, code := 0xF0 }

/-- The common checks of CLR_COUNTERS (R40): ARG0[31:8] reserved; legal in IDLE, BOUND and QUIESCED. -/
def clrSpec : CmdSpec :=
  { types := allTypes, code := 0xF1, states := [.idle, .bound, .quiesced], resv := fun c => c.arg 0 / 256 == 0 }

/-- CMD_NOP. R40. -/
def execCmdNop (q : Issue) (s : State) : Host.Outcome State Fault Refusal :=
  .next (s.run fun w => w.command q nopSpec fun c w => w.reply c .done)

/-- CLR_COUNTERS. R40. -/
def execClrCounters (q : Issue) (s : State) : Host.Outcome State Fault Refusal :=
  .next (s.run fun w => w.command q clrSpec fun c w => (w.clearCounters c.page (c.arg 0)).reply c .done)

/-- REG_ACCESS_MISALIGNED. R43: an access that is not an aligned word reads zero, writes nothing, and logs UNKNOWN on its page, if that page exists, whoever
made it; before the device answers on BAR0 nothing is logged (R397, R399). -/
def execRegAccessMisaligned (by_ : Caller) (off bytes : Nat) (s : State) : Host.Outcome State Fault Refusal :=
  .next (s.run fun w =>
    let p := off / 4096
    if bytes = 4 ∧ off % 4 = 0 then w
    else
      let w := w.d fun d => { d with bus := 0 }
      if w.reach by_ p ≠ .ignored ∧ w.live p then w.onWay by_ p fun w => w.logOpen p none (some (off % 4096 / 4)) 0x1F 0 else w)

/-- VF_WRITE_DENIED. R46: a virtual function's write to a page it does not own is ignored and counted in CNT_VF_DENIED. -/
def execVfWriteDenied (vf off : Nat) (_v : Word) (s : State) : Host.Outcome State Fault Refusal :=
  .next (s.run fun w => if w.reach (.vf vf) (off / 4096) = .denied then w.count pciPage 0 1 else w)

/-- MSIX_VECTOR_UNMASK. R35: the host unmasks a vector; a message held pending is sent once it can be. -/
def execMsixVectorUnmask (fn vec : Nat) (s : State) : Host.Outcome State Fault Refusal :=
  .next (s.run fun w =>
    let k := fn * 2048 + vec
    let w := w.host fun h => { h with unmasked := SMap.put false h.unmasked k true }
    if SMap.at false w.dev.host.pendVec k then
      (w.host fun h => { h with pendVec := SMap.put false h.pendVec k false }).msix fn vec
    else w)

/-! ### Failures during start-up (R411) -/

/-- Some part failed. -/
def Work.suFail (w : Work) : Work := w.set (pwrPage 16) R.PWR_RSTCAUSE_SUFAIL 1

/-- A failure of what may also fail later: SUFAIL records it before ready alone. -/
def Work.earlyFail (w : Work) : Work := if w.ready then w else w.suFail

end Sys2Proof.Machine
end

