-- ==== Sys2Proof/Machine/Campion.lean ====
section
/-!
DEFINITION. Campion.lean: the maintenance arbiter (R379, R380).
-/
namespace Sys2Proof.Machine

/-- The quadrant within which an activity acts, where its scope lies in one (Table 21.5). -/
def Activity.quadrant (a : Activity) : Option Nat :=
  match a.act with
  | 1 => some (a.scope / 5)
  | 5 => some (a.scope / 4)
  | _ => none

/-- Whether two different activities are marked in Table 21.5. -/
def conflictCodes (a b : Nat) : Bool :=
  [(1, 5), (1, 6), (1, 8), (2, 6), (3, 4), (5, 6), (5, 8), (7, 8), (8, 9)].any fun e => e == (a, b) || e == (b, a)

/-- Whether two activities conflict within the scope Table 21.5 shows: an activity of package scope meets every quadrant and die. Two
instances of one activity conflict on the same scope. -/
def Activity.conflicts (a b : Activity) : Bool :=
  if a.act = b.act then a.scope == b.scope
  else conflictCodes a.act b.act &&
    (match a.act, b.act with
      | 3, 4 => a.scope == b.scope
      | 4, 3 => a.scope == b.scope
      | _, _ => match a.quadrant, b.quadrant with
        | some x, some y => x == y
        | _, _ => true)

/-- CMP_STS of HD0 as the arbiter's lists stand. -/
def Work.cmpSts (w : Work) : Work :=
  (w.set (cmpPage 0) R.CMP_STS_RUNNING w.dev.flt.running.length).set (cmpPage 0) R.CMP_STS_PENDING w.dev.flt.pendingActs.length

/-- The activity conflicts with nothing that runs and nothing that waits with an earlier stamp. -/
def Work.admissible (w : Work) (a : Activity) (earlier : List Activity) : Bool :=
  !(w.dev.flt.running.any a.conflicts) && !(earlier.any a.conflicts)

/-- The activity runs. -/
def Work.startAct (a : Activity) (w : Work) : Work :=
  ((w.flt fun f => { f with running := f.running ++ [a] }).count (cmpPage 0) 0 1).cmpSts

/-- A request for admission (R379): admitted, or held PENDING; never refused. -/
def Work.request (act scope page : Nat) (w : Work) : Bool × Work :=
  let a : Activity := { act := act, scope := scope, stamp := w.now, page := page }
  if w.admissible a w.dev.flt.pendingActs then (true, w.startAct a)
  else (false, ((w.flt fun f => { f with pendingActs := f.pendingActs ++ [a] }).count (cmpPage 0) 1 1).cmpSts)

/-- An activity that starts at once and is recorded as running (R379, R338). -/
def Work.startNow (act scope : Nat) (w : Work) : Work :=
  ((w.flt fun f => { f with running := f.running ++ [{ act := act, scope := scope, stamp := w.now, page := 0 }] }).count
    (cmpPage 0) 2 1).cmpSts

/-- An activity ends. -/
def Work.finishAct (act scope : Nat) (w : Work) : Work :=
  (w.flt fun f => { f with running := f.running.filter fun a => !(a.act == act && a.scope == scope) }).cmpSts

/-- The activity runs. -/
def Work.runs (w : Work) (act scope : Nat) : Bool := w.dev.flt.running.any fun a => a.act == act && a.scope == scope

/-- The first pending activity that may run, with those stamped before it. -/
def firstAdmissible (w : Work) : List Activity → List Activity → Option Activity
  | _, [] => none
  | before, a :: l => if w.admissible a before then some a else firstAdmissible w (before ++ [a]) l

/-- The held activity starts: it leaves the pending list, and PENDMAX keeps the longest wait in µs, saturating (R380, R381). -/
def Work.admitAct (a : Activity) (w : Work) : Work :=
  let us := min ((w.now - a.stamp) / 1000) (2 ^ 20 - 1)
  let w := w.flt fun f => { f with pendingActs := f.pendingActs.erase a }
  let w := if us > w.get (cmpPage 0) R.CMP_PENDMAX_PENDMAX then w.set (cmpPage 0) R.CMP_PENDMAX_PENDMAX us else w
  w.startAct a

/-- CAMPION_REQUEST. R379. -/
def execCampionRequest (act scope : Nat) (s : State) : Host.Outcome State Fault Refusal :=
  .next (s.run fun w => if 1 ≤ act ∧ act ≤ 9 then (w.request act scope 0).2 else w)

/-- CMP_PEND_LONG. R380: some activity has been pending longer than PENDWARN. -/
def execCmpPendLong (s : State) : Host.Outcome State Fault Refusal :=
  .next (s.run fun w =>
    let warn := w.get (cmpPage 0) R.CMP_PENDWARN_PENDWARN * 1000
    if warn != 0 && w.dev.flt.pendingActs.any (fun a => decide (w.now - a.stamp > warn)) then w.raise (cmpPage 0) 16 else w)

end Sys2Proof.Machine
end

