-- ==== Sys2Proof/Machine/Num.lean ====
section
/-!
DEFINITION. Num.lean: the number formats and the exact arithmetic of chapter 7.

A finite value is a sign, a magnitude and a power of two; sums and products of such values are exact, and every rounding is one call of
`Fmt.round`. Vector functions are computed to a precision far beyond the result's and then rounded once.
-/
namespace Sys2Proof.Machine

/-- A floating-point value: (−1)^neg × mag × 2^exp, an infinity, or NaN. -/
inductive Fv where
  | fin (neg : Bool) (mag : Nat) (exp : Int)
  | inf (neg : Bool)
  | nan
deriving DecidableEq, Repr

/-- A floating-point element format (Table 7.2). `top`: what the highest exponent field means: 0 ordinary numbers, 1 IEEE infinity and NaN,
2 NaN with all mantissa bits one alone (E4M3). -/
structure Fmt where
  ebits : Nat
  mbits : Nat
  bias : Int
  top : Nat
deriving DecidableEq, Repr

def fp32 : Fmt := ⟨8, 23, 127, 1⟩
def bf16 : Fmt := ⟨8, 7, 127, 1⟩
def fp16 : Fmt := ⟨5, 10, 15, 1⟩
def e4m3 : Fmt := ⟨4, 3, 7, 2⟩
def e5m2 : Fmt := ⟨5, 2, 15, 1⟩
def e3m2 : Fmt := ⟨3, 2, 3, 0⟩
def e2m3 : Fmt := ⟨2, 3, 1, 0⟩
def e2m1 : Fmt := ⟨2, 1, 1, 0⟩

/-- Bits of an element. -/
def Fmt.width (f : Fmt) : Nat := 1 + f.ebits + f.mbits

/-- The value an element encodes (R104). -/
def Fmt.decode (f : Fmt) (x : Nat) : Fv :=
  let neg := bit x (f.ebits + f.mbits)
  let e := bits x (f.ebits + f.mbits - 1) f.mbits
  let m := x % 2 ^ f.mbits
  let emax := 2 ^ f.ebits - 1
  if e = emax ∧ f.top = 1 then (if m = 0 then .inf neg else .nan)
  else if e = emax ∧ f.top = 2 ∧ m = 2 ^ f.mbits - 1 then .nan
  else if e = 0 then .fin neg m (1 - f.bias - f.mbits)
  else .fin neg (2 ^ f.mbits + m) (e - f.bias - f.mbits)

/-- The sign bit in place. -/
def Fmt.sign (f : Fmt) (neg : Bool) : Nat := if neg then 2 ^ (f.ebits + f.mbits) else 0

/-- Largest finite magnitude code. -/
def Fmt.maxCode (f : Fmt) : Nat :=
  match f.top with
  | 0 => 2 ^ (f.ebits + f.mbits) - 1
  | 1 => (2 ^ f.ebits - 1) * 2 ^ f.mbits - 1
  | _ => 2 ^ (f.ebits + f.mbits) - 2

/-- The canonical NaN (R111); 0 where the format has none. -/
def Fmt.nanCode (f : Fmt) : Nat :=
  match f.top with
  | 0 => 0
  | 1 => if f.mbits = 2 then 0x7F else (2 ^ f.ebits - 1) * 2 ^ f.mbits + 2 ^ (f.mbits - 1)
  | _ => 2 ^ (f.ebits + f.mbits) - 1

/-- Magnitude m × 2^e (m > 0) on the format's grid, its exponent range unbounded above: the code of the largest grid value not above it
(codes run on past the largest finite one), and the fraction of a grid step above it as numerator and denominator. -/
def Fmt.floorCode (f : Fmt) (m : Nat) (e : Int) : Nat × Nat × Nat :=
  let lg : Int := (m.log2 : Int) + e
  let emin : Int := 1 - f.bias
  let x := max lg emin
  let sh : Int := e - (x - f.mbits)
  let (q, num, den) :=
    if 0 ≤ sh then (m * 2 ^ sh.toNat, 0, 1)
    else (m / 2 ^ (-sh).toNat, m % 2 ^ (-sh).toNat, 2 ^ (-sh).toNat)
  (q + (x - emin).toNat * 2 ^ f.mbits, num, den)

/-- Round to nearest, ties to even: whether to go up from code q with a fraction num / den above it. -/
def rne (q num den : Nat) : Bool := if 2 * num = den then q % 2 == 1 else decide (2 * num > den)

/-- Stochastic rounding with a draw r (R117): up where floor(f × 2^16) > r[15:0]. -/
def stoch (r : Nat) (_q num den : Nat) : Bool := decide (num * 2 ^ 16 / den > r % 2 ^ 16)

/-- What a rounding does beyond the largest finite value. -/
inductive Over where
  | toInf | toNan | saturate
deriving DecidableEq, Repr

/-- The element nearest to a value under a rounding rule, and whether a saturating rule clamped it or turned a NaN to zero (R114). -/
def Fmt.round (f : Fmt) (up : Nat → Nat → Nat → Bool) (o : Over) : Fv → Nat × Bool
  | .nan => (f.nanCode, f.top == 0)
  | .inf neg =>
    match o with
    | .toInf => (f.sign neg + (2 ^ f.ebits - 1) * 2 ^ f.mbits, false)
    | .toNan => (f.nanCode, false)
    | .saturate => (f.sign neg + f.maxCode, true)
  | .fin neg m e =>
    if m = 0 then (f.sign neg, false)
    else
      let (q, num, den) := f.floorCode m e
      let q := if num ≠ 0 ∧ up q num den then q + 1 else q
      if q ≤ f.maxCode then (f.sign neg + q, false)
      else match o with
        | .toInf => (f.sign neg + (2 ^ f.ebits - 1) * 2 ^ f.mbits, false)
        | .toNan => (f.nanCode, false)
        | .saturate => (f.sign neg + f.maxCode, true)

/-- A value as FP32 bits, rounded to nearest even (R110, R120). -/
def toF32 (v : Fv) : Nat := (fp32.round rne .toInf v).1

/-- FP32 bits as a value. -/
def ofF32 (x : Nat) : Fv := fp32.decode x

/-- A signed magnitude as a value; zero is +0. -/
def ofIntExp (m : Int) (e : Int) : Fv := .fin (decide (m < 0)) m.natAbs e

/-- The signed mantissa of a finite value. -/
def signedMag (neg : Bool) (m : Nat) : Int := if neg then -(m : Int) else m

/-- Exact sum of finite values given as signed mantissa and exponent. -/
def sumExact (l : List (Int × Int)) : Int × Int :=
  let l := l.filter fun p => p.1 ≠ 0
  match l with
  | [] => (0, 0)
  | p :: r =>
    let e := r.foldl (fun a q => min a q.2) p.2
    (l.foldl (fun a q => a + q.1 * 2 ^ (q.2 - e).toNat) 0, e)

/-- Exact product (R110, R111). -/
def Fv.mul : Fv → Fv → Fv
  | .nan, _ => .nan
  | _, .nan => .nan
  | .inf a, .inf b => .inf (a != b)
  | .inf a, .fin b m _ => if m = 0 then .nan else .inf (a != b)
  | .fin a m _, .inf b => if m = 0 then .nan else .inf (a != b)
  | .fin a m e, .fin b n g => .fin (a != b) (m * n) (e + g)

/-- Exact sum of a list under the special rules of R111: NaN, infinities, and −0 only where every term is −0. -/
def sumFv (l : List Fv) : Fv :=
  let nan := l.any fun v => v == .nan
  let pinf := l.any fun v => v == .inf false
  let ninf := l.any fun v => v == .inf true
  if nan || (pinf && ninf) then .nan
  else if pinf then .inf false
  else if ninf then .inf true
  else
    let fs := l.filterMap fun v => match v with | .fin n m e => some (signedMag n m, e) | _ => none
    let (m, e) := sumExact fs
    if m = 0 then
      let negs := l.all fun v => match v with | .fin n m _ => n && m == 0 | _ => false
      .fin (negs && !l.isEmpty) 0 0
    else ofIntExp m e

/-- IEEE addition, multiplication and fused multiply-add of FP32 bits with one rounding (R120). -/
def f32Add (a b : Nat) : Nat := toF32 (sumFv [ofF32 a, ofF32 b])
def f32Neg (a : Nat) : Nat := if bit a 31 then a - 2 ^ 31 else a + 2 ^ 31
def f32Sub (a b : Nat) : Nat := f32Add a (f32Neg b)
def f32Mul (a b : Nat) : Nat := toF32 ((ofF32 a).mul (ofF32 b))
def f32Fma (a b c : Nat) : Nat := toF32 (sumFv [(ofF32 a).mul (ofF32 b), ofF32 c])

/-- The canonical NaN of FP32. -/
def nan32 : Nat := 0x7FC00000
/-- −∞ and +∞ of FP32. -/
def ninf32 : Nat := 0xFF800000
def pinf32 : Nat := 0x7F800000

/-- An FP32 value below another, for values that are not NaN. -/
def Fv.lt : Fv → Fv → Bool
  | .nan, _ => false
  | _, .nan => false
  | .inf a, .inf b => a && !b
  | .inf a, .fin _ _ _ => a
  | .fin _ _ _, .inf b => !b
  | .fin a m e, .fin b n g =>
    let x := min e g
    decide (signedMag a m * 2 ^ (e - x).toNat < signedMag b n * 2 ^ (g - x).toNat)

/-- MAX and MIN (R120): NaN wins; +0 is above −0. -/
def f32Max (a b : Nat) : Nat :=
  let x := ofF32 a
  let y := ofF32 b
  if x == .nan || y == .nan then nan32 else if x.lt y then b else if y.lt x then a else if bit a 31 then b else a
def f32Min (a b : Nat) : Nat :=
  let x := ofF32 a
  let y := ofF32 b
  if x == .nan || y == .nan then nan32 else if x.lt y then a else if y.lt x then b else if bit a 31 then a else b
/-- CMPGT (Table 4.9). -/
def f32Gt (a b : Nat) : Nat := if (ofF32 b).lt (ofF32 a) then 0x3F800000 else 0

/-- The pairwise tree of RSUM and RMAX: adjacent results combined, level by level (R120). -/
def treeOf (f : Nat → Nat → Nat) : Nat → List Nat → Nat
  | 0, l => l.headD 0
  | n + 1, l => treeOf f n (pairs l)
where
  pairs : List Nat → List Nat
    | a :: b :: r => f a b :: pairs r
    | r => r

/-! ### Vector functions (R121) -/

/-- Working precision of the functions, in bits. -/
def fnPrec : Nat := 256

/-- RCP (Table 7.6): the exact quotient's leading bits with a sticky bit, rounded once. -/
def f32Rcp (a : Nat) : Nat :=
  match ofF32 a with
  | .nan => nan32
  | .inf n => if n then 2 ^ 31 else 0
  | .fin n m e =>
    if m = 0 then (if n then ninf32 else pinf32)
    else
      let num := 2 ^ 80
      toF32 (.fin n (num / m * 2 + (if num % m = 0 then 0 else 1)) (-e - 81))

/-- The square root of x with n bits: r such that r² ≤ x, built from the top two bits down. -/
def sqrtBits (x : Nat) : Nat → Nat
  | 0 => 0
  | n + 1 =>
    let r := sqrtBits (x / 4) n * 2
    if (r + 1) * (r + 1) ≤ x then r + 1 else r

/-- RSQRT (Table 7.6): sqrt(2^2k / x) with a sticky bit, rounded once. -/
def f32Rsqrt (a : Nat) : Nat :=
  match ofF32 a with
  | .nan => nan32
  | .inf n => if n then nan32 else 0
  | .fin n m e =>
    if m = 0 then (if n then ninf32 else pinf32)
    else if n then nan32
    else
      let (m, e) := if e % 2 = 0 then (m, e) else (m * 2, e - 1)
      let num := 2 ^ 160
      let q := num / m
      let r := sqrtBits q 90
      toF32 (.fin false (r * 2 + (if r * r * m = num then 0 else 1)) (-(e / 2) - 81))

/-- Roots of two in fixed point with `fnPrec` fraction bits: 2^(2^−i). -/
def root2 : Nat → Nat
  | 0 => 2 * 2 ^ fnPrec
  | n + 1 => sqrtBits (root2 n * 2 ^ fnPrec) (fnPrec + 2)

/-- The product over the bits of a fraction: bit k of `fr` (of `n` bits) weighs 2^(k − n). -/
def exp2Prod (fr n : Nat) : Nat :=
  (List.range n).foldl (fun acc k => if bit fr k then acc * root2 (n - k) / 2 ^ fnPrec else acc) (2 ^ fnPrec)

/-- EXP2 (Table 7.6). -/
def f32Exp2 (a : Nat) : Nat :=
  match ofF32 a with
  | .nan => nan32
  | .inf n => if n then 0 else pinf32
  | .fin n m e =>
    let x := signedMag n m
    let lg : Int := (m.log2 : Int) + e
    if m = 0 ∨ lg < -27 then 0x3F800000
    else if lg ≥ 8 then (if n then 0 else pinf32)
    else if 0 ≤ e then toF32 (.fin false 1 (x * 2 ^ e.toNat))
    else
      let k := (-e).toNat
      let ip := x / (2 ^ k : Int)
      let fr := (x % (2 ^ k : Int)).toNat
      if fr = 0 then toF32 (.fin false 1 ip) else toF32 (.fin false (exp2Prod fr k) (ip - fnPrec))

/-- The fraction bits of log2 of a fixed-point number in [1, 2), by repeated squaring. -/
def log2Frac (y : Nat) : Nat → Nat → Nat
  | 0, acc => acc
  | n + 1, acc =>
    let y2 := y * y / 2 ^ (2 * fnPrec)
    if y2 ≥ 2 * 2 ^ (2 * fnPrec) then log2Frac (y2 / 2) n (2 * acc + 1) else log2Frac y2 n (2 * acc)

/-- LOG2 (Table 7.6). -/
def f32Log2 (a : Nat) : Nat :=
  match ofF32 a with
  | .nan => nan32
  | .inf n => if n then nan32 else pinf32
  | .fin n m e =>
    if m = 0 then ninf32
    else if n then nan32
    else
      let lg := m.log2
      let fr := log2Frac (m * 2 ^ (2 * fnPrec) / 2 ^ lg) 128 0
      let v : Int := ((lg : Int) + e) * 2 ^ 128 + fr
      toF32 (ofIntExp v (-128))

/-- Taylor sum of e^y in fixed point: Σ y^k / k!, `n` terms from term `k` on. -/
def expTaylor (y : Nat) : Nat → Nat → Nat → Nat
  | 0, _, _ => 0
  | n + 1, k, term => term + expTaylor y n (k + 1) (term * y / 2 ^ fnPrec / (k + 1))

/-- Repeated squaring in fixed point. -/
def sqN (x : Nat) : Nat → Nat
  | 0 => x
  | n + 1 => sqN (x * x / 2 ^ fnPrec) n

/-- TANH (Table 7.6): (e^2x − 1) / (e^2x + 1), the argument halved ten times before the series. -/
def f32Tanh (a : Nat) : Nat :=
  match ofF32 a with
  | .nan => nan32
  | .inf n => if n then 0xBF800000 else 0x3F800000
  | .fin n m e =>
    let lg : Int := (m.log2 : Int) + e
    if m = 0 ∨ lg < -13 then a
    else if lg ≥ 4 then (if n then 0xBF800000 else 0x3F800000)
    else
      let y := m * 2 ^ (fnPrec - 9) / 2 ^ (-e).toNat
      let y := if 0 ≤ e then m * 2 ^ e.toNat * 2 ^ (fnPrec - 9) else y
      let ex := sqN (expTaylor y 48 0 (2 ^ fnPrec)) 10
      let one := 2 ^ fnPrec
      toF32 (.fin n ((ex - one) * 2 ^ fnPrec / (ex + one)) (-fnPrec))

/-! ### Operand formats and blocks (R102–R108) -/

/-- A scale 2^(X − 127) of an E8M0 byte applied to a value; X = 0xFF is NaN (R106). -/
def scaleE8 (x : Nat) (v : Fv) : Fv :=
  if x = 0xFF then .nan
  else match v with
    | .fin n m e => .fin n m (e + x - 127)
    | v => v

/-- A two's complement element of `n` bits with weight 2^s. -/
def intElem (n : Nat) (s : Int) (x : Nat) : Fv :=
  let v := toSigned n x
  .fin (decide (v < 0)) v.natAbs s

/-- The element formats of Table 7.1: element bits, and how one decodes before any block scale. -/
def elemOf (code : Nat) : Nat × (Nat → Fv) :=
  match code with
  | 0x1 => (16, bf16.decode)
  | 0x2 => (16, fp16.decode)
  | 0x3 => (8, e4m3.decode)
  | 0x4 => (8, e5m2.decode)
  | 0x5 => (8, e4m3.decode)
  | 0x6 => (8, e5m2.decode)
  | 0x7 => (6, e2m3.decode)
  | 0x8 => (6, e3m2.decode)
  | 0x9 => (4, e2m1.decode)
  | 0xA => (8, intElem 8 (-6))
  | 0xB => (8, intElem 8 0)
  | 0xC => (4, intElem 4 0)
  | 0xD => (4, e2m1.decode)
  | 0xE => (4, e2m1.decode)
  | _ => (32, fp32.decode)

/-- The array class of a format: output rows, output columns (Table 4.1). -/
def arrayOf (code : Nat) : Nat × Nat :=
  if code = 0x1 ∨ code = 0x2 then (4, 8)
  else if code = 0x9 ∨ code = 0xC ∨ code = 0xD ∨ code = 0xE then (8, 16)
  else (8, 8)

/-- An MX format (R106). -/
def isMx (code : Nat) : Bool := decide (5 ≤ code) && decide (code ≤ 0xA)

/-- Bytes of 32 packed elements of a format. -/
def rowBytes (code : Nat) : Nat := (elemOf code).1 * 4

/-- Element k of a packed row held as a little-endian number (R105). -/
def elemAt (code row k : Nat) : Fv :=
  let (w, dec) := elemOf code
  dec (row / 2 ^ (w * k) % 2 ^ w)

/-- Storage of 256 elements of a format in bytes, scale bytes included (R93). -/
def bytes256 (code : Nat) : Nat :=
  if code = 0xE then 136 else if isMx code then 8 * (rowBytes code + 1) else (elemOf code).1 * 32

/-- The block size along the blocked entry; 1 for an unblocked format (R88). -/
def blockSize (code : Nat) : Nat := if code = 0xE then 256 else if isMx code then 32 else 1

/-- The three mixing lines of R118, modulo 2^64. -/
def mix64 (z : Nat) : Nat :=
  let z := z % 2 ^ 64
  let z := ((z ^^^ (z >>> 31)) * 0xD6E8FEB86659FD93) % 2 ^ 64
  let z := ((z ^^^ (z >>> 29)) * 0xA0F34C2157B92E6D) % 2 ^ 64
  z ^^^ (z >>> 32)

/-- The generator of stochastic rounding (R118). -/
def srDraw (key d ldie site slot lane : Nat) : Nat :=
  mix64 (key ^^^ ((d <<< 20) ||| (ldie <<< 16) ||| (site <<< 8) ||| (slot <<< 5) ||| lane)) % 2 ^ 32

/-- Conversion of one FP32 entry by a code of Table 7.4 other than 0, 12 and 13: element bits, the element, and whether it counts in
CNT_SAT. `r` is its draw. -/
def convElem (code r x : Nat) : Nat × Nat × Bool :=
  let v := ofF32 x
  match code with
  | 1 => (16, bf16.round rne .toInf v)
  | 2 => (16, fp16.round rne .toInf v)
  | 3 => (8, e4m3.round rne .toNan v)
  | 4 => (8, e4m3.round rne .saturate v)
  | 5 => (8, e5m2.round rne .toInf v)
  | 6 => (8, e5m2.round rne .saturate v)
  | 7 => (4, e2m1.round rne .saturate v)
  | 8 => (16, bf16.round (stoch r) .toInf v)
  | 9 => (8, e4m3.round (stoch r) .saturate v)
  | 10 => (8, e5m2.round (stoch r) .saturate v)
  | 11 => (4, e2m1.round (stoch r) .saturate v)
  | _ => (32, x, false)

/-- The magnitude of a value for the choice of an MX scale. -/
def maxExp (l : List Fv) : Option Int :=
  l.foldl (fun a v => match v with
    | .fin _ m e => if m = 0 then a else some (max (a.getD ((m.log2 : Int) + e)) ((m.log2 : Int) + e))
    | _ => a) none

/-- One MX block of 32 entries (R115): elements, scale byte, and how many were clamped. -/
def mxBlock (f : Fmt) (emax : Int) (xs : List Nat) : List Nat × Nat × Nat :=
  let vs := xs.map ofF32
  if vs.any (fun v => match v with | .fin _ _ _ => false | _ => true) then (vs.map fun _ => 0, 0xFF, 0)
  else match maxExp vs with
    | none => (vs.map fun v => (f.round rne .saturate v).1, 0, 0)
    | some lg =>
      let x := max (-127) (min 127 (lg - emax))
      let es := vs.map fun v => match v with
        | .fin n m e => f.round rne .saturate (.fin n m (e - x))
        | v => f.round rne .saturate v
      (es.map (·.1), (x + 127).toNat, (es.filter (·.2)).length)

/-- Elements packed into bytes as a little-endian bit stream (R105), as one number. -/
def packElems (w : Nat) : List Nat → Nat
  | [] => 0
  | x :: l => x % 2 ^ w + 2 ^ w * packElems w l

end Sys2Proof.Machine
end

