-- ==== Sys2Proof/Machine/Time.lean ====
section
/-!
DEFINITION. Time.lean: the rate monitor and the published bounds (R18–R22), and the timebase (R23–R25).
-/
namespace Sys2Proof.Machine

/-- Guaranteed wave rate at 65 °C in M waves/s for a supply in mV: the next lower row of Table 2.1 (R18). -/
def rate65 (mv : Nat) : Nat :=
  if mv ≥ 850 then 2100 else if mv ≥ 800 then 1960 else if mv ≥ 750 then 1800 else if mv ≥ 700 then 1620
  else if mv ≥ 650 then 1450 else 1250

/-- RTM_FLOOR for a supply request: the guaranteed rate at 105 °C, that is 0.15 % of it less for each of 40 °C, rounded down (R18,
R22). -/
def floorAt (mv : Nat) : Nat := rate65 mv * 94 / 100

/-- Published bounds of a die at a floor (R22, R331, R83, R80, R212, R233). -/
def preemptBound (f : Nat) : Nat := 5 * ceilDiv (19 * 1800) f
def minWindow (f : Nat) : Nat := ceilDiv (10000 * 1800) f
def loadRate (f : Nat) : Nat := 256 * f / 1800
def bumpBound (f : Nat) : Nat := ceilDiv (500 * 1800) f
def skpRate (f : Nat) : Nat := 32 * f / 1800
/-- Worst-case Hawkmoth block (R212). -/
def blockNs (f : Nat) : Nat := ceilDiv (512 * 1000) f

/-- The slowest floor of the dies on which the context of a sequencer's page holds cells and of the page's own die (Table 5.7). -/
def Work.seqFloor (w : Work) (p : Nat) : Nat :=
  let span := ((w.page p).ctx.elim [] fun c => (w.ctx c).dies).filter (· != dieOf p)
  span.foldl (fun m e => min m (w.get (rtmPage e) R.RTM_FLOOR_FLOOR)) (w.get (rtmPage (dieOf p)) R.RTM_FLOOR_FLOOR)

/-- The bounds a sequencer's page publishes, at that floor (R80). -/
def Work.setSeqBounds (p : Nat) (w : Work) : Work :=
  let f := w.seqFloor p
  (w.set p R.SEQ_LOADRATE_RATE (loadRate f)).set p R.SEQ_BUMPBOUND_BUMPNS (bumpBound f)

/-- They are published: EV_BOUND_CHANGE of the die's PWR page on a change (R21). -/
def Work.publishSeq (p : Nat) (w : Work) : Work :=
  let w' := w.setSeqBounds p
  if w'.dev.regs = w.dev.regs then w else w'.raise (pwrPage (dieOf p)) 17

/-- RTM_FLOOR of a die and every bound derived from it (Table 2.4). -/
def Work.setBounds (d f : Nat) (w : Work) : Work :=
  let w := w.set (rtmPage d) R.RTM_FLOOR_FLOOR f
  let w := w.set (pwrPage d) R.PWR_PREEMPT_BOUND_BOUND (preemptBound f)
  let w := w.set (dldPage d) R.DLD_MINWIN_MINWIN (minWindow f)
  let w := (List.range 4).foldl (fun (w : Work) i => w.setSeqBounds (seqPage d i)) w
  let w := (List.range 8).foldl (fun w i =>
    (w.set (hwkPage d i) R.HWK_FETCH_FETCH (loadRate f)).set (hwkPage d i) R.HWK_BLKNS_BLKNS (blockNs f)) w
  (List.range 32).foldl (fun w i => w.set (skpPage d i) R.SKP_RATE_RATE (skpRate f)) w

/-- The sequencers' pages of other dies whose contexts hold cells on a die. -/
def Work.spanPages (w : Work) (d : Nat) : List Nat :=
  (w.dev.pages.map (·.1)).filter fun p =>
    typeOf p == 4 && dieOf p != d && ((w.page p).ctx.any fun c => (w.ctx c).dies.contains d)

/-- Those bounds published: EV_BOUND_CHANGE where any of them changes; the pages of other dies that go by this die's floor follow (R21). -/
def Work.publish (d f : Nat) (w : Work) : Work :=
  let w' := w.setBounds d f
  let w' := if w'.dev.regs = w.dev.regs then w' else w'.raise (pwrPage d) 17
  (w'.spanPages d).foldl (fun (w : Work) p => w.publishSeq p) w'

/-- The voltage a die's floor stands on. -/
def Work.settledMv (w : Work) (d : Nat) : Nat := SMap.at 750 w.dev.pwr.settled d

/-- The bounds follow the settled voltage once the die has completed an RTM interval (R22). -/
def Work.settleAt (d mv : Nat) (w : Work) : Work :=
  let w := w.pwr fun q => { q with settled := SMap.put 750 q.settled d mv }
  if SMap.at false w.dev.pwr.rtmDone d then w.publish d (floorAt mv) else w

/-- The RTM page of the die is out of OFF. -/
def Work.rtmOn (w : Work) (d : Nat) : Bool := decide (d < 16) && w.live (rtmPage d) && (w.page (rtmPage d)).state != .off

/-- A junction temperature taken into RTM_TEMP; EV_TEMP_HIGH when it reaches 100 °C (code 400) (R20). -/
def Work.takeTemp (d temp : Nat) (w : Work) : Work :=
  let old := toSigned 12 (w.get (rtmPage d) R.RTM_TEMP_TEMP)
  let w := w.set (rtmPage d) R.RTM_TEMP_TEMP temp
  if toSigned 12 temp ≥ 400 ∧ old < 400 then w.raise (rtmPage d) 17 else w

/-- RTM_INTERVAL_END. R20, R22: the interval's measurements; EV_RATE_LOW; the first interval ends the reset floor of the die's pages. -/
def execRtmIntervalEnd (die rate temp mv : Nat) (s : State) : Host.Outcome State Fault Refusal :=
  .next (s.run fun w =>
    if w.rtmOn die then
      let p := rtmPage die
      let w := ((w.set p R.RTM_RATE_RATE rate).set p R.RTM_VOLT_VOLT mv).takeTemp die temp
      let th := w.get p R.RTM_CFG_THRESH
      let w := if th != 0 && decide (w.get p R.RTM_RATE_RATE < th) then (w.count p 0 1).raise p 16 else w
      (w.pwr fun q => { q with rtmDone := SMap.put false q.rtmDone die true }).publish die (floorAt (w.settledMv die))
    else w)

/-- RTM_TEMP_HIGH. R20: the junction temperature as the monitor reads it. -/
def execRtmTempHigh (die temp : Nat) (s : State) : Host.Outcome State Fault Refusal :=
  .next (s.run fun w => if w.rtmOn die then w.takeTemp die temp else w)

/-- RTM_CALIBRATION. R20: calibration is a maintenance activity; admitted, it runs and ends, else it waits. -/
def execRtmCalibration (die : Nat) (s : State) : Host.Outcome State Fault Refusal :=
  .next (s.run fun w =>
    if w.rtmOn die then
      if w.runs 7 die then w.finishAct 7 die else (w.request 7 die 0).2
    else w)

/-! ### Timebase -/

/-- The TMB page of HD0. -/
abbrev tmb : Nat := tmbPage 16

/-- TBCLK_LOSS. R23: the root counts from REFCLK, or without it from the always-on oscillator (R424). -/
def execTbclkLoss (s : State) : Host.Outcome State Fault Refusal :=
  .next (s.run fun w =>
    let w := w.tm fun t => { t with edges := false, qualifying := false }
    if w.get tmb R.TMB_STS_TBCLK_OK = 1 then (w.set tmb R.TMB_STS_TBCLK_OK 0).raise tmb 16 else w)

/-- TBCLK_RETURN. R23: the qualification of 1 ms starts, or a gap restarts it. -/
def execTbclkReturn (s : State) : Host.Outcome State Fault Refusal :=
  .next (s.run fun w => if w.get tmb R.TMB_STS_TBCLK_OK = 1 then w else w.tm fun t => { t with edges := true, qualifying := true })

/-- TBCLK_QUALIFIED. R23: TBCLK_OK is set again and the root counts from TBCLK, without a step and without an event. -/
def execTbclkQualified (s : State) : Host.Outcome State Fault Refusal :=
  .next (s.run fun w =>
    if w.dev.time.qualifying then (w.tm fun t => { t with qualifying := false }).set tmb R.TMB_STS_TBCLK_OK 1 else w)

/-- The measured offset ((t2 − t1) − (t4 − t3)) / 2 in ns; a half is rounded towards zero (R23). -/
def tbOffset (t1 t2 t3 t4 : DWord) : Int :=
  (((t2.toNat : Int) - t1.toNat) - ((t4.toNat : Int) - t3.toNat)).tdiv 2

/-- TMB_STS.OFFSET: signed ns, saturated at ±32 767 (R25). -/
def offsetField (o : Int) : Nat := ofSigned 16 (max (-32767) (min 32767 o))

/-- A context exists, or a Speedwell frame runs (R24). -/
def Work.timeInUse (w : Work) : Bool := w.dev.ctxs.any (fun e => e.2.state != .none) || w.dev.spw.running

/-- One completed exchange of a follower (R24). The offset is the follower's time less its neighbour's. Before first lock the
follower steps once where it may at the first exchange it completes; later it slews, locks after eight exchanges within 10 ns, and loses lock beyond 2 µs. -/
def Work.exchange (o : Int) (w : Work) : Work :=
  let w := (w.set tmb R.TMB_STS_OFFSET (offsetField o)).count tmb 1 1
  let t := w.dev.time
  let may := !t.stepped && !t.everLocked && (!w.timeInUse || decide (o < 0))
  if may then
    { (w.tm fun t => { t with stepped := true, good := if o.natAbs ≤ 10 then 1 else 0, slew := 0, slewLeft := 0 }).count tmb 2 1 with
      now := ((w.now : Int) - o).toNat % 2 ^ 64 }
  else
    let good := if o.natAbs ≤ 10 then t.good + 1 else 0
    let slew := if o = 0 then 0 else if o < 0 then 1 else 2
    let w := w.tm fun t => { t with stepped := true, good := min good 8, slew := slew, slewLeft := o.natAbs }
    if w.get tmb R.TMB_STS_LOCKED = 1 then
      if o.natAbs > 2000 then ((w.tm fun t => { t with good := 0 }).set tmb R.TMB_STS_LOCKED 0).raise tmb 17 else w
    else if good ≥ 8 then (w.tm fun t => { t with everLocked := true }).set tmb R.TMB_STS_LOCKED 1
    else w

/-- The port that time comes from; 0 on a master and where UPSTREAM names none (codes 9 to 15 are reserved: log entry 14). -/
def Work.upstream (w : Work) : Nat :=
  let u := w.get tmb R.TMB_CTL_UPSTREAM
  if w.get tmb R.TMB_CTL_MASTER = 1 ∨ 8 < u then 0 else u

/-- The GYL page behind a port code of UPSTREAM: 1–4 mesh N, E, S, W; 5–8 rack X0–X3 (R25). -/
def tbPort (n : Nat) : Nat := if n ≤ 4 then gylPage (n - 1) 0 else gylPage (n - 5) 1

/-- Every neighbour reached over an UP port other than the one the time comes from (R25). -/
def Work.downstream (w : Work) (from_ : Nat) : List Nat :=
  ([1, 2, 3, 4, 5, 6, 7, 8] : List Nat).filter fun n => decide (n ≠ from_) && w.get (tbPort n) R.GYL_STS_LSTATE == 2

/-- TB_EXCHANGE. R23, R24, TMB_MSG_PERIOD: a period has passed since the last exchange. This package sends each downstream neighbour its time at t1, and, as
a follower, ends the exchange with its own upstream neighbour, to which it has replied at t3; its own stamps are the middle ones. -/
def execTbExchange (t1 t2 t3 t4 : DWord) (s : State) : Host.Outcome State Fault Refusal :=
  .next (s.runTime fun w =>
    if !w.dev.time.counting ∨ w.now < w.dev.time.lastMsg + 1000 * w.get tmb R.TMB_MSG_PERIOD_PERIOD then w
    else
      let u := w.upstream
      let w := w.tm fun t => { t with lastMsg := w.now }
      let w := (w.downstream u).foldl (fun (w : Work) n => w.send (.tbTime n w.now)) w
      if u = 0 then w
      else
        let w := (w.send (.tbTime u t3.toNat)).exchange (tbOffset t1 t2 t3 t4)
        w.tm fun t => { t with lastMsg := w.now })

/-- TIME_MESSAGE. R24: a master ignores it and counts it; a follower takes it on its upstream port. -/
def execTimeMessage (port : Nat) (t1 t2 t3 t4 : DWord) (s : State) : Host.Outcome State Fault Refusal :=
  .next (s.runTime fun w =>
    if w.get tmb R.TMB_CTL_MASTER = 1 then w.count tmb 0 1
    else if port ≠ 0 ∧ w.upstream = port then
      let w := (w.send (.tbTime port t3.toNat)).exchange (tbOffset t1 t2 t3 t4)
      w.tm fun t => { t with lastMsg := min t.lastMsg w.now }
    else w)

/-- Step messages to every downstream neighbour (R25). -/
def Work.sendSteps (from_ diff : Nat) (w : Work) : Work :=
  (w.downstream from_).foldl (fun w n => w.send (.tbStep n diff)) w

/-- The common checks of SET_TIME (R25): the TMB page of HD0 alone has the command. -/
def setTimeSpec : CmdSpec := { types := [0x1C], code := 0x01, resv := fun c => dieOf c.page == 16 }

/-- SET_TIME's own checks in their order (R25). -/
def setTimeChecks (c : Call) (w : Work) : List (Bool × Status) :=
  [((w.page c.page).state != .idle || w.get tmb R.TMB_CTL_UPSTREAM != 0, .state), (decide (c.arg64 0 < w.now), .shape)]

/-- SET_TIME. R25. -/
def execSetTime (q : Issue) (s : State) : Host.Outcome State Fault Refusal :=
  .next (s.runTime fun w => w.command q setTimeSpec fun c w =>
    w.checked c (setTimeChecks c w) fun w =>
      let diff := c.arg64 0 - w.now
      let w := { w with now := c.arg64 0 }.count tmb 2 1
      let w := if w.get tmb R.TMB_CTL_MASTER = 1 then w.sendSteps 0 diff else w
      w.reply c .done)

/-- TB_STEP_MESSAGE. R25: a locked follower adds the difference and passes it on; LOCKED stays set. CNT_TB_STEP counts the steps "taken under R24 and by
SET_TIME"; whether that takes in the step a follower adds is open, and the model does not count it (DESIGN CHOICE, log entry 11). -/
def execTbStepMessage (port : Nat) (diff : DWord) (s : State) : Host.Outcome State Fault Refusal :=
  .next (s.runTime fun w =>
    if port ≠ 0 ∧ w.upstream = port ∧ w.get tmb R.TMB_STS_LOCKED = 1 then
      { w with now := w.now + diff.toNat }.sendSteps port diff.toNat
    else w)

end Sys2Proof.Machine
end

