-- ==== Sys2Proof/Machine/Fabric.lean ====
section
/-!
DEFINITION. Fabric.lean: sites, queues, switches, steering units and the fold schedule (R47–R57, R62–R65).
-/
namespace Sys2Proof.Machine

/-! ### Sites -/

/-- The key of a site of a die. -/
def siteKey (d site : Nat) : Nat := d * 256 + site
/-- The key of a slot of a site. -/
def slotKey (d site slot : Nat) : Nat := (d * 256 + site) * 8 + slot
/-- A memory cell stands at a site of an odd row (R47). -/
def isMc (site : Nat) : Bool := site / 16 % 2 == 1
/-- CC instance 8r + c, MC instance 8(r − 1) + c (R47). -/
def cellInst (site : Nat) : Nat := if isMc site then 8 * (site / 16 - 1) + site % 16 else 8 * (site / 16) + site % 16
/-- The page of the cell at a site. -/
def cellPage (d site : Nat) : Nat := if isMc site then mcPage d (cellInst site) else ccPage d (cellInst site)
/-- The site of a cell's page. -/
def siteOf (p : Nat) : Nat :=
  let i := (blockOf p).2
  if typeOf p = 2 then (i / 16 * 2 + 1) * 16 + i % 16 else i / 16 * 2 * 16 + i % 16
/-- The cell group of a site (R47). -/
def groupOf (site : Nat) : Nat := site / 64 * 4 + site % 16 / 4

/-- The fabric changed. -/
def Work.fab (f : Fabric → Fabric) (w : Work) : Work := w.d fun d => { d with fab := f d.fab }
def Work.site (w : Work) (k : Nat) : Site := SMap.at {} w.dev.fab.sites k
def Work.modSite (k : Nat) (f : Site → Site) (w : Work) : Work := w.fab fun x => { x with sites := SMap.mod {} x.sites k f }
def Work.slot (w : Work) (k : Nat) : Slot := SMap.at {} w.dev.fab.slots k
def Work.modSlot (k : Nat) (f : Slot → Slot) (w : Work) : Work := w.fab fun x => { x with slots := SMap.mod {} x.slots k f }
/-- What the configuration commands keep of a context. -/
def Work.cfg (w : Work) (c : Nat) : CfgCtx := SMap.at {} w.dev.cfg c
def Work.modCfg (c : Nat) (f : CfgCtx → CfgCtx) (w : Work) : Work := w.d fun d => { d with cfg := SMap.mod {} d.cfg c f }

/-- The context that owns a site. -/
def Work.siteCtx (w : Work) (d site : Nat) : Option Nat := (w.page (cellPage d site)).ctx

/-- The cell fires: its page is RUNNING and so is its context (R67). -/
def Work.cellRuns (w : Work) (d site : Nat) : Bool :=
  decide (d < 16) && decide (site < 256) && (w.page (cellPage d site)).state == .running &&
    (match w.siteCtx d site with | some c => (w.ctx c).state == .running | none => false)

/-- Handshakes on the links still complete while the cell is QUIESCING (R67). -/
def Work.linkRuns (w : Work) (d site : Nat) : Bool :=
  decide (d < 16) && decide (site < 256) &&
    ((w.page (cellPage d site)).state == .running || (w.page (cellPage d site)).state == .quiescing)

/-- A completed handshake of a unit of a context on a die: the deadlock window starts afresh (R83). -/
def Work.handshake (d : Nat) (c : Option Nat) (w : Work) : Work :=
  match c with
  | some c => w.fab fun x => { x with lastHs := SMap.put 0 x.lastHs (d * 256 + c) w.now }
  | none => w

/-! ### Queues (R52, R53, R63) -/

/-- Entries of a bank of a network: 8 flits, 16 words, 32 tokens (Table 4.2). -/
def bankCap (net : Nat) : Nat := match net with | 0 => 8 | 1 => 16 | _ => 32

/-- A queue bank of a slot; bank = network × 4 + input. -/
def Slot.bank (s : Slot) (b : Nat) : List Xfer := SMap.at [] s.banks b
def Slot.setBank (b : Nat) (l : List Xfer) (s : Slot) : Slot := { s with banks := SMap.put [] s.banks b l }
/-- Entries of a bank in the spill area. -/
def Slot.spilled (s : Slot) (b : Nat) : List Xfer := SMap.at [] s.spill b
def Slot.setSpill (b : Nat) (l : List Xfer) (s : Slot) : Slot := { s with spill := SMap.put [] s.spill b l }
/-- An output's staging; output = network × 2 + number. -/
def Slot.out (s : Slot) (o : Nat) : List Xfer := SMap.at [] s.outs o
def Slot.setOut (o : Nat) (l : List Xfer) (s : Slot) : Slot := { s with outs := SMap.put [] s.outs o l }

/-- A transfer's epoch is stale at a unit: it is neither the epoch the unit has taken nor the one its context is being bumped to (R63, R78;
log entry 17). -/
def Work.stale (w : Work) (d site : Nat) (e : Nat) : Bool :=
  e != (w.site (siteKey d site)).epoch &&
    (match w.siteCtx d site with
      | some c => (w.cfg c).bumpTo != e + 1
      | none => true)

/-- The GO token of the last nest issue on its entry has been popped or discarded (R95). -/
def Work.goGone (c : Option Nat) (x : Xfer) (w : Work) : Work :=
  match c with
  | some c =>
    if x.go = 0 then w
    else w.modCfg c fun g => { g with gos := g.gos.modify (x.go - 1) fun e => if e.epoch = x.epoch then { e with inFlight := false } else e }
  | none => w

/-- A stale transfer discarded at a cell: CNT_STALE_TOKEN and EV_STALE (R63). -/
def Work.discardCell (d site : Nat) (x : Xfer) (w : Work) : Work :=
  ((w.goGone (w.siteCtx d site) x).count (cellPage d site) 4 1).raise (cellPage d site) 17

/-- A stale transfer discarded at a switch or steering unit: CNT_STALE_TOKEN of its page. -/
def Work.discardSwt (d site : Nat) (w : Work) : Work := w.count (swtPage d site) 1 1

/-- Spill space of a context's entries on a die, in bytes: 136, 8 or 4 per transfer, each bank rounded up to 64 and charged 64 more (R85). -/
def spillBytes (net n : Nat) : Nat := n * (match net with | 0 => 136 | 1 => 8 | _ => 4)
def bankCharge (net n : Nat) : Nat := if n = 0 then 0 else ceilDiv (spillBytes net n) 64 * 64 + 64

/-- Spill space in use by context c on die d. -/
def Work.spillUsed (w : Work) (d c : Nat) : Nat :=
  w.dev.fab.slots.foldl (fun a e =>
    if e.1 / 2048 = d ∧ w.siteCtx d (e.1 / 8 % 256) = some c then
      a + e.2.spill.foldl (fun b q => b + bankCharge (q.1 / 4) q.2.length) 0
    else a) 0

/-- The spill area of context c on one die, in bytes (R85, R323). -/
def Work.spillRoom (w : Work) (c : Nat) : Nat := (w.ctx c).spillSz * 1024

/-- A transfer offered to a bank: discarded if stale, appended, appended to the spill area of a spill-extended bank, or left where it
waits (R53, R63, R84, R85). Answers whether it was taken. -/
def Work.offer (d site slot b : Nat) (x : Xfer) (w : Work) : Bool × Work :=
  let k := slotKey d site slot
  let s := w.slot k
  let c := w.siteCtx d site
  if w.stale d site x.epoch then (true, (w.handshake d c).discardCell d site x)
  else
    let sp := s.spilled b
    if sp.isEmpty then
      if (s.bank b).length < bankCap (b / 4) then
        (true, (w.handshake d c).modSlot k fun s => s.setBank b (s.bank b ++ [x]))
      else (false, w)
    else
      match c with
      | some c' =>
        let more := bankCharge (b / 4) (sp.length + 1) - bankCharge (b / 4) sp.length
        if w.spillUsed d c' + more ≤ w.spillRoom c' then
          (true, (w.handshake d c).modSlot k fun s => s.setSpill b (s.spilled b ++ [x]))
        else (false, w)
      | none => (false, w)

/-- A bank copied to the spill area and emptied: what it held goes before what is there of it (R84). -/
def Work.spillBank (d b : Nat) (w : Work) : Work :=
  let k := b / 16
  let n := b % 16
  let l := (w.slot k).bank n
  let w := w.modSlot k fun s => (s.setSpill n (l ++ s.spilled n)).setBank n []
  let w := (w.count (dldPage d) 1 1).count (dldPage d) 2 (spillBytes (n / 4) l.length)
  w.handshake d (w.siteCtx d (k / 8 % 256))

/-- Banks of a cell that are being spilled are spilled before its context leaves the cell. -/
def Work.spillPending (p : Nat) (w : Work) : Work :=
  let d := dieOf p
  if typeOf p ≠ 1 ∧ typeOf p ≠ 2 then w
  else
    let l := (SMap.at [] w.dev.fab.spilling d).filter fun b => b / 128 == siteKey d (siteOf p)
    if l.isEmpty then w
    else
      let w := l.foldl (fun (w : Work) b => w.spillBank d b) w
      w.fab fun f => { f with spilling := SMap.mod [] f.spilling d fun x => x.filter fun b => !l.contains b }

/-! ### Confirmation of a drain (R79) -/

/-- The switches of a context hold no transfer and no steering state of slots of a mask (R79). -/
def Work.switchesClear (w : Work) (c mask : Nat) : Bool :=
  w.dev.fab.sites.all fun e =>
    if w.siteCtx (e.1 / 256) (e.1 % 256) = some c then
      (e.2.stage.all fun x => !bit mask (x.1 / 48)) && (e.2.steer.all fun x => !bit mask (x.1 / 6)) &&
        (e.2.steerOut.all fun x => !bit mask (x.1 / 4))
    else true

/-- EV_DRAINED where its conditions hold (R79), on the page that issued the DRAIN; for a context with several SEQ pages the manual names none (DESIGN CHOICE,
log entry 122). A slot waited for leaves LIVE and DRAINING through DRAINED or HALTED, after which it may be loaded again, or is loaded before that, and then
the event is never raised for that drain (R81). -/
def Work.checkDrained (c : Nat) (w : Work) : Work :=
  let g := w.cfg c
  if g.waiting ∧ !g.cutOff ∧ g.inject.isEmpty ∧ (g.waitSlots.all fun k => (w.slot k).st != .live && (w.slot k).st != .draining) ∧
      w.switchesClear c (g.waitSlots.foldl (fun m k => m ||| 2 ^ (k % 8)) 0) ∧
      (!g.waitSlots.isEmpty ∨ (w.page (g.drainPage - 1)).outst.isNone) then
    (w.modCfg c fun g => { g with waiting := false, drained := true }).raise (g.drainPage - 1) 16
  else w

/-- The same for the context of a site. -/
def Work.checkDrainedAt (d site : Nat) (w : Work) : Work :=
  match w.siteCtx d site with
  | some c => if (w.cfg c).waiting then w.checkDrained c else w
  | none => w

/-- Token tags (Table 4.10). -/
def tagNull : Nat := 0x00
def tagPredT : Nat := 0x20
def tagPredF : Nat := 0x21
def tagDrain : Nat := 0x30
def tagFence : Nat := 0x31
/-- The tag of a control transfer. -/
def Xfer.tag (x : Xfer) : Nat := x.data % 256
/-- A tag that Table 4.10 does not reserve. -/
def tagKnown (t : Nat) : Bool :=
  t ≤ 2 || (decide (0x10 ≤ t) && decide (t ≤ 0x15)) || t == 0x20 || t == 0x21 || t == 0x30 || t == 0x31 || t == 0x3F
/-- A system tag (R62). -/
def tagSystem (t : Nat) : Bool := decide (0x30 ≤ t) && decide (t ≤ 0x3F)

/-! ### Switches (R55, R57) -/

/-- The keys of a site's tables. -/
def stageKey (slot net out : Nat) : Nat := (slot * 3 + net) * 16 + out
def steerKey (slot net which : Nat) : Nat := (slot * 2 + net) * 3 + which
def steerOutKey (slot net out : Nat) : Nat := (slot * 2 + net) * 2 + out

def Site.route (s : Site) (slot word : Nat) : Nat := SMap.at 0 s.routes (slot * 4 + word)
def Site.staged (s : Site) (k : Nat) : List Xfer := SMap.at [] s.stage k
def Site.setStage (k : Nat) (l : List Xfer) (s : Site) : Site := { s with stage := SMap.put [] s.stage k l }
def Site.held (s : Site) (k : Nat) : List Xfer := SMap.at [] s.steer k
def Site.setHeld (k : Nat) (l : List Xfer) (s : Site) : Site := { s with steer := SMap.put [] s.steer k l }
def Site.sout (s : Site) (k : Nat) : List Xfer := SMap.at [] s.steerOut k
def Site.setSout (k : Nat) (l : List Xfer) (s : Site) : Site := { s with steerOut := SMap.put [] s.steerOut k l }

/-- The outputs of a network that select a source in a slot: 0–3 N, E, S, W; 4–7 cell inputs; 8–9 the steering inputs the network feeds:
A and B of its own unit, or, on the control network, C of the vector unit and of the scalar unit (R57). -/
def Site.selecting (s : Site) (slot net src : Nat) : List Nat :=
  let r := s.route slot net
  let st := s.route slot 3
  let base := (List.range 8).filter fun i => bits r (4 * i + 3) (4 * i) == src
  let u := fun off lo => if bits st (off + lo + 3) (off + lo) = src then true else false
  base ++
    (match net with
      | 0 => (if u 0 3 then [8] else []) ++ (if u 0 7 then [9] else [])
      | 1 => (if u 16 3 then [8] else []) ++ (if u 16 7 then [9] else [])
      | _ => (if u 0 11 then [8] else []) ++ (if u 16 11 then [9] else []))

/-- The switch behind direction 0 N, 1 E, 2 S, 3 W of a site: die, site, and whether a die edge lies between (R55). -/
def beyond (d site dir : Nat) : Option (Nat × Nat × Bool) :=
  let r := site / 16
  let c := site % 16
  match dir with
  | 0 => if r = 0 then (neighbour d 1).map fun n => (n, 240 + c, true) else some (d, site - 16, false)
  | 1 => if c = 15 then (neighbour d 2).map fun n => (n, r * 16, true) else some (d, site + 1, false)
  | 2 => if r = 15 then (neighbour d 3).map fun n => (n, c, true) else some (d, site + 16, false)
  | _ => if c = 0 then (neighbour d 4).map fun n => (n, r * 16 + 15, true) else some (d, site - 1, false)

/-- A transfer crossing the neighbour link of a die in direction 0–3 towards die t: counted on the edge switch; on the link, or, where the link is
removed, as a detour through the hubs (R13, R57). -/
def Work.crossEdge (d site dir t : Nat) (w : Work) : Work :=
  let w := w.count (swtPage d site) 2 1
  if w.removed d (dir + 1) then (w.count (ddlPage d (dir + 1)) 5 1).onLinks (w.hubWay d t) 1
  else w.onLinks (some [(d, dir + 1)]) 1

/-- The transfer waiting at a switch input: source codes 1–4 the neighbours, 5–6 the cell's outputs, 7–8 the steering outputs (R57). -/
def Work.atInput (w : Work) (d site net src slot : Nat) : Option Xfer :=
  if 1 ≤ src ∧ src ≤ 4 then
    match beyond d site (src - 1) with
    | some (nd, ns, _) => ((w.site (siteKey nd ns)).staged (stageKey slot net ((src + 1) % 4))).head?
    | none => none
  else if src = 5 ∨ src = 6 then ((w.slot (slotKey d site slot)).out (net * 2 + (src - 5))).head?
  else if (src = 7 ∨ src = 8) ∧ net < 2 then ((w.site (siteKey d site)).sout (steerOutKey slot net (src - 7))).head?
  else none

/-- It leaves the input; over a die edge the handshake is one of both dies (R83). -/
def Work.leaveInput (d site net src slot : Nat) (w : Work) : Work :=
  if 1 ≤ src ∧ src ≤ 4 then
    match beyond d site (src - 1) with
    | some (nd, ns, edge) =>
      let k := stageKey slot net ((src + 1) % 4)
      let w := w.modSite (siteKey nd ns) fun s => s.setStage k (s.staged k).tail
      if edge then (w.handshake nd (w.siteCtx nd ns)).crossEdge nd ns ((src + 1) % 4) d else w
    | none => w
  else if src = 5 ∨ src = 6 then
    w.modSlot (slotKey d site slot) fun s => s.setOut (net * 2 + (src - 5)) (s.out (net * 2 + (src - 5))).tail
  else w.modSite (siteKey d site) fun s => s.setSout (steerOutKey slot net (src - 7)) (s.sout (steerOutKey slot net (src - 7))).tail

/-- SWITCH_FORWARD. R55: the transfer is delivered to every selecting output that is free, and leaves the input when all have accepted it. A transfer over
a die edge that finds no way is a contained fault (R13). -/
def execSwitchForward (die site net src slot : Nat) (s : State) : Host.Outcome State Fault Refusal :=
  .next (s.run fun w => Work.ended (cellPage die site) <| Work.checkDrainedAt die site <|
    let k := siteKey die site
    let gk := stageKey slot net src
    let sel := (w.site k).selecting slot net src
    match w.linkRuns die site && decide (net < 3) && decide (slot < 8) && src != 0 && !sel.isEmpty, w.atInput die site net src slot with
    | true, some x =>
      let free := sel.filter fun o =>
        !bit (SMap.at 0 (w.site k).given gk) o && ((w.site k).staged (stageKey slot net o)).isEmpty &&
          (decide (4 ≤ o) || (beyond die site o).isSome)
      let w := free.foldl (fun w o => w.modSite k fun t =>
        { t.setStage (stageKey slot net o) [x] with given := SMap.mod 0 t.given gk (· + 2 ^ o) }) w
      let w := if free.isEmpty then w else w.handshake die (w.siteCtx die site)
      if sel.all fun o => bit (SMap.at 0 (w.site k).given gk) o then
        (w.modSite k fun t => { t with given := SMap.put 0 t.given gk 0 }).leaveInput die site net src slot
      else w
    | _, _ => w)

/-- Room of a steering input: A and B hold one transfer per slot, C four tokens (R56). -/
def steerCap (which : Nat) : Nat := if which = 2 then 4 else 1

/-- TRANSFER_ARRIVE. R63, R66: a switch output's staging register hands its transfer to the cell or steering input it feeds; a stale one is
discarded at once; a reserved tag at a cell is a contained fault. -/
def execTransferArrive (die site net out slot : Nat) (s : State) : Host.Outcome State Fault Refusal :=
  .next (s.run fun w => Work.checkDrainedAt die site <|
    let k := siteKey die site
    let sk := stageKey slot net out
    match w.linkRuns die site && decide (net < 3) && decide (slot < 8), (w.site k).staged sk with
    | true, x :: rest =>
      let gone := fun (w : Work) => w.modSite k fun t => t.setStage sk rest
      if 4 ≤ out ∧ out ≤ 7 then
        if net = 2 && !tagKnown x.tag && !w.stale die site x.epoch then
          match w.siteCtx die site with
          | some c => (gone w).ctxFault c (cellPage die site) 0x42 none
          | none => gone w
        else
          match w.offer die site slot (net * 4 + (out - 4)) x with
          | (true, w) => gone w
          | (false, w) => w
      else if out = 8 ∨ out = 9 then
        let (unit, which) := if net = 2 then (out - 8, 2) else (net, out - 8)
        let hk := steerKey slot unit which
        if w.stale die site x.epoch then (gone (w.handshake die (w.siteCtx die site))).discardSwt die site
        else if ((w.site k).held hk).length < steerCap which then
          gone ((w.handshake die (w.siteCtx die site)).modSite k fun t => t.setHeld hk (t.held hk ++ [x]))
        else w
      else w
    | _, _ => w)

/-- The mode and INV of a steering unit in a slot (R57). -/
def Site.steerMode (s : Site) (slot net : Nat) : Nat × Bool :=
  let v := s.route slot 3
  (bits v (16 * net + 2) (16 * net), bit v (16 * net + 15))

/-- Stale heads of a steering unit's holdings discarded (R63). -/
def Work.purgeSteer (d site slot net : Nat) (w : Work) : Work :=
  (List.range 3).foldl (fun w which =>
    let k := siteKey d site
    let hk := steerKey slot net which
    let l := (w.site k).held hk
    let keep := l.dropWhile fun x => w.stale d site x.epoch
    if keep.length = l.length then w
    else (w.modSite k fun t => t.setHeld hk keep).count (swtPage d site) 1 (l.length - keep.length)) w

/-- What a steering unit does on a predicate (Table 4.3): whether it takes from A and from B, and the output each datum goes to (2: discarded). -/
def steerAct (mode : Nat) (p : Bool) : Option (Option Nat × Option Nat) :=
  match mode, p with
  | 1, true => some (some 0, none)
  | 1, false => some (some 1, none)
  | 2, true => some (some 0, none)
  | 2, false => some (some 2, none)
  | 3, true => some (some 0, none)
  | 3, false => some (none, some 0)
  | 4, true => some (some 0, some 2)
  | 4, false => some (some 2, some 0)
  | _, _ => none

/-- STEER_FIRE. R56: the unit acts on its next token. What is of an epoch that it has not taken yet waits (R63, log entry 17). -/
def execSteerFire (die site net slot : Nat) (s : State) : Host.Outcome State Fault Refusal :=
  .next (s.run fun w => Work.checkDrainedAt die site <|
    if w.cellRuns die site && decide (net < 2) && decide (slot < 8) then
      let w := w.purgeSteer die site slot net
      let k := siteKey die site
      let ck := steerKey slot net 2
      let t := w.site k
      match t.held ck with
      | [] => w
      | x :: rest =>
        if x.epoch ≠ t.epoch then w
        else
        let take := fun (w : Work) => w.modSite k fun t => t.setHeld ck rest
        let tag := x.tag
        if !tagKnown tag || tag = 0x3F then
          match w.siteCtx die site with
          | some c => (take w).ctxFault c (swtPage die site) 0x42 none
          | none => take w
        else if tag = tagDrain ∨ tag = tagFence then take w
        else if tag ≠ tagPredT ∧ tag ≠ tagPredF then (take w).count (swtPage die site) 0 1
        else
          let (mode, inv) := t.steerMode slot net
          match steerAct mode ((tag == tagPredT) != inv) with
          | none => w
          | some (a, b) =>
            let ha := t.held (steerKey slot net 0)
            let hb := t.held (steerKey slot net 1)
            let there := fun (l : List Xfer) => l.head?.any fun x => x.epoch == t.epoch
            let ready := (a.isNone || there ha) && (b.isNone || there hb) &&
              (match a with | some o => decide (o = 2) || (t.sout (steerOutKey slot net o)).isEmpty | none => true) &&
              (match b with | some o => decide (o = 2) || (t.sout (steerOutKey slot net o)).isEmpty | none => true)
            if ready then
              let put := fun (o : Option Nat) (l : List Xfer) (i : Nat) (t : Site) =>
                match o with
                | some o =>
                  let t := t.setHeld (steerKey slot net i) l.tail
                  if o < 2 then t.setSout (steerOutKey slot net o) (l.take 1) else t
                | none => t
              ((take w).modSite k fun t => put b hb 1 (put a ha 0 t)).handshake die (w.siteCtx die site)
            else w
    else w)

end Sys2Proof.Machine
end

