-- ==== Sys2Proof/Machine/Tiers.lean ====
section
/-!
DEFINITION. Tiers.lean: where a local address lies, who may reach it, tier-1 and tier-2 lines with their poison, and stalls
(R41–R44, R144–R158, R165–R167).
-/
namespace Sys2Proof.Machine

/-! ### Bindings (R316) -/

def kCG : Nat := 1
def kSEQ : Nat := 2
def kHWK : Nat := 3
def kSKP : Nat := 4
def kTSL : Nat := 5
def kT1 : Nat := 6
def kT2 : Nat := 7
def kLINK : Nat := 8
def kRQB : Nat := 9
def kRING : Nat := 10
def kROLE : Nat := 11

/-- The partition to which a resource is bound. -/
def Work.owner (w : Work) (kind ix : Nat) : Option Nat :=
  match SMap.at 0 w.dev.bnd.owner (kind * 4096 + ix) with
  | 0 => none
  | n + 1 => some n

/-- A granule is ZEROING (R320). -/
def Work.zeroing (w : Work) (tier2 : Bool) (g : Nat) : Bool := SMap.at false w.dev.bnd.zeroing (g + if tier2 then 4096 else 0)

/-! ### The local address map (R41) -/

def gib : Nat := 2 ^ 30
def t1Size : Nat := 960 * gib
def t2Base : Nat := 0x100000000000
def t2End : Nat := 0x200000000000
def rsBase : Nat := 0x200000000000
def regBase : Nat := 0x3F0000000000
def t3Base : Nat := 0x400000000000
def t3End : Nat := 0x800000000000

/-- The HBC page of a stack 0–19, and the stack of a tier-1 address (R145). -/
def stackPage (s : Nat) : Nat := hbcPage (s / 5) (s % 5)
def stackOf (a : Nat) : Nat :=
  let q := a / (240 * gib)
  5 * q + (a - q * (240 * gib)) / 512 % 5

/-- The stack offset of a tier-1 address (R145). -/
def stackOffset (a : Nat) : Nat :=
  let r := a % (240 * gib)
  r / 512 / 5 * 512 + r % 512

/-- A tier-1 granule's quadrant has all its stacks in tier 1 (R148). -/
def Work.t1Present (w : Work) (g : Nat) : Bool :=
  decide (g < 960) && (List.range 5).all fun i => w.get (hbcPage (g / 240) i) R.MEM_STS_INSET == 1

/-- The BKC page of a channel 0–15. -/
def chanPage (ch : Nat) : Nat := bkcPage (ch / 4) (ch % 4)

/-- The channels of the tier-2 set, in order (R149). -/
def setChans (code : Nat) : List Nat :=
  if code = 0 then List.range 16
  else if code = 1 then (List.range 8).map (2 * ·)
  else if code = 2 then (List.range 8).map (2 * · + 1)
  else if code ≤ 6 then (List.range 4).map (4 * · + (code - 3))
  else []

/-- The tier-2 set of the package. -/
def Work.t2Set (w : Work) : List Nat := (List.range 16).filter fun ch => w.get (chanPage ch) R.MEM_STS_INSET == 1
/-- Tier-2 capacity in GiB (R149). -/
def Work.t2Cap (w : Work) : Nat := (w.t2Set).foldl (fun a ch => a + w.get (chanPage ch) R.MEM_STS_CAPG) 0

/-- The channel of a tier-2 address, and its offset in the channel (R151): unit u of 4 KiB lies on the channel at position u mod N of the set. -/
def Work.chanOf (w : Work) (a : Nat) : Nat :=
  let l := w.t2Set
  l.getD ((a - t2Base) / 4096 % l.length) 0
def Work.chanOffset (w : Work) (a : Nat) : Nat := (a - t2Base) / 4096 / w.t2Set.length * 4096 + (a - t2Base) % 4096

/-- All granules that [a, a + n) touches satisfy a test. -/
def granulesAll (a n : Nat) (f : Nat → Bool) : Bool :=
  n == 0 || (List.range ((a + n - 1) / gib - a / gib + 1)).all fun i => f (a / gib + i)

/-- [a, a + n) lies in populated tier 1. -/
def Work.t1Populated (w : Work) (a n : Nat) : Bool := decide (a + n ≤ t1Size) && granulesAll a n w.t1Present

/-- [a, a + n) lies in tier-1 granules bound to a partition (R146). -/
def Work.inT1 (w : Work) (part a n : Nat) : Bool :=
  w.t1Populated a n && granulesAll a n fun g => w.owner kT1 g == some part

/-- [a, a + n) lies in tier-2 granules bound to a partition (R151). -/
def Work.inT2 (w : Work) (part a n : Nat) : Bool :=
  decide (t2Base ≤ a) && decide (a + n ≤ t2Base + w.t2Cap * gib) &&
    granulesAll (a - t2Base) n fun g => w.owner kT2 g == some part

/-- Entry n of the tier-3 map. -/
def Work.t3Ok (w : Work) (part a n : Nat) : Bool :=
  let p := xltPage 0
  let o := a - t3Base
  let i := o / 2 ^ 39
  decide (t3Base ≤ a) && decide (a + n ≤ t3End) && decide (n ≠ 0) && decide ((o + n - 1) / 2 ^ 39 = i) &&
    w.get p (R.XLT_T3MAP_LO_VALID.i i) == 1 && w.get p (R.XLT_T3MAP_LO_PARTITION.i i) == part &&
    decide (o % 2 ^ 39 + n ≤ w.get p (R.XLT_T3MAP_LEN_LENG.i i) * gib)

/-- Tier-3 ranges may span slices: each part of them is judged by its own (R153). -/
def Work.inT3 (w : Work) (part a n : Nat) : Bool :=
  let first := (a - t3Base) / 2 ^ 39
  let last := (a + n - 1 - t3Base) / 2 ^ 39
  decide (n ≠ 0) && decide (t3Base ≤ a) && (List.range (last - first + 1)).all fun k =>
    let lo := max a (t3Base + (first + k) * 2 ^ 39)
    let hi := min (a + n) (t3Base + (first + k + 1) * 2 ^ 39)
    w.t3Ok part lo (hi - lo)

/-- The host address behind a tier-3 address: HBASE + w (R153). -/
def Work.hostOf (w : Work) (a : Nat) : Nat :=
  let p := xltPage 0
  let o := a - t3Base
  let i := o / 2 ^ 39
  w.get p (R.XLT_T3MAP_LO_HBASE_LO.i i) * 4096 + 2 ^ 32 * w.get p (R.XLT_T3MAP_HI_HBASE_HI.i i) + o % 2 ^ 39

/-- A context of the partition may read [a, a + n): tier 1, 2 or 3. -/
def Work.readable (w : Work) (part a n : Nat) : Bool := w.inT1 part a n || w.inT2 part a n || w.inT3 part a n

/-- The range touches a granule that is ZEROING. -/
def Work.zeroingIn (w : Work) (a n : Nat) : Bool :=
  if a < t1Size then !granulesAll a n fun g => !w.zeroing false g
  else if t2Base ≤ a ∧ a < t2End then !granulesAll (a - t2Base) n fun g => !w.zeroing true g
  else false

/-! ### Lines (R147, R155, R156) -/

/-- An engine works for its context: its page is BOUND or RUNNING and the context runs. -/
def Work.worksFor (w : Work) (p : Nat) : Option Nat :=
  let g := w.page p
  match g.ctx with
  | some c => if (g.state == .running || g.state == .bound) && (w.ctx c).state == .running then some c else none
  | none => none

/-- Every byte of [a, a + n) that holds something is set to zero. -/
def Work.zeroRange (a n : Nat) (w : Work) : Work :=
  (((w.mem.map (·.1)) ++ (w.wr.map (·.1))).filter fun k => decide (a ≤ k) && decide (k < a + n)).foldl (fun w k => w.wrB k 0) w

/-- A tier-1 or tier-2 range and its tags zeroed (R320). -/
def Work.zeroMem (a n : Nat) (w : Work) : Work := (w.zeroRange a n).zeroRange (poisonA a) (n / 64)

/-- The page whose memory holds a tier-1 or tier-2 line. -/
def Work.memPage (w : Work) (a : Nat) : Nat := if a < t1Size then stackPage (stackOf a) else chanPage (w.chanOf a)

/-- MEM_ERRADDR records a line (R155, R156). -/
def Work.errAddr (a unc : Nat) (w : Work) : Work :=
  let p := w.memPage a
  ((w.set p R.MEM_ERRADDR_LO_ADDR_LO a).set p R.MEM_ERRADDR_HI_ADDR_HI (a / 2 ^ 32)).set p R.MEM_ERRADDR_HI_UNC unc

/-- An uncorrectable line found: CNT_UNC, MEM_ERRADDR, EV_POISON (R156). -/
def Work.uncLine (a : Nat) (w : Work) : Work := ((w.errAddr a 1).count (w.memPage a) 1 1).raise (w.memPage a) 16

/-- A line corrected and written back: CNT_CORR, MEM_ERRADDR; one that took a second pass counts in CNT_RETRY too (R155, R157, R158). -/
def Work.corrLine (a : Nat) (w : Work) : Work :=
  let w := if w.rd (poisonA a) = 4#8 then w.count (w.memPage a) 2 1 else w
  ((w.errAddr a 0).count (w.memPage a) 0 1).setPoison a false

/-- What an access finds at a line of tier 1 or tier 2: corrected, or delivered as poison (R155, R156). -/
def Work.decodeLine (a : Nat) (w : Work) : Work :=
  match (w.rd (poisonA a)).toNat with
  | 0 => w
  | 1 => w.uncLine a
  | 2 => (w.uncLine a).setPoison a true
  | _ => w.corrLine a

/-- The units of an interleave of `size` bytes over `n` places that [a, a + len) touches, no place twice. -/
def placesOf (a len size n : Nat) : List Nat := (List.range (min n ((a + len - 1) / size - a / size + 1))).map fun i => a + size * i

/-- A maintenance activity or a zeroing holds some of a range: an HBM scrub of a stack, a bulk scrub of a channel (R157, R320, R379, R380). -/
def Work.held (w : Work) (a n : Nat) : Bool :=
  w.zeroingIn a n || w.dev.flt.running.any fun x =>
    if a < t1Size then x.act == 1 && (placesOf a n 512 5).any fun b => stackOf b == x.scope
    else t2Base ≤ a && a < t2End && x.act == 2 && (placesOf a n 4096 16).any fun b => w.chanOf b == x.scope

/-- Why a read of a tier-1 or tier-2 line has to wait, a cause of Table 9.6; 0 where it need not: a failed channel, the scrubber, a second decoding pass (R157,
R158). -/
def Work.lineWait (w : Work) (a : Nat) : Nat :=
  if t2Base ≤ a ∧ w.get (w.memPage a) R.MEM_STS_CHSTATE = 2 then 7
  else if w.held a 64 then 9
  else if w.rd (poisonA a) = 4#8 then 5
  else 0

/-- What has become of a tier-3 line that a unit has asked for: 0 under way, 1 delivered, 2 failed (R154). -/
def Work.t3Line (w : Work) (p a : Nat) : Option Nat := ((SMap.at [] w.dev.tiers.lines p).find? fun e => e.1 = a).map (·.2)

/-- The 64-byte lines of [a, a + n). -/
def linesIn (a n : Nat) : List Nat := if n = 0 then [] else (List.range ((a + n - 1) / 64 - a / 64 + 1)).map fun i => (a / 64 + i) * 64

/-- A read that cannot be served now: the first cause met is kept, with what would let it go on. -/
def Work.mustWait (cause : Nat) (want again : List Nat) (w : Work) : Work :=
  if w.wait.isSome then w else { w with wait := some cause, want := want, again := again }

/-- Bytes of lines carried between the hubs that hold them and the die whose unit accesses them (R12). -/
def Work.tierLinks (l : List Nat) (read : Bool) (w : Work) : Work :=
  match w.at_ with
  | none => w
  | some p =>
    (List.range 4).foldl (fun (w : Work) q =>
      let n := (l.filter fun a => dieOf (w.memPage a) == 16 + q).length
      if n = 0 ∨ dieOf p = 16 + q then w
      else if read then (w.carry (dieOf p) (16 + q) 0).carry (16 + q) (dieOf p) (64 * n)
      else w.carry (dieOf p) (16 + q) (64 * n)) w

/-- The lines of [a, a + n) of tier 1 or tier 2 read: bytes counted, errors corrected or reported (R155, R156, R158); with `gate` a line that has to wait makes
the read wait. -/
def Work.readLines (a n : Nat) (w : Work) : Work :=
  if n = 0 ∨ a ≥ t2End then w
  else
    let l := linesIn a n
    match w.gate, l.find? fun x => w.lineWait x != 0 with
    | true, some x => w.mustWait (w.lineWait x) [] (l.filter fun y => w.lineWait y == 5)
    | _, _ => l.foldl (fun (w : Work) x => (w.count (w.memPage x) 4 64).decodeLine x) (w.tierLinks l true)

/-- The lines of [a, a + n) of tier 3 read by a unit: delivered, or asked for (R153, R154). Data and poison come with the completions into the bytes at their
host addresses, from which the unit then reads. -/
def Work.readT3 (a n : Nat) (w : Work) : Work :=
  match w.gate, w.at_ with
  | true, some p =>
    let l := linesIn a n
    if l.any fun x => w.t3Line p x == some 2 then w.mustWait 8 [] []
    else if l.all fun x => w.t3Line p x == some 1 then (if dieOf p = 16 then w else (w.carry (dieOf p) 16 0).carry 16 (dieOf p) n)
    else w.mustWait (if w.dev.host.link then 2 else 8) (l.filter fun x => w.t3Line p x == none) []
  | _, _ => w

/-- A range of tier 1, 2 or 3 read by a unit. -/
def Work.readAny (a n : Nat) (w : Work) : Work := if t3Base ≤ a then w.readT3 a n else w.readLines a n

/-- Byte ranges that adjoin joined, in their order. -/
def joinRanges (l : List (Nat × Nat)) : List (Nat × Nat) :=
  (l.foldl (fun (acc : List (Nat × Nat)) r =>
    match acc with
    | (b, m) :: t => if b + m = r.1 then (b, m + r.2) :: t else r :: acc
    | [] => [r]) []).reverse

/-- Ranges read, adjoining ones as one. -/
def Work.readRanges (l : List (Nat × Nat)) (w : Work) : Work := (joinRanges l).foldl (fun (w : Work) r => w.readLines r.1 r.2) w

/-- A write to tier 1 or tier 2: bytes counted; the tags of lines written whole cleared (R156). A line written in part is read and corrected first (R147). -/
def Work.store (a : Nat) (data : List Byte) (w : Work) : Work :=
  let n := data.length
  if n = 0 then w
  else
    let l := linesIn a n
    l.foldl (fun w l =>
      let w := w.count (w.memPage l) 5 64
      if a ≤ l ∧ l + 64 ≤ a + n then (if w.rd (poisonA l) = 0 then w else w.setPoison l false)
      else if w.rd (poisonA l) = 0 ∨ w.rd (poisonA l) = 1 then w else w.decodeLine l) ((w.wrs a data).tierLinks l false)

/-- A number of `n` bytes stored little-endian. -/
def Work.storeLE (a n v : Nat) (w : Work) : Work := w.store a (natLE n v)

/-- Whole 64-byte lines copied with their tags; `src` and `dst` are 64-byte aligned, in tier 1, tier 2 or host memory. -/
def Work.copyLines (src dst : Nat) : Nat → Work → Work
  | 0, w => w
  | n + 1, w =>
    let bad := w.poisonAt src
    let w := (w.readLines src 64).store dst (w.rdN src 64)
    Work.copyLines (src + 64) (dst + 64) n (if bad then w.setPoison dst true else w)

/-! ### Stalls (R165–R167) -/

def Work.tiers (f : Tiers → Tiers) (w : Work) : Work := w.d fun d => { d with tiers := f d.tiers }

/-- The SEQ pages of a context (R159). -/
def Work.seqPages (w : Work) (c : Nat) : List Nat := (w.ctxPages c).filter fun p => typeOf p == 4

/-- The lowest-numbered SEQ page of a die that a context owns. -/
def Work.seqOf (w : Work) (d c : Nat) : Option Nat := ((List.range 4).map (seqPage d)).find? fun p => (w.page p).ctx == some c

/-- The page that keeps the stall records of a unit of a context (R165): the lowest-numbered SEQ page of its die, or, for a unit of a hub, which has none,
of the context (DEDUCED, log entry 35). -/
def Work.stallPage (w : Work) (d c : Nat) : Option Nat := (w.seqOf d c).orElse fun _ => (w.seqPages c).head?

/-- The stalls that run on a SEQ page. -/
def Work.stallsOf (w : Work) (p : Nat) : List Stall := SMap.at [] w.dev.tiers.stalls p

/-- The priority of a cause: its place in Table 9.6. -/
def causeRank (c : Nat) : Nat := ([7, 8, 6, 9, 5, 4, 3, 1, 2].idxOf c)

/-- STALLED and CAUSE of SEQ_PFSTS from the stalls that run. -/
def Work.stallView (p : Nat) (w : Work) : Work :=
  let l := w.stallsOf p
  let best := l.foldl (fun a s => if a = 0 ∨ causeRank s.cause < causeRank a then s.cause else a) 0
  (w.set p R.SEQ_PFSTS_STALLED (if l.isEmpty then 0 else 1)).set p R.SEQ_PFSTS_CAUSE best

/-- The stalls of a page replaced. -/
def Work.setStalls (p : Nat) (l : List Stall) (w : Work) : Work :=
  (w.d fun d => { d with tiers := { d.tiers with stalls := SMap.put [] d.tiers.stalls p l } }).stallView p

/-- The time since a cause governs added to its SEQ_STALLNS. -/
def Work.stallTime (p : Nat) (s : Stall) (w : Work) : Work :=
  if s.cause = 0 then w
  else
    let f := R.SEQ_STALLNS_LO_NS_LO.i s.cause
    w.set64 p f ((w.get64 p f + (w.now - s.since)) % 2 ^ 64)

/-- A stall begins: counted under its cause (R165). -/
def Work.beginStall (p kind cause idx : Nat) (w : Work) : Work :=
  if (w.stallsOf p).any fun s => s.kind = kind then w
  else (w.setStalls p (w.stallsOf p ++ [⟨kind, w.now, w.now, cause, idx, false⟩])).count p 6 1

/-- The cause of a stall and the descriptor it waits for change. -/
def Work.moveStall (p kind cause idx : Nat) (w : Work) : Work :=
  match (w.stallsOf p).find? fun s => s.kind = kind with
  | some s =>
    if s.cause = cause then w.setStalls p ((w.stallsOf p).map fun t => if t.kind = kind then { t with idx := idx } else t)
    else (w.stallTime p s).setStalls p ((w.stallsOf p).map fun t =>
      if t.kind = kind then { t with since := w.now, cause := cause, idx := idx } else t)
  | none => w

/-- A stall ends. -/
def Work.endStall (p kind : Nat) (w : Work) : Work :=
  match (w.stallsOf p).find? fun s => s.kind = kind with
  | some s =>
    let w := (w.stallTime p s).setStalls p ((w.stallsOf p).filter fun t => t.kind ≠ kind)
    match (w.page p).ctx with | some c => w.thaw c | none => w
  | none => w

/-- A stall of a context whose units are saved does not run: its stamps move by the time it was still (R164). -/
def Work.shiftStalls (p by_ : Nat) (w : Work) : Work :=
  w.setStalls p ((w.stallsOf p).map fun t => { t with start := t.start + by_, since := t.since + by_ })

/-- STALL_NOTE. R167: a stall that has run NOTE microseconds raises EV_STALL. -/
def execStallNote (page : Nat) (s : State) : Host.Outcome State Fault Refusal :=
  .next (s.run fun w =>
    let n := w.get page R.SEQ_STALLNOTE_NOTE
    let due := fun (t : Stall) => n ≠ 0 ∧ ¬t.noted ∧ t.start + 1000 * n ≤ w.now
    if (w.stallsOf page).any due then
      (w.setStalls page ((w.stallsOf page).map fun t => if due t then { t with noted := true } else t)).raise page 19
    else w)

/-- A stall has run LIMIT microseconds: what ends it now comes too late (R27, R166). -/
def Work.stallLate (w : Work) (p : Nat) (t : Stall) : Bool := decide (t.start + 1000 * w.get p R.SEQ_STALLLIM_LIMIT ≤ w.now)

/-- A stall at its limit is a contained fault of its context (R166). -/
def Work.stallOut (p c : Nat) (t : Stall) (w : Work) : Work :=
  let tag := match (SMap.at {} w.dev.tiers.rings p).descs[t.idx]? with | some x => x.tag | none => 0
  let w := (w.set p R.SEQ_PFERR_INDEX t.idx).set p R.SEQ_PFTAG_TAG tag
  w.ctxFault c p 0x50 (some (t.cause + 256 * t.idx))

/-- STALL_LIMIT. R166: a stall still running LIMIT microseconds after its start faults its context. -/
def execStallLimit (page : Nat) (s : State) : Host.Outcome State Fault Refusal :=
  .next (s.run fun w =>
    match (w.stallsOf page).find? fun t => w.stallLate page t, (w.page page).ctx with
    | some t, some c => if (w.ctx c).state = .running then w.stallOut page c t else w
    | _, _ => w)

end Sys2Proof.Machine
end

