-- ==== Sys2Proof/Machine/Save.lean ====
section
/-!
DEFINITION. Save.lean: the pages of a context's placement, and how its state leaves a page that another context takes and comes back (R67, R68,
R131, R139, R325, R330).

A context that is SAVED stays where it is, with its pages QUIESCED, until another context restores onto one of them: then what that page holds of it
moves into its record. The bytes of its cells are copied when it is saved, and back when it is restored.
-/
namespace Sys2Proof.Machine

/-! ### Placement (R323) -/

/-- Sites of a die in the cell groups of a mask. -/
def groupSites (mask : Nat) : List Nat :=
  ((List.range 16).filter fun g => bit mask g).flatMap fun g =>
    (List.range 16).map fun n => (g / 4 * 4 + n / 4) * 16 + g % 4 * 4 + n % 4

/-- The set bits of a mask below `n`. -/
def setBitsOf (n mask : Nat) : List Nat := (List.range n).filter fun i => bit mask i

/-- (die, site) of every cell of a context's placement. -/
def Ctx.cells (x : Ctx) : List (Nat × Nat) :=
  (List.range 16).flatMap fun d => (groupSites (bits x.groups (16 * d + 15) (16 * d))).map fun s => (d, s)

/-- The pages of the units of a placement that contexts may share: cells, switches, sequencers, Hawkmoth and Teasel engines. -/
def Ctx.sharedPages (x : Ctx) : List Nat :=
  (x.cells.map fun e => cellPage e.1 e.2) ++ (x.cells.map fun e => swtPage e.1 e.2) ++
    (setBitsOf 64 x.seqs).map (fun i => seqPage (i / 4) (i % 4)) ++ (setBitsOf 128 x.hwks).map (fun i => hwkPage (i / 8) (i % 8)) ++
    (setBitsOf 32 x.tsls).map fun i => tslPage (i / 8) (i % 8)

/-- All pages of a placement. -/
def Ctx.pages (x : Ctx) : List Nat := x.sharedPages ++ (setBitsOf 512 x.skps).map fun i => skpPage (i / 32) (i % 32)

/-- Dies of a placement in ascending order (R323). -/
def Ctx.places (x : Ctx) : List Nat :=
  (List.range 16).filter fun d =>
    bits x.groups (16 * d + 15) (16 * d) != 0 || bits x.seqs (4 * d + 3) (4 * d) != 0 || bits x.hwks (8 * d + 7) (8 * d) != 0 ||
      bits x.skps (32 * d + 31) (32 * d) != 0

/-! ### Moving a page's state -/

/-- Entries of a table with keys in [lo, hi). -/
def SMap.range {β : Type} (m : SMap β) (lo hi : Nat) : SMap β := m.filter fun e => decide (lo ≤ e.1) && decide (e.1 < hi)

/-- The entries of one table put into another. -/
def SMap.merge {β : Type} (into from_ : SMap β) : SMap β := from_.foldl (fun m e => SMap.ins m e.1 e.2) into

/-- The site of a cell's page as the fabric keys it; none for other pages. -/
def pageSite (p : Nat) : Option Nat := if typeOf p = 1 ∨ typeOf p = 2 then some (siteKey (dieOf p) (siteOf p)) else none

/-- The ranges of keys under which the device keeps what a page holds: registers, page, site, slots, windows, engine. -/
structure PageKeys where
  site : Nat × Nat
  slot : Nat × Nat
  win : Nat × Nat
  eng : Nat × Nat

def pageKeys (p : Nat) : PageKeys :=
  let one := fun n => (n, n + 1)
  let s := match pageSite p with | some k => one k | none => (0, 0)
  { site := s
    slot := (s.1 * 8, s.2 * 8)
    win := if typeOf p = 2 then ((dieOf p * 128 + (blockOf p).2) * 16, (dieOf p * 128 + (blockOf p).2) * 16 + 16) else (0, 0)
    eng := if typeOf p = 5 then one (dieOf p * 8 + (blockOf p).2) else (0, 0) }

/-- What page p holds, taken from the device's tables. -/
def Dev.pageState (d : Dev) (p : Nat) : CtxSave :=
  let k := pageKeys p
  { sites := d.fab.sites.range k.site.1 k.site.2, slots := d.fab.slots.range k.slot.1 k.slot.2, regs := d.regs.range (p * 1024) (p * 1024 + 1024)
    pages := d.pages.range p (p + 1), wins := d.rem.wins.range k.win.1 k.win.2, rings := d.tiers.rings.range p (p + 1)
    stalls := d.tiers.stalls.range p (p + 1), engs := d.hwk.engs.range k.eng.1 k.eng.2, lists := d.hwk.lists.range p (p + 1)
    groups := d.rlt.groups.range p (p + 1), tsl := d.tsl.range p (p + 1), coll := d.coll.range p (p + 1) }

/-- The device without it. -/
def Dev.clearPage (p : Nat) (d : Dev) : Dev :=
  let k := pageKeys p
  { d with
    fab := { d.fab with sites := d.fab.sites.dropRange k.site.1 k.site.2, slots := d.fab.slots.dropRange k.slot.1 k.slot.2 }
    regs := d.regs.dropRange (p * 1024) (p * 1024 + 1024)
    pages := d.pages.dropRange p (p + 1)
    rem := { d.rem with wins := d.rem.wins.dropRange k.win.1 k.win.2 }
    tiers := { d.tiers with rings := d.tiers.rings.dropRange p (p + 1), stalls := d.tiers.stalls.dropRange p (p + 1) }
    hwk := { d.hwk with engs := d.hwk.engs.dropRange k.eng.1 k.eng.2, lists := d.hwk.lists.dropRange p (p + 1) }
    rlt := { d.rlt with groups := d.rlt.groups.dropRange p (p + 1) }
    tsl := d.tsl.dropRange p (p + 1)
    coll := d.coll.dropRange p (p + 1) }

/-- The device with a page's state put in. -/
def Dev.putPage (x : CtxSave) (d : Dev) : Dev :=
  { d with
    fab := { d.fab with sites := d.fab.sites.merge x.sites, slots := d.fab.slots.merge x.slots }
    regs := d.regs.merge x.regs
    pages := d.pages.merge x.pages
    rem := { d.rem with wins := d.rem.wins.merge x.wins }
    tiers := { d.tiers with rings := d.tiers.rings.merge x.rings, stalls := d.tiers.stalls.merge x.stalls }
    hwk := { d.hwk with engs := d.hwk.engs.merge x.engs, lists := d.hwk.lists.merge x.lists }
    rlt := { d.rlt with groups := d.rlt.groups.merge x.groups }
    tsl := d.tsl.merge x.tsl
    coll := d.coll.merge x.coll }

/-- Two records joined. -/
def CtxSave.join (a b : CtxSave) : CtxSave :=
  { sites := a.sites.merge b.sites, slots := a.slots.merge b.slots, regs := a.regs.merge b.regs, pages := a.pages.merge b.pages
    wins := a.wins.merge b.wins, rings := a.rings.merge b.rings, stalls := a.stalls.merge b.stalls, engs := a.engs.merge b.engs
    lists := a.lists.merge b.lists, groups := a.groups.merge b.groups, tsl := a.tsl.merge b.tsl, coll := a.coll.merge b.coll }

/-- The part of a record that belongs to a page, and the rest. -/
def CtxSave.part (x : CtxSave) (p : Nat) : CtxSave :=
  let k := pageKeys p
  { sites := x.sites.range k.site.1 k.site.2, slots := x.slots.range k.slot.1 k.slot.2, regs := x.regs.range (p * 1024) (p * 1024 + 1024)
    pages := x.pages.range p (p + 1), wins := x.wins.range k.win.1 k.win.2, rings := x.rings.range p (p + 1)
    stalls := x.stalls.range p (p + 1), engs := x.engs.range k.eng.1 k.eng.2, lists := x.lists.range p (p + 1)
    groups := x.groups.range p (p + 1), tsl := x.tsl.range p (p + 1), coll := x.coll.range p (p + 1) }
def CtxSave.rest (x : CtxSave) (p : Nat) : CtxSave :=
  let k := pageKeys p
  { sites := x.sites.dropRange k.site.1 k.site.2, slots := x.slots.dropRange k.slot.1 k.slot.2, regs := x.regs.dropRange (p * 1024) (p * 1024 + 1024)
    pages := x.pages.dropRange p (p + 1), wins := x.wins.dropRange k.win.1 k.win.2, rings := x.rings.dropRange p (p + 1)
    stalls := x.stalls.dropRange p (p + 1), engs := x.engs.dropRange k.eng.1 k.eng.2, lists := x.lists.dropRange p (p + 1)
    groups := x.groups.dropRange p (p + 1), tsl := x.tsl.dropRange p (p + 1), coll := x.coll.dropRange p (p + 1) }

def Work.save (w : Work) (c : Nat) : CtxSave := SMap.at {} w.dev.saves c
def Work.modSave (c : Nat) (f : CtxSave → CtxSave) (w : Work) : Work := w.d fun d => { d with saves := SMap.mod {} d.saves c f }

/-- The registers of a page that show a bound of its die, not anything of a context (R21). -/
def keptWords (p : Nat) : List Nat :=
  match typeOf p with
  | 4 => [R.SEQ_LOADRATE_RATE.off / 4, R.SEQ_BUMPBOUND_BUMPNS.off / 4]
  | 5 => [R.HWK_FETCH_FETCH.off / 4, R.HWK_BLKNS_BLKNS.off / 4]
  | 6 => [R.SKP_RATE_RATE.off / 4]
  | _ => []

/-- Those registers left as they are whatever happens to the page. -/
def Work.keepBounds (p : Nat) (f : Work → Work) (w : Work) : Work :=
  (keptWords p).foldl (fun (x : Work) n => x.setReg p n (w.reg p n)) (f w)

/-- What page p holds moves into the record of context c; the page keeps its block state, its lock and its partition. -/
def Work.evict (p c : Nat) (w : Work) : Work :=
  Work.keepBounds p (fun (w : Work) =>
  let w := w.spillPending p
  let g := w.page p
  let x := w.dev.pageState p
  ((w.d (Dev.clearPage p)).modSave c fun s => s.join x).modPage p fun _ =>
    { ({} : Page) with state := g.state, bindLock := g.bindLock, owner := ownerWord g.part none }) w

/-- What the record of context c holds of page p comes back; the block state stays. -/
def Work.unevict (p c : Nat) (w : Work) : Work :=
  Work.keepBounds p (fun (w : Work) =>
  let g := w.page p
  let x := (w.save c).part p
  match SMap.at {} x.pages p with
  | y =>
    if x.pages.isEmpty then w
    else
      ((w.d fun d => (d.clearPage p).putPage x).modSave c fun s => s.rest p).modPage p fun _ =>
        { y with state := g.state, bindLock := g.bindLock, owner := ownerWord g.part (some c) }) w

/-- Something that arrives for a page meets the context that is saved and satisfies a test, if one does (R139, R358); else the page as it
stands. -/
def Work.forSaved (p : Nat) (test : CtxSave → Bool) (f : Work → Work) (w : Work) : Work :=
  match w.dev.saves.find? fun e => !(e.2.pages.range p (p + 1)).isEmpty && test e.2 with
  | none => f w
  | some (c, _) =>
    let o := (w.page p).ctx
    let st := (w.page p).state
    let w := match o with | some o => w.evict p o | none => w
    let w := (w.unevict p c).modPage p fun g => { g with state := .quiesced }
    let w := (f w).evict p c
    let w := match o with | some o => w.unevict p o | none => w
    w.modPage p fun g => { g with state := st }

/-- Something done to a page as context c has it: to its record, where another context holds the page meanwhile. -/
def Work.atHome (p c : Nat) (f : Work → Work) (w : Work) : Work :=
  if ((w.save c).pages.range p (p + 1)).isEmpty then f w else w.forSaved p (fun x => decide (x = w.save c)) f

/-- The same for what is only looked at: a page as the saved context that satisfies a test has left it. -/
def Work.savedView (p : Nat) (test : CtxSave → Bool) (w : Work) : Work :=
  match w.dev.saves.find? fun e => !(e.2.pages.range p (p + 1)).isEmpty && test e.2 with
  | none => w
  | some (c, _) => ((match (w.page p).ctx with | some o => w.evict p o | none => w).unevict p c).modPage p fun g => { g with state := .quiesced }

/-! ### Bytes of cells -/

/-- Where the save area of a context holds a byte of its cells (R68, R139): memory kinds scratch, accumulator, operand buffer, vector registers, and
the poison tags of scratch. -/
def savedA (ctx a : Nat) : Nat :=
  let at_ := fun kind off => 2 ^ 90 + ctx * 2 ^ 70 + kind * 2 ^ 50 + off
  if 2 ^ 101 ≤ a then at_ 4 (a - 2 ^ 101 - 2 ^ 80 / 32)
  else if 2 ^ 83 ≤ a then at_ 3 (a - 2 ^ 83)
  else if 2 ^ 82 ≤ a then at_ 2 (a - 2 ^ 82)
  else if 2 ^ 81 ≤ a then at_ 1 (a - 2 ^ 81)
  else at_ 0 (a - 2 ^ 80)

/-- Bytes set to zero, of those that hold something. -/
def Work.clearBytes (lo n : Nat) (w : Work) : Work := w.zeroRange lo n

/-- The saved bytes of a context gone. -/
def Work.dropSaved (c : Nat) (w : Work) : Work := w.clearBytes (2 ^ 90 + c * 2 ^ 70) (2 ^ 70)

/-- Bytes of [lo, lo + n) that hold something, with their addresses. -/
def Work.held_ (w : Work) (lo n : Nat) : List (Nat × Byte) :=
  ((w.mem.map (·.1) ++ w.wr.map (·.1)).eraseDups.filter fun a => decide (lo ≤ a) && decide (a < lo + n)).map fun a => (a, w.rd a)

/-- The ranges of bytes of a cell that a save takes: of a CC its accumulator, operand buffer and vector registers; of an MC the lines of the pairs with
SAVE, and their tags (Table 4.13). The bank hash moves lines within blocks of 32, and a pair with HASH covers whole ones (R126, R130), so the bytes of a
pair's lines are those of its range either way. -/
def Work.cellRanges (w : Work) (p : Nat) (save : Bool) : List (Nat × Nat) :=
  let d := dieOf p
  let i := (blockOf p).2
  if typeOf p = 1 then (if save then [(accA d i 0, 2 ^ 21), (opbA d i 0, 2 ^ 21), (vregA d i 0, 2 ^ 21)] else [])
  else
    (List.range 4).flatMap fun n =>
      if bit (w.get p (R.MC_PATTR_ATTR.i n)) 3 = save then
        let a := scratchA d i (128 * w.get p (R.MC_PBASE_BASEL.i n))
        let len := 128 * w.get p (R.MC_PSIZE_SIZEL.i n)
        [(a, len), (poisonA a, len / 32)]
      else []

/-- Everything that a cell's memories hold set to zero, poison with it (R132). -/
def Work.wipeCell (p : Nat) (w : Work) : Work :=
  let d := dieOf p
  let i := (blockOf p).2
  if typeOf p = 2 then (w.clearBytes (scratchA d i 0) (2 ^ 21)).clearBytes (poisonA (scratchA d i 0)) (2 ^ 16)
  else if typeOf p = 1 then ((w.clearBytes (accA d i 0) (2 ^ 21)).clearBytes (opbA d i 0) (2 ^ 21)).clearBytes (vregA d i 0) (2 ^ 21)
  else w

/-- The bytes of a context's cells copied to its saved copy (R330). -/
def Work.saveCells (c : Nat) (w : Work) : Work :=
  let pages := ((w.ctx c).cells.map fun e => cellPage e.1 e.2).filter fun p => (w.page p).ctx == some c
  pages.foldl (fun (w : Work) p => (w.cellRanges p true).foldl (fun (w : Work) r =>
    (w.held_ r.1 r.2).foldl (fun (w : Work) e => w.wrB (savedA c e.1) e.2) w) w) (w.dropSaved c)

/-- The saved copy put back, lines of pairs without SAVE zeroed (R131). Of a line that pairs with SAVE and pairs without it cover, both of which rules the manual
states, the saved copy stands (DESIGN CHOICE, log entry 125). -/
def Work.restoreCells (c : Nat) (w : Work) : Work :=
  let pages := ((w.ctx c).cells.map fun e => cellPage e.1 e.2).filter fun p => (w.page p).ctx == some c
  pages.foldl (fun (w : Work) p =>
    let w := (w.cellRanges p false).foldl (fun (w : Work) r => w.clearBytes r.1 r.2) w
    if (w.ctx c).hasSave then
      (w.cellRanges p true).foldl (fun (w : Work) r =>
        (w.held_ (savedA c r.1) r.2).foldl (fun (w : Work) e => w.wrB (e.1 - savedA c r.1 + r.1) e.2) (w.clearBytes r.1 r.2)) w
    else w) w

end Sys2Proof.Machine
end

