-- ==== Sys2Proof/Machine/Scratch.lean ====
section
/-!
DEFINITION. Scratch.lean: base/bound pairs, scratch accesses, remote windows and their credits (R123–R143).
-/
namespace Sys2Proof.Machine

/-! ### Pairs (R128) -/

/-- Lines of a memory cell (R123). -/
def mcLines : Nat := 12288
/-- Attribute bits of MC_PATTR: RD, WR, HASH, SAVE (Table 8.3). -/
def attrRd : Nat := 0
def attrWr : Nat := 1
def attrHash : Nat := 2
def attrSave : Nat := 3

def Work.pairBase (w : Work) (p i : Nat) : Nat := w.get p (R.MC_PBASE_BASEL.i i)
def Work.pairSize (w : Work) (p i : Nat) : Nat := w.get p (R.MC_PSIZE_SIZEL.i i)
def Work.pairAttr (w : Work) (p i : Nat) : Nat := w.get p (R.MC_PATTR_ATTR.i i)

/-- The byte in a memory cell that offset `o` of pair `i` reaches, in lines, or in words for a narrow access; none where R128 refuses it. -/
def Work.pairAddr (w : Work) (p i : Nat) (o : Int) (narrow write : Bool) : Option Nat :=
  let size := w.pairSize p i
  let lim : Int := if narrow then 32 * size else size
  let ok := bit (w.pairAttr p i) (if write then attrWr else attrRd)
  if 0 ≤ o ∧ o < lim ∧ ok then
    some (w.pairBase p i * 128 + o.toNat * (if narrow then 4 else 128))
  else none

/-! ### Banks (R123, R126) -/

/-- The bank, of 32, in which line l lies, with the bank hash or without it (R126). -/
def bankOf (hash : Bool) (l : Nat) : Nat := if hash then l % 32 ^^^ (l / 32 % 32) ^^^ (l / 1024 % 32) else l % 32

/-- The row of its bank in which line l lies: l[13:5]; a bank of 48 KiB has 384 rows (R123). -/
def rowOf (l : Nat) : Nat := bits l 13 5

/-- Where a cell's scratch keeps the line in a row of a bank. -/
def bankAt (bank row : Nat) : Nat := (row * 32 + bank) * 128

/-- An enabled pair with HASH = 1 covers a line of a memory cell (R126). -/
def Work.hashed (w : Work) (p l : Nat) : Bool :=
  (List.range 4).any fun i => bit (w.pairAttr p i) attrHash && decide (w.pairBase p i ≤ l) && decide (l < w.pairBase p i + w.pairSize p i)

/-- The scratch address at which byte `b` of a memory cell lies, with its line in its bank. -/
def Work.scratchOf (w : Work) (p b : Nat) : Nat :=
  let l := b / 128
  scratchA (dieOf p) (blockOf p).2 (bankAt (bankOf (w.hashed p l) l) (rowOf l) + b % 128)

/-! ### Words and their check symbols (R142, R143) -/

/-- The 32-byte words with some byte of [b, b + n). -/
def scrWords (b n : Nat) : List Nat := if n = 0 then [] else (List.range ((b + n - 1) / 32 - b / 32 + 1)).map fun i => (b / 32 + i) * 32

/-- Whether a scratch range lies in words that an access delivers as poison. -/
def Work.scrPoison (w : Work) (p b n : Nat) : Bool := (scrWords b n).any fun x => w.poisonAt (w.scratchOf p x)

/-- MC_SCRSTS shows a word with an error (Table 8.3). -/
def Work.noteWord (p b unc : Nat) (w : Work) : Work :=
  ((w.set p R.MC_SCRSTS_LINE (b / 128)).set p R.MC_SCRSTS_WORD (b % 128 / 32)).set p R.MC_SCRSTS_UNC unc

/-- What an access finds at the word with byte `b`: an error corrected, written back and counted, or one that is not to be corrected, tagged and reported
(R142, R143). -/
def Work.decodeWord (p b : Nat) (w : Work) : Work :=
  let a := w.scratchOf p b
  match (w.rd (poisonA a)).toNat with
  | 0 => w
  | 1 => w
  | 2 => ((w.noteWord p b 1).setPoison a true).raise p 20
  | _ => ((w.noteWord p b 0).setPoison a false).count p 7 1

/-- The words of [b, b + n) as an access that reads them finds them. -/
def Work.decodeScr (p b n : Nat) (w : Work) : Work := (scrWords b n).foldl (fun w x => w.decodeWord p x) w

/-- Data cut where lines end, as (offset, data). -/
def linesOf (off : Nat) (data : List Byte) : Nat → List (Nat × List Byte)
  | 0 => []
  | n + 1 => if data.isEmpty then [] else
    let k := 128 - off % 128
    (off, data.take k) :: linesOf (off + k) (data.drop k) n

/-- Bytes put into a memory cell from byte `b` on. -/
def Work.putScr (p b : Nat) (data : List Byte) (w : Work) : Work :=
  (linesOf b data (data.length + 1)).foldl (fun w l => w.wrs (w.scratchOf p l.1) l.2) w

/-- Tags of whole words of [b, b + n) cleared: what writes a word whole (R143). -/
def Work.clearScr (p b n : Nat) (w : Work) : Work :=
  (scrWords b n).foldl (fun w x => if b ≤ x ∧ x + 32 ≤ b + n then w.setPoison (w.scratchOf p x) false else w) w

/-- Data written over whole words and, at the ends, parts of words: those are read and corrected first and keep their tag (R142, R143). -/
def Work.wideScr (p b : Nat) (data : List Byte) (w : Work) : Work :=
  let n := data.length
  let part := (scrWords b n).filter fun x => !(decide (b ≤ x) && decide (x + 32 ≤ b + n))
  ((part.foldl (fun (w : Work) x => w.decodeWord p x) w).putScr p b data).clearScr p b n

/-- Data written in the narrow view: every word is read and corrected, its bytes merged, and its tag kept (R142, R143). -/
def Work.narrowScr (p b : Nat) (data : List Byte) (w : Work) : Work := (w.decodeScr p b data.length).putScr p b data

/-! ### Saved scratch (R68, R131, R324) -/

/-- The lines covered by the intervals (base, length) of a list. -/
def coverLen (l : List (Nat × Nat)) : Nat :=
  let sorted := l.foldl (fun acc x => acc.filter (fun y => decide (y.1 ≤ x.1)) ++ x :: acc.filter (fun y => decide (x.1 < y.1))) []
  (sorted.foldl (fun (a : Nat × Nat) x =>
    let lo := max a.2 x.1
    let hi := x.1 + x.2
    if hi ≤ lo then a else (a.1 + (hi - lo), hi)) (0, 0)).1

/-- Saved lines of a memory cell, with pair `i` taken as given. -/
def Work.savedLines (w : Work) (p : Nat) (repl : Option (Nat × Nat × Nat × Nat)) : Nat :=
  coverLen ((List.range 4).filterMap fun i =>
    match repl with
    | some (j, b, sz, at_) =>
      if i = j then (if bit at_ attrSave ∧ sz ≠ 0 then some (b, sz) else none)
      else if bit (w.pairAttr p i) attrSave ∧ w.pairSize p i ≠ 0 then some (w.pairBase p i, w.pairSize p i) else none
    | none => if bit (w.pairAttr p i) attrSave ∧ w.pairSize p i ≠ 0 then some (w.pairBase p i, w.pairSize p i) else none)

/-- Cell groups of a context on a die. -/
def Ctx.groupsOn (x : Ctx) (d : Nat) : Nat := popcount 16 (bits x.groups (16 * d + 15) (16 * d))

/-- Bytes of scratch saved on a die by the memory cells a predicate names, with one pair changed. -/
def Work.savedOnDie (w : Work) (d : Nat) (mine : Nat → Bool) (p : Nat) (repl : Option (Nat × Nat × Nat × Nat)) : Nat :=
  (List.range 128).foldl (fun a m =>
    let q := mcPage d m
    if mine q then a + 128 * w.savedLines q (if q = p then repl else none) else a) 0

/-- The largest scratch saved per die: 133.75 MiB (R68). -/
def maxSaved : Nat := 140247040
/-- Fixed state of a cell group in bytes: 2960 KiB (R324). -/
def groupState : Nat := 2960 * 1024

/-! ### MC commands (R130, R134, R140) -/

def setpairSpec : CmdSpec :=
  { types := [2], code := 0x30, states := [.bound, .quiesced]
    resv := fun c => c.arg 0 / 4 == 0 && c.arg 1 / 2 ^ 14 == 0 && c.arg 2 / 2 ^ 15 == 0 && c.arg 3 / 16 == 0 }

/-- Two line intervals overlap. -/
def overlaps (a n b m : Nat) : Bool := decide (a < b + m) && decide (b < a + n)

/-- A cell's page lies in a group of the context. -/
def Ctx.hasCell (x : Ctx) (q : Nat) : Bool := bit x.groups (16 * dieOf q + groupOf (siteOf q))

/-- The contexts whose pairs a cell holds (R128): the one that owns it, or, while none does, those placed on it that have not run and so will find
the pairs as they are set now (R324; log entry 86). -/
def Work.pairCtxs (w : Work) (p : Nat) : List Ctx :=
  match (w.page p).ctx with
  | some c => [w.ctx c]
  | none => (w.dev.ctxs.filter fun e => (e.2.state == .created || e.2.state == .ready) && !e.2.hasSave &&
      e.2.hasCell p).map (·.2)

/-- MC_SETPAIR's own checks (Table 8.2). -/
def setpairChecks (c : Call) (w : Work) : List (Bool × Status) :=
  let p := c.page
  let i := c.arg 0
  let base := c.arg 1
  let size := c.arg 2
  let at_ := c.arg 3
  let hash := bit at_ attrHash
  let open_ := (List.range 16).any fun n => w.winState p n != 0 && w.get p (R.MC_WCFG_PAIR.i n) == i
  let geom := size != 0 && (decide (base + size > mcLines) || (hash && (base % 32 != 0 || size % 32 != 0)) ||
    (List.range 4).any fun j => j != i && w.pairSize p j != 0 && overlaps base size (w.pairBase p j) (w.pairSize p j) &&
      bit (w.pairAttr p j) attrHash != hash)
  let save := bit at_ attrSave && size != 0
  let d := dieOf p
  let repl := some (i, base, size, at_)
  let cap := (w.pairCtxs p).any fun x =>
    (bit at_ attrSave && x.cls == 0) || (save && decide (w.savedOnDie d x.hasCell p repl + groupState * x.groupsOn d > x.saveSz * 2 ^ 20))
  [(open_, .busy), (geom, .bound), (cap || (save && decide (w.savedOnDie d (fun _ => true) p repl > maxSaved)), .capacity)]

/-- MC_SETPAIR. R130, Table 8.2. -/
def execMcSetpair (q : Issue) (s : State) : Host.Outcome State Fault Refusal :=
  .next (s.run fun w => w.command q setpairSpec fun c w => w.checked c (setpairChecks c w) fun w =>
    let i := c.arg 0
    let w := ((w.set c.page (R.MC_PBASE_BASEL.i i) (c.arg 1)).set c.page (R.MC_PSIZE_SIZEL.i i) (c.arg 2)).set c.page
      (R.MC_PATTR_ATTR.i i) (c.arg 3)
    w.reply c .done)

def openwinSpec : CmdSpec :=
  { types := [2], code := 0x31, states := [.bound, .running, .quiesced]
    resv := fun c => c.arg 0 / 64 == 0 && bits (c.arg 1) 15 9 == 0 && c.arg 1 / 2 ^ 25 == 0 && bits (c.arg 2) 15 13 == 0 &&
      c.arg 2 / 2 ^ 22 == 0 && c.arg 3 / 512 == 0 }

/-- First line of a window of a page. -/
def Work.winLine (w : Work) (p i : Nat) : Nat := w.pairBase p (w.get p (R.MC_WCFG_PAIR.i i)) + 32 * w.get p (R.MC_WGEOM_OFFU.i i)

/-- MC_OPENWIN's own checks (R134, Table 8.2). -/
def openwinChecks (c : Call) (w : Work) : List (Bool × Status) :=
  let p := c.page
  let i := bits (c.arg 0) 3 0
  let pr := bits (c.arg 0) 5 4
  let offu := bits (c.arg 1) 8 0
  let sizeu := bits (c.arg 1) 24 16
  let at_ := w.pairAttr p pr
  let line := w.pairBase p pr + 32 * offu
  [(w.winState p i != 0, .busy),
   (sizeu == 0 || decide (sizeu > 384) || decide (32 * (offu + sizeu) > w.pairSize p pr) || !bit at_ attrWr || !bit at_ attrSave ||
      (List.range 16).any (fun j => j != i && w.winState p j != 0 &&
        overlaps line (32 * sizeu) (w.winLine p j) (32 * w.get p (R.MC_WGEOM_SIZEU.i j))), .bound)]

/-- MC_OPENWIN. R134: ARRIVED is zero and the pool holds SIZEU × 4096 bytes. -/
def execMcOpenwin (q : Issue) (s : State) : Host.Outcome State Fault Refusal :=
  .next (s.run fun w => w.command q openwinSpec fun c w => w.checked c (openwinChecks c w) fun w =>
    let p := c.page
    let i := bits (c.arg 0) 3 0
    let sizeu := bits (c.arg 1) 24 16
    let w := (w.set p (R.MC_WCFG_WSTATE.i i) 1).set p (R.MC_WCFG_PAIR.i i) (bits (c.arg 0) 5 4)
    let w := (w.set p (R.MC_WCFG_TIMEDOUT.i i) 0).set p (R.MC_WGEOM_OFFU.i i) (bits (c.arg 1) 8 0)
    let w := (w.set p (R.MC_WGEOM_SIZEU.i i) sizeu).setReg p ((0x648 + 32 * i) / 4) (BitVec.ofNat 32 (c.arg 2))
    let w := (w.set p (R.MC_WPOOL_FREE.i i) (sizeu * 4096)).set p (R.MC_WPOOL_NACC.i i) 0
    let w := (w.set64 p (R.MC_WARR_LO_ARR_LO.i i) 0).set p (R.MC_WNOTIFY_NOTIFY.i i) (c.arg 3)
    (w.modWin (winKey p i) fun x => { late := x.late }).reply c .done)

def closewinSpec : CmdSpec :=
  { types := [2], code := 0x32, states := [.bound, .running, .quiesced], resv := fun c => c.arg 0 / 16 == 0 }

/-- MC_CLOSEWIN. R138. -/
def execMcClosewin (q : Issue) (s : State) : Host.Outcome State Fault Refusal :=
  .next (s.run fun w => w.command q closewinSpec fun c w =>
    w.checked c [(w.winState c.page (c.arg 0) == 0, .busy)] fun w =>
      let w := w.accept c
      if w.winState c.page (c.arg 0) = 1 then w.closeWin c.page (c.arg 0) else w)

/-- The context that issued the writes of an account, and a page of it to log on. -/
def Work.acctFault (a : Account) (w : Work) : Work := w.cutFault (some a.ctx) ((w.seqOf a.die a.ctx).getD (seqPage a.die 0))

/-- A credit message: between two dies of the package it takes the links (R12, R135). -/
def Work.credit (kind : Nat) (a : Account) (n : Nat) (w : Work) : Work :=
  let here := decide (a.pkg = a.tpkg)
  let w := if here then (if kind = 0 ∨ kind = 3 then w.acrossDies a.die a.tdie 1 else w.acrossDies a.tdie a.die 1).acctFault a else w
  w.send (.credit kind a n)

/-- Waiting requests of a window served in stamp order as FREE allows (R135): none is served before an earlier one. -/
def Work.serveWin (p i : Nat) (w : Work) : Work :=
  let k := winKey p i
  (w.win k).accts.foldl (fun w a =>
    let free := w.get p (R.MC_WPOOL_FREE.i i)
    let g := min a.waiting (free / 4096)
    if a.waiting = 0 ∨ g = 0 then w
    else
      let w := w.set p (R.MC_WPOOL_FREE.i i) (free - g * 4096)
      (w.modWin k fun x => { x with accts := x.accts.map fun b => if b.acc = a.acc then { b with waiting := 0 } else b }).credit 1 a.acc g) w

def winretSpec : CmdSpec :=
  { types := [2], code := 0x33, states := [.bound, .running, .quiesced], resv := fun c => c.arg 0 / 16 == 0 && c.arg 1 / 512 == 0 }

/-- Bytes of a window that have arrived and not been returned (R137). -/
def Work.unreturned (w : Work) (p i : Nat) : Nat := w.get64 p (R.MC_WARR_LO_ARR_LO.i i) - (w.win (winKey p i)).returned

/-- A record of a saved context holds window i of page p in a state. -/
def heldWin (p i st : Nat) (x : CtxSave) : Bool :=
  let f := R.MC_WCFG_WSTATE.i i
  bits (SMap.at 0 x.regs (p * 1024 + f.off / 4)).toNat f.hi f.lo == st

/-- Whose window i of page p a return means: the page's, where it is open there, or that of a saved context that another has displaced (R139). -/
def Work.winTest (w : Work) (p i : Nat) (x : CtxSave) : Bool := w.winState p i != 1 && heldWin p i 1 x

/-- MC_WINRET. R137: units × 4096 bytes go back to FREE. During a save it is legal to the physical function and the KMC (R139). -/
def execMcWinret (q : Issue) (s : State) : Host.Outcome State Fault Refusal :=
  .next (s.run fun w =>
    let k := if privileged q.caller then { winretSpec with states := [.bound, .running, .quiescing, .quiesced] } else winretSpec
    w.command q k fun c w =>
    let p := c.page
    let i := c.arg 0
    let test := fun x => privileged q.caller && w.winTest p i x
    let v := w.savedView p test
    w.checked c [(v.winState p i != 1, .busy), (decide (c.arg 1 * 4096 > v.unreturned p i), .shape)] fun w =>
      let w := w.forSaved p test fun w =>
        let w := w.set p (R.MC_WPOOL_FREE.i i) (w.get p (R.MC_WPOOL_FREE.i i) + c.arg 1 * 4096)
        (w.modWin (winKey p i) fun x => { x with returned := x.returned + c.arg 1 * 4096 }).serveWin p i
      w.reply c .done)

/-! ### Senders (R133, R135, R136) -/

/-- The package's own id; 0 while IDVALID is 0 (R44, R348). -/
def Work.ownPkg (w : Work) : Nat := if w.get (xltPage 0) R.XLT_PKGID_IDVALID = 1 then w.get (xltPage 0) R.XLT_PKGID_PKGID else 0

/-- The rack window of a partition for a logical board: the physical board, none while it is closed (R349). -/
def Work.rackWin (w : Work) (part board : Nat) : Option Nat :=
  let v := bits (w.reg (xltPage 0) (0x100 + 4 * part + board / 4)).toNat (8 * (board % 4) + 7) (8 * (board % 4))
  if bit v 4 then some (v % 16) else none

/-- The physical package that a board-global access of a partition names (R44, R349); none where it is refused, counted in CNT_RWIN_DENIED.
An address with the package's own id stays local where no window translates it (log entry 67). -/
def Work.physPkg (part pkg : Nat) (w : Work) : Option Nat × Work :=
  match w.rackWin part (pkg / 256) with
  | some b => (some (b * 256 + pkg % 256), w)
  | none => if pkg = w.ownPkg then (some pkg, w) else (none, w.count (xltPage 0) 0 1)

def Work.sends (w : Work) (d : Nat) : List SendAcct := SMap.at [] w.dev.rem.sends d
def Work.modSends (d : Nat) (f : List SendAcct → List SendAcct) (w : Work) : Work :=
  w.d fun x => { x with rem := { x.rem with sends := SMap.mod [] x.rem.sends d f } }
def Work.modSend (d : Nat) (a : Account) (f : SendAcct → SendAcct) (w : Work) : Work :=
  w.modSends d fun l => l.map fun x => if x.acc = a then f x else x

/-- A remote-scratch address split (R133): package, die, memory cell, window, offset; none outside the range. -/
def remoteParts (addr : Nat) : Option (Nat × Nat × Nat × Nat × Nat) :=
  let l := addr % 2 ^ 48
  if addr / 2 ^ 60 = 0 ∧ 0x200000000000 ≤ l ∧ l < 0x3F0000000000 ∧ bits l 44 36 = 0 ∧ l < 0x400000000000 ∧ l / 2 ^ 45 = 1 then
    some (bits addr 59 48, bits l 35 32, bits l 31 25, bits l 24 21, l % 2 ^ 21)
  else none

/-- Lines that a list of writes takes. -/
def lineCount (l : List (Nat × List Byte)) : Nat := (l.map fun x => (linesOf x.1 x.2 (x.2.length + 1)).length).foldl (· + ·) 0

/-- What is left of writes once their first `n` lines have been sent. -/
def dropLines : Nat → List (Nat × List Byte) → List (Nat × List Byte)
  | _, [] => []
  | n, (o, l) :: rest =>
    let k := (linesOf o l (l.length + 1)).length
    if k ≤ n then dropLines (n - k) rest
    else
      let gone := if n = 0 then 0 else 128 * n - o % 128
      (o + gone, l.drop gone) :: rest

/-- Lines on their way to their window: over the neighbour links to a die of this package (R12), else over the die's hub link to the board. -/
def Work.lineLinks (a : Account) (n : Nat) (w : Work) : Work :=
  (if a.tpkg = w.ownPkg then w.acrossDies a.die a.tdie n else w.onLinks (w.hubWay a.die (16 + a.die / 4)) n).acctFault a

/-- Lines sent as far as the balance covers them, each taking 128 bytes of it; what is left asks for credit (R135). -/
def Work.pump (d : Nat) (a : Account) (w : Work) : Work :=
  match (w.sends d).find? fun x => x.acc = a with
  | none => w
  | some x =>
    let lines := x.queue.flatMap fun q => linesOf q.1 q.2 (q.2.length + 1)
    let n := min lines.length (x.balance / 128)
    let w := (lines.take n).foldl (fun (w : Work) l => w.send (.line a l.1 l.2)) (if n = 0 then w else w.lineLinks a n)
    w.modSend d a fun y => { y with queue := dropLines n y.queue, balance := y.balance - 128 * n, last := w.now }

/-- The credit request for what the balance does not cover: ceil(shortfall / 4096) units, at most 16 (R135). -/
def Work.askCredit (d : Nat) (a : Account) (w : Work) : Work :=
  match (w.sends d).find? fun x => x.acc = a with
  | none => w
  | some x =>
    let short := 128 * lineCount x.queue - x.balance
    if short = 0 then w else w.credit 0 a (min 16 (ceilDiv short 4096))

/-- The window admits the sender (R134): its partition, and its package, or any package of this board. -/
def Work.admits (w : Work) (p i : Nat) (a : Account) : Bool :=
  w.get p (R.MC_WSRC_SRCPART.i i) == a.part &&
    ((w.get p (R.MC_WSRC_ANYPKG.i i) == 1 && a.pkg / 256 == w.ownPkg / 256) || w.get p (R.MC_WSRC_SRCPKG.i i) == a.pkg)

/-- An account to use for a write: the one there is, a new one, or a new one in place of the least recently used idle one, whose balance goes
back to its window (R136); none while the write must wait. -/
def Work.takeAcct (d : Nat) (a : Account) (w : Work) : Option Work :=
  let l := w.sends d
  let fresh : SendAcct := { acc := a, balance := 0, size := 0, queue := [], last := w.now }
  if l.any fun x => x.acc = a then some w
  else if l.length < 64 then some (w.modSends d fun l => l ++ [fresh])
  else
    match (l.filter fun x => x.queue.isEmpty).foldl (fun (m : Option SendAcct) x => match m with
      | none => some x
      | some y => if x.last < y.last then some x else some y) none with
    | none => none
    | some v => some ((w.modSends d fun l => (l.filter fun x => x.acc ≠ v.acc) ++ [fresh]).credit 3 v.acc v.balance)

def Work.rem (f : Remote → Remote) (w : Work) : Work := w.d fun d => { d with rem := f d.rem }

/-- The status of a context's remote write on a die, as its issuer is told it (R136). -/
def Work.tell (d ctx : Nat) (st : Status) (w : Work) : Work := w.rem fun r => { r with told := SMap.put 0 r.told (d * 256 + ctx) st.code }

/-- The stall of a context whose remote writes wait for credit begins, or ends with the deadlock window starting afresh (R83, R165), unless its end comes at
its limit (R166). -/
def Work.creditStall (d c : Nat) (w : Work) : Work :=
  let waits := ((w.sends d).any fun x => x.acc.ctx == c && !x.queue.isEmpty) || (SMap.at [] w.dev.rem.waits d).any fun x => x.1 == c
  match w.stallPage d c with
  | some p =>
    if waits then w.beginStall p 2 4 0
    else match (w.stallsOf p).find? fun t => t.kind = 2 && w.stallLate p t with
      | some t => w.stallOut p c t
      | none => w.endStall p 2
  | none => w

/-- A record of a saved context holds the window open. -/
def heldOpen (acc : Account) (x : CtxSave) : Bool := heldWin (acctPage acc) acc.twin 1 x
/-- A record of a saved context holds the window with an account of this sender (R139). -/
def heldAccount (acc : Account) (x : CtxSave) : Bool :=
  let y := SMap.at {} x.wins (winKey (acctPage acc) acc.twin)
  (y.accts.any fun b => b.acc == acc) || y.late.contains acc
/-- A record of a saved context holds the window of a line or of a write without credit, where the page's own context has it not open. -/
def Work.openElsewhere (w : Work) (p i : Nat) (x : CtxSave) : Bool := w.winTest p i x

/-- A remote write of a context on a die (R133–R136, R139): a status where it is refused, with nothing sent; otherwise lines sent and queued. A write for
which no account can be released waits. -/
def Work.remoteWr (d ctx addr : Nat) (data : List Byte) (w : Work) : Option Status × Work :=
  match remoteParts addr with
  | none => (some .bound, w)
  | some (lpkg, td, tm, tw, off) =>
   match w.physPkg (w.ctx ctx).part lpkg with
   | (none, w) => (some .bound, w)
   | (some pkg, w) =>
    let a : Account := { pkg := w.ownPkg, die := d, ctx := ctx, part := (w.ctx ctx).part, tpkg := pkg, tdie := td, tmc := tm, twin := tw }
    let p := acctPage a
    let v := w.savedView p (w.openElsewhere p tw)
    let here := decide (pkg = w.ownPkg)
    let known := (w.sends d).find? fun x => x.acc = a
    let size := if here then v.get p (R.MC_WGEOM_SIZEU.i tw) * 4096 else known.elim 0 (·.size)
    let accts := (v.win (winKey p tw)).accts
    if w.fenced d || (here && w.fenced td) then (some .fault, w)
    else if here && (v.winState p tw != 1 || !v.admits p tw a || decide (off + data.length > size)) then (some .bound, w)
    else if !here && size != 0 && decide (off + data.length > size) then (some .bound, w)
    else if here && accts.length ≥ 16 && !(accts.any fun x => x.acc = a) then (some .capacity, w)
    else
      match w.takeAcct d a with
      | none => (none, (w.rem fun r => { r with waits := SMap.mod [] r.waits d (· ++ [(ctx, addr, data)]) }).creditStall d ctx)
      | some w =>
        let w := w.modSend d a fun x => { x with queue := x.queue ++ [(off, data)] }
        (none, ((w.askCredit d a).pump d a).creditStall d ctx)

/-- A remote write issued: its status goes to the issuer (R136). -/
def Work.issueWr (d ctx addr : Nat) (data : List Byte) (w : Work) : Work :=
  let (st, w) := w.remoteWr d ctx addr data
  w.tell d ctx (st.getD .done)

/-- Writes of a die that waited for an account are issued again, in their order. -/
def Work.retryWrites (d : Nat) (w : Work) : Work :=
  (SMap.at [] w.dev.rem.waits d).foldl (fun (w : Work) x => (w.issueWr d x.1 x.2.1 x.2.2).creditStall d x.1)
    (w.rem fun r => { r with waits := SMap.drop r.waits d })

/-- REMOTE_WRITE. R135. -/
def execRemoteWrite (die ctx addr : Nat) (data : List Byte) (s : State) : Host.Outcome State Fault Refusal :=
  .next (s.run fun w => if die < 16 then (w.retryWrites die).issueWr die ctx addr data else w)

/-- A sender of this package whose request is refused is told so, and what it had queued is not sent (R136); a sender elsewhere by a message. -/
def Work.refuse (acc : Account) (st : Status) (w : Work) : Work :=
  if acc.pkg = w.ownPkg ∧ acc.pkg = acc.tpkg then
    let w := (w.modSend acc.die acc fun x => { x with queue := [] }).modSends acc.die fun l => l.filter fun x => x.acc ≠ acc ∨ x.balance ≠ 0
    (w.tell acc.die acc.ctx st).creditStall acc.die acc.ctx
  else w.credit 4 acc st.code

/-- CREDIT_REQ. R135, R136: the window grants what FREE allows, lets the request wait behind those that wait already, or refuses it. -/
def execCreditReq (acc : Account) (units : Nat) (s : State) : Host.Outcome State Fault Refusal :=
  .next (s.run fun w => w.forSaved (acctPage acc) (heldOpen acc) fun w =>
    let p := acctPage acc
    let i := acc.twin
    if acc.tdie < 16 ∧ acc.tmc < 128 ∧ i < 16 then
      let k := winKey p i
      let known := (w.win k).accts.any fun x => x.acc = acc
      if w.fenced acc.tdie then w.refuse acc .fault
      else if w.winState p i ≠ 1 ∨ !w.admits p i acc then w.refuse acc .bound
      else if !known && (w.win k).accts.length ≥ 16 then w.refuse acc .capacity
      else
        let w := if known then w else
          (w.modWin k fun x => { x with accts := x.accts ++ [{ acc := acc, waiting := 0 }], late := x.late.erase acc }).set p (R.MC_WPOOL_NACC.i i)
            ((w.win k).accts.length + 1)
        let free := w.get p (R.MC_WPOOL_FREE.i i)
        let g := min units (free / 4096)
        if g = 0 ∨ ((w.win k).accts.any fun x => decide (x.waiting ≠ 0)) then
          w.modWin k fun x =>
            if x.accts.any fun b => b.acc == acc && b.waiting != 0 then
              { x with accts := x.accts.map fun b => if b.acc = acc then { b with waiting := units } else b }
            else { x with accts := (x.accts.filter fun b => b.acc ≠ acc) ++ [{ acc := acc, waiting := units }] }
        else (w.set p (R.MC_WPOOL_FREE.i i) (free - g * 4096)).credit 1 acc g
    else w)

/-- The size in bytes that the first grant tells a sender: that of the window here; of another package's window a free value (R136, log entry 121). -/
def Work.toldSize (acc : Account) (w : Work) : Nat × Work :=
  if acc.tpkg = w.ownPkg then (w.get (acctPage acc) (R.MC_WGEOM_SIZEU.i acc.twin) * 4096, w)
  else ((w.fresh.1.toNat % 384 + 1) * 4096, w.fresh.2)

/-- The first grant of an account: its size is known from now on, and writes that go beyond it are refused with nothing sent (R136). -/
def Work.firstGrant (acc : Account) (w : Work) : Work :=
  if ((w.sends acc.die).find? fun x => x.acc = acc).any fun x => x.size == 0 then
    let (size, w) := w.toldSize acc
    let beyond := fun (q : Nat × List Byte) => decide (q.1 + q.2.length > size)
    let bad := (w.sends acc.die).any fun x => x.acc == acc && x.queue.any beyond
    let w := w.modSend acc.die acc fun x => { x with size := size, queue := x.queue.filter fun q => !beyond q }
    if bad then w.tell acc.die acc.ctx .bound else w
  else w

/-- CREDIT_GRANT. R135: the balance grows and the lines it covers are sent; a further shortfall asks again. -/
def execCreditGrant (acc : Account) (units : Nat) (s : State) : Host.Outcome State Fault Refusal :=
  .next (s.run fun w =>
    let w := (w.firstGrant acc).modSend acc.die acc fun x => { x with balance := x.balance + units * 4096 }
    let w := w.pump acc.die acc
    ((w.askCredit acc.die acc).creditStall acc.die acc.ctx).retryWrites acc.die)

/-- Data that arrives in a window: written to its place or to the saved copy, counted, and notified (R137, R139). -/
def Work.windowWrite (p i off : Nat) (data : List Byte) (w : Work) : Work :=
  let b := w.winLine p i * 128 + off
  let saved := (w.page p).state == .quiesced && (match (w.page p).ctx with | some c => (w.ctx c).hasSave | none => false)
  let c := (w.page p).ctx.getD 0
  let w := if saved then
      let w := (linesOf b data (data.length + 1)).foldl (fun (w : Work) l => w.wrs (savedA c (w.scratchOf p l.1)) l.2) w
      (scrWords b data.length).foldl (fun (w : Work) x =>
        if b ≤ x ∧ x + 32 ≤ b + data.length then w.wrB (savedA c (poisonA (w.scratchOf p x))) 0 else w) w
    else w.wideScr p b data
  let old := w.get64 p (R.MC_WARR_LO_ARR_LO.i i)
  let new := (old + data.length) % 2 ^ 64
  let step := w.get p (R.MC_WNOTIFY_NOTIFY.i i) * 4096
  let w := w.set64 p (R.MC_WARR_LO_ARR_LO.i i) new
  if step ≠ 0 ∧ old / step < new / step then
    (w.set p R.MC_WEVT_WINDATA (w.get p R.MC_WEVT_WINDATA ||| 2 ^ i)).raise p 19
  else w

/-- REMOTE_LINE. R137, R138, R139: a credited line is written and counted; one that arrives late after a timed-out close is discarded and
logged. -/
def execRemoteLine (acc : Account) (off : Nat) (data : List Byte) (s : State) : Host.Outcome State Fault Refusal :=
  .next (s.run fun w => w.forSaved (acctPage acc) (heldAccount acc) fun w =>
    let p := acctPage acc
    let i := acc.twin
    let k := winKey p i
    if acc.tdie < 16 ∧ acc.tmc < 128 ∧ i < 16 ∧ !w.fenced acc.tdie then
      if (w.win k).accts.any fun x => x.acc = acc then w.windowWrite p i off data
      else if (w.win k).late.contains acc then w.logOpen p none none 0x44 0
      else w
    else w)

/-- WIN_REVOKE. R138: the sender stops, returns its balance and confirms; what it had queued is refused. -/
def execWinRevoke (acc : Account) (s : State) : Host.Outcome State Fault Refusal :=
  .next (s.run fun w =>
    match (w.sends acc.die).find? fun x => x.acc = acc with
    | some x =>
      let w := (w.modSends acc.die fun l => l.filter fun y => y.acc ≠ acc).credit 3 acc x.balance
      let w := if x.queue.isEmpty then w else w.tell acc.die acc.ctx .bound
      (w.creditStall acc.die acc.ctx).retryWrites acc.die
    | none => w)

/-- WIN_REVOKE_CONFIRM. R138: the returned balance joins the pool; the last confirmation closes the window. -/
def execWinRevokeConfirm (acc : Account) (balance : Nat) (s : State) : Host.Outcome State Fault Refusal :=
  .next (s.run fun w => w.forSaved (acctPage acc) (heldAccount acc) fun w =>
    let p := acctPage acc
    let i := acc.twin
    let k := winKey p i
    if (w.win k).accts.any fun x => x.acc = acc then
      let w := w.modWin k fun x => { x with accts := x.accts.filter fun y => y.acc ≠ acc }
      let w := (w.set p (R.MC_WPOOL_FREE.i i) (w.get p (R.MC_WPOOL_FREE.i i) + balance)).set p (R.MC_WPOOL_NACC.i i) (w.win k).accts.length
      if w.winState p i = 2 then (if (w.win k).accts.isEmpty then w.winClosed p i false else w)
      else w.serveWin p i
    else { w with wr := w.wr })

/-- WIN_CLOSE_TIMEOUT. R138: 500 µs after the close it ends, with TIMEDOUT where some account has not confirmed. -/
def execWinCloseTimeout (die mc win : Nat) (s : State) : Host.Outcome State Fault Refusal :=
  .next (s.run fun w => if w.winState (mcPage die mc) win = 2 then w.winClosed (mcPage die mc) win true else w)

end Sys2Proof.Machine
end

