-- ==== Sys2Proof/Machine/Cells.lean ====
section
/-!
DEFINITION. Cells.lean: the local sequencer and every microinstruction: firing, counters, the fold schedule, edge masks, waves, drains,
vector operations and scratch accesses (R49–R51, R58–R67, R97–R99, R110–R121, R128–R129, R432).
-/
namespace Sys2Proof.Machine

/-! ### Microinstruction fields (Table 4.5) -/

def mOp (m : Nat) : Nat := bits m 7 0
def mCsel (m : Nat) : Nat := bits m 10 8
def mCen (m : Nat) : Bool := bit m 11
def mPred (m : Nat) : Nat := bits m 15 12
def mPinv (m : Nat) : Bool := bit m 16
def mImask (m : Nat) : Nat := bits m 28 17
def mOen (m : Nat) : Nat := bits m 34 29
def mTemit (m : Nat) : Nat := bits m 42 35
def mTcond (m : Nat) : Nat := bits m 44 43
def mNxt (m : Nat) : Nat := bits m 47 45
def mTarget (m : Nat) : Nat := bits m 53 48
def mImm (m : Nat) : Nat := bits m 63 54

/-- The inputs of a network that IMASK names, lowest first; as input numbers 0–3. -/
def mInputs (m net : Nat) : List Nat := (List.range 4).filter fun i => bit (mImask m) (4 * net + i)

/-! ### Counters (R61) -/

def Ctr.chain (c : Ctr) : Nat := c.cfg % 16
def Ctr.addrEn (c : Ctr) : Bool := bit c.cfg 4
def Ctr.accEn (c : Ctr) : Bool := bit c.cfg 5
def Ctr.maxb (c : Ctr) : Nat := bits c.cfg 31 8
/-- The counter holds BOUND − 1. -/
def Ctr.last (c : Ctr) : Bool := c.value + 1 == c.bound
/-- VALUE × STRIDE. -/
def Ctr.term (c : Ctr) : Int := c.value * toSigned 24 c.stride

def Slot.ctr (s : Slot) (n : Nat) : Ctr := s.ctrs.getD n {}

/-- One step of one counter, and whether it wrapped. -/
def Ctr.step (c : Ctr) : Ctr × Bool :=
  if c.bound = 0 then ({ c with value := 0 }, true)
  else if c.last then ({ c with value := 0 }, true)
  else ({ c with value := (c.value + 1) % 2 ^ 24 }, false)

/-- A step of counter n and of the chains that hang on it, from it outwards; whether n wrapped. `fuel` counts chain links: eight at most. -/
def stepCtr : Nat → Nat → List Ctr → List Ctr × Bool
  | 0, _, l => (l, false)
  | fuel + 1, n, l =>
    let (c, wrapped) := (l.getD n {}).step
    let l := l.set n c
    if wrapped then
      ((List.range 8).foldl (fun l k => if (l.getD k {}).chain = n then (stepCtr fuel k l).1 else l) l, true)
    else (l, false)

/-- Σ VALUE × STRIDE over the counters with ADDR_EN, or with ACC_EN. -/
def Slot.addrSum (s : Slot) : Int := s.ctrs.foldl (fun a c => if c.addrEn then a + c.term else a) 0
def Slot.accSum (s : Slot) : Int := s.ctrs.foldl (fun a c => if c.accEn then a + c.term else a) 0

/-! ### Edge masks (R97–R99) -/

/-- The masks in force for a kind of firing: for each CELL_EDGE n that applies, (VALUE of counter n, entry). -/
def Slot.masks (s : Slot) (kind : Nat) : List (Nat × EdgeE) :=
  (List.range 8).filterMap fun n =>
    match (SMap.at {} s.edges n).cur with
    | some e => if e.kind = kind ∧ (!e.ten ∨ (s.ctr e.tctr).last) then some ((s.ctr n).value, e) else none
    | none => none

/-- Whether element k of a firing is masked. -/
def maskedElem (x : Nat × EdgeE) (k : Nat) : Bool := decide (x.1 * 2 ^ x.2.lg + k ≥ x.2.valid)

/-- Whether nibble j of a 128-byte line is masked: element k of G covers nibbles k × 256 / G on. -/
def maskedNib (ms : List (Nat × EdgeE)) (j : Nat) : Bool := ms.any fun x => maskedElem x (j * 2 ^ x.2.lg / 256)

/-- Whether lane i of a VOP is masked. -/
def maskedLane (ms : List (Nat × EdgeE)) (i : Nat) : Bool :=
  ms.any fun x => if x.2.lg = 0 then maskedElem x 0 else decide (i < 2 ^ x.2.lg) && maskedElem x i

/-- Every element of the nibbles [lo, hi) is masked. -/
def allMasked (ms : List (Nat × EdgeE)) (lo hi : Nat) : Bool := (List.range (hi - lo)).all fun i => maskedNib ms (lo + i)

/-- `n` bytes at nibble `lo` of a line, masked nibbles taken from `b` and the others from `a`. -/
def mergeNib (ms : List (Nat × EdgeE)) (lo n a b : Nat) : Nat :=
  packElems 4 ((List.range (2 * n)).map fun j => if maskedNib ms (lo + j) then bits b (4 * j + 3) (4 * j) else bits a (4 * j + 3) (4 * j))

/-! ### The active slot (R64) -/

/-- Fold entries in use; NENT = 0 runs slot 0 alone. -/
def Work.foldSlots (w : Work) (p : Nat) : List Nat :=
  let n := w.get p R.CELL_FOLD_NENT
  if n = 0 then [0] else (List.range n).map fun i => w.get p (R.CELL_FOLDENT_SLOT.i i)

/-- The active slot of a cell. -/
def Work.activeSlot (w : Work) (p : Nat) (t : Site) : Nat := (w.foldSlots p).getD t.foldPos 0

/-- FIRINGS of the current entry, 0 for no limit. -/
def Work.foldLimit (w : Work) (p : Nat) (t : Site) : Nat :=
  if w.get p R.CELL_FOLD_NENT = 0 then 0 else w.get p (R.CELL_FOLDENT_FIRINGS.i t.foldPos)

/-- A slot of the fold schedule may fire: LIVE or DRAINING and not held (R73). -/
def Slot.runs (s : Slot) : Bool := (s.st == .live || s.st == .draining) && !s.hold

/-! ### Operand records (R432) -/

/-- Rows of an operand of a format: (rows of A, rows of B). -/
def opRows (fmt : Nat) : Nat × Nat := arrayOf fmt

/-- Bytes that a firing takes from an operand of `rows` rows; for CNF4, by the wave within the record. -/
def waveBytes (fmt rows wave : Nat) : Nat :=
  if fmt = 0xE then (if wave = 0 then rows * 24 else rows * 16)
  else rows * (rowBytes fmt + (if isMx fmt then 1 else 0))

/-- One row of one wave, decoded: `elems` its packed elements, `scale` the MX scale byte or the eight CNF4 bytes. -/
def rowVals (fmt wave elems scale : Nat) : List Fv :=
  (List.range 32).map fun k =>
    if fmt = 0xE then
      let e := bits scale 55 48
      let s := (32 * wave + k) / 16
      if e = 0xFF then .nan
      else match elemAt fmt elems k with
        | .fin n m x => .fin n m (x + e - 127 - bits scale (3 * s + 2) (3 * s))
        | v => v
    else if isMx fmt then scaleE8 scale (elemAt fmt elems k)
    else elemAt fmt elems k

/-- The rows of one wave from its bytes; `scales` the scale bytes of a CNF4 record. -/
def waveRows (fmt rows wave : Nat) (scales data : List Byte) : List (List Fv) :=
  (List.range rows).map fun r =>
    if fmt = 0xE then rowVals fmt wave (leNat ((data.drop (16 * r)).take 16)) (leNat ((scales.drop (8 * r)).take 8))
    else
      let n := rowBytes fmt
      let m := if isMx fmt then n + 1 else n
      let row := (data.drop (m * r)).take m
      rowVals fmt 0 (leNat (row.take n)) (leNat (row.drop n))

/-- What a firing takes from a stream: the stream after it, the scale bytes in force, the element bytes, the wave; none where the bytes are
not all there. Flits are popped as soon as a byte of them is taken (log entry 20). -/
def takeWave (fmt rows : Nat) (init : Bool) (st : Stream) (flits : List Nat) :
    Option (Stream × Nat × List Byte × List Byte × Nat) :=
  let st := if init then {} else st
  let need := waveBytes fmt rows st.wave
  let pops := ceilDiv (need - st.residue.length) 128
  if pops ≤ flits.length then
    let all := st.residue ++ ((flits.take pops).map (natLE 128)).flatten
    let mine := all.take need
    let scales := if fmt = 0xE ∧ st.wave = 0 then mine.take (8 * rows) else st.scales
    let data := if fmt = 0xE ∧ st.wave = 0 then mine.drop (8 * rows) else mine
    let wave := if fmt = 0xE then (st.wave + 1) % 8 else 0
    some ({ residue := all.drop need, scales := if wave = 0 then [] else scales, wave := wave }, pops, scales, data, st.wave)
  else none

/-- Bytes of the operand buffer from an offset that may lie outside it: those read as zero. -/
def Work.opbBytes (w : Work) (d cc : Nat) (from_ : Int) (n : Nat) : List Byte :=
  (List.range n).map fun (i : Nat) =>
    let a := from_ + (i : Int)
    if 0 ≤ a ∧ a < 32768 then w.rd (opbA d cc a.toNat) else 0

/-- The rows of the resident operand of a firing: record i of the buffer, or wave i mod 8 of record i / 8 for CNF4. -/
def Work.residentRows (w : Work) (d cc fmt rows : Nat) (i : Int) : List (List Fv) :=
  if fmt = 0xE then
    let base := i / 8 * (rows * 136)
    let wave := (i % 8).toNat
    waveRows fmt rows wave (w.opbBytes d cc base (8 * rows)) (w.opbBytes d cc (base + 8 * rows + 16 * rows * wave) (16 * rows))
  else
    let n := waveBytes fmt rows 0
    waveRows fmt rows 0 [] (w.opbBytes d cc (i * n) n)

/-! ### Readiness (R58) -/

/-- A firing as its operation sees it: die, site, slot key, page, microinstruction, and the slot as it was. -/
structure Firing where
  d : Nat
  site : Nat
  k : Nat
  p : Nat
  m : Nat
  s : Slot
  epoch : Nat

/-- The instance of the firing's cell. -/
def Firing.inst (f : Firing) : Nat := (blockOf f.p).2

/-- The transfers of a bank that the current epoch covers, head first. -/
def Firing.heads (f : Firing) (b : Nat) : List Xfer := (f.s.bank b).takeWhile fun x => x.epoch == f.epoch

/-- MMA and MMA_INIT. -/
def isMma (m : Nat) : Bool := mOp m == 0x10 || mOp m == 0x11

/-- Rows of the operand that vector input i carries in an MMA: A in modes 0 and 1, B on V1 of mode 0 and on V0 of mode 2. -/
def Firing.streamRows (f : Firing) (i : Nat) : Nat :=
  let (a, b) := opRows f.s.fmt
  if i = 1 ∨ bits (mImm f.m) 9 8 = 2 then b else a

/-- What the firing takes from a streamed operand. -/
def Firing.wave (f : Firing) (i : Nat) : Option (Stream × Nat × List Byte × List Byte × Nat) :=
  takeWave f.s.fmt (f.streamRows i) (mOp f.m == 0x11) (SMap.at {} f.s.streams i) ((f.heads i).map (·.data))

/-- Transfers that a firing needs at, and pops from, a bank that IMASK names. -/
def Firing.need (f : Firing) (b : Nat) : Nat :=
  if b < 4 ∧ mOp f.m = 0x20 ∧ ((mInputs f.m 0).take 2).contains b then 2
  else if b < 4 ∧ isMma f.m then (f.wave b).elim 1 fun x => x.2.1
  else 1

/-- Every input that the firing needs is there. -/
def Firing.inReady (f : Firing) : Bool :=
  ((List.range 12).all fun b =>
    !bit (mImask f.m) b ||
      (if b < 4 && isMma f.m then (f.wave b).isSome
       else decide (f.need b ≤ (f.heads b).length) && (decide (b < 8) || (f.heads b).head?.all fun x => !tagSystem x.tag))) &&
  (if 1 ≤ mPred f.m ∧ mPred f.m ≤ 4 then
    match (f.heads (7 + mPred f.m)).head? with
    | some x => !tagSystem x.tag
    | none => false
   else true)

/-- Every output that OEN enables has a free staging register. -/
def Firing.outReady (f : Firing) : Bool := (List.range 6).all fun o => !bit (mOen f.m) o || (f.s.out o).isEmpty

/-- The current instruction of a slot as a firing. -/
def Work.firing (w : Work) (d site slot : Nat) : Firing :=
  let k := slotKey d site slot
  let s := w.slot k
  { d := d, site := site, k := k, p := cellPage d site, m := SMap.at 0 s.mstore s.pc, s := s, epoch := (w.site (siteKey d site)).epoch }

/-- A SKIPZ instruction. -/
def Firing.isSkipz (f : Firing) : Bool := mNxt f.m == 4

/-- The slot can fire (R64, R58, R73). -/
def Firing.able (f : Firing) : Bool := f.s.runs && (f.isSkipz || (f.inReady && f.outReady))

/-- Stale heads of all banks of a slot discarded (R63). -/
def Work.purgeSlot (d site slot : Nat) (w : Work) : Work :=
  let k := slotKey d site slot
  (List.range 12).foldl (fun w b =>
    let l := (w.slot k).bank b
    let keep := l.dropWhile fun x => w.stale d site x.epoch
    if keep.length = l.length then w
    else (l.take (l.length - keep.length)).foldl (fun w x => w.discardCell d site x) (w.modSlot k fun s => s.setBank b keep)) w

/-! ### One firing -/

/-- What an operation comes to: the work done, or a contained fault with its code, its DETAIL and what it leaves marked. -/
inductive Fired where
  | ok (w : Work)
  | fault (code : Nat) (detail : Option Nat) (note : Work → Work)

/-- The head of an input as the firing saw it. -/
def Firing.head (f : Firing) (b : Nat) : Option Xfer := (f.heads b).head?

/-- The data of a head; a free value where the slot has none there (log entry 2). -/
def Firing.headData (f : Firing) (b : Nat) (w : Work) : Nat × Work :=
  match f.head b with
  | some x => (x.data, w)
  | none => ((w.fresh).1.toNat, (w.fresh).2)

/-- A transfer put into an output's staging, if OEN enables it; outputs 0–1 vector, 2–3 scalar, 4–5 control. -/
def Firing.emit (f : Firing) (o data : Nat) (w : Work) : Work :=
  if bit (mOen f.m) o then w.modSlot f.k fun s => s.setOut o (s.out o ++ [{ epoch := f.epoch, data := data }]) else w

/-- The popping of step 2: IMASK and the predicate input; streams keep their residue. -/
def Work.popAll (f : Firing) (w : Work) : Work :=
  let c := w.siteCtx f.d f.site
  let pop := fun (b n : Nat) (w : Work) =>
    let l := (w.slot f.k).bank b
    (l.take n).foldl (fun w x => w.goGone c x) (w.modSlot f.k fun s => s.setBank b (l.drop n))
  let w := (List.range 12).foldl (fun w b => if bit (mImask f.m) b then pop b (f.need b) w else w) w
  let w := if 1 ≤ mPred f.m ∧ mPred f.m ≤ 4 then pop (7 + mPred f.m) 1 w else w
  if isMma f.m then
    (List.range 4).foldl (fun w i =>
      if bit (mImask f.m) i then
        match f.wave i with
        | some x => w.modSlot f.k fun s => { s with streams := SMap.put {} s.streams i x.1 }
        | none => w
      else w) w
  else w

/-- The predicate (Table 4.7) before and after PINV; none where the input holds a tag that is no predicate. -/
def Firing.predicate (f : Firing) : Option (Bool × Bool) :=
  let n := mPred f.m
  let sense :=
    if n = 0 then some true
    else if n ≤ 4 then
      match f.head (7 + n) with
      | some x => if x.tag = tagPredT then some true else if x.tag = tagPredF then some false else none
      | none => none
    else if n ≤ 12 then some (f.s.ctr (n - 5)).last
    else some f.s.latch
  sense.map fun b => (b, b != mPinv f.m)

/-- The next address (Table 4.8). -/
def nextPc (m pc : Nat) (p wrapped bz : Bool) : Nat :=
  let seq := (pc + 1) % 64
  match mNxt m with
  | 1 => mTarget m
  | 2 => if wrapped then seq else mTarget m
  | 3 => if p then mTarget m else seq
  | 4 => if bz then mTarget m else seq
  | 5 => pc
  | _ => seq

/-- Steps 3 to 6 of a firing around its operation. -/
def Work.finishFiring (f : Firing) (p : Bool) (drain : Bool) (w : Work) : Work :=
  let (ctrs, wrapped) := if mCen f.m then stepCtr 9 (mCsel f.m) (w.slot f.k).ctrs else ((w.slot f.k).ctrs, false)
  let w := w.modSlot f.k fun s => { s with ctrs := ctrs }
  -- a token goes out where a control output is enabled (R59)
  let emits := mTemit f.m != 0 && (bit (mOen f.m) 4 || bit (mOen f.m) 5) &&
    (match mTcond f.m with | 0 => true | 1 => wrapped | 2 => p | _ => !p)
  -- R116: a drain that emits first sends its residue, padded with zero bytes
  let w := if drain && emits && !(w.slot f.k).drainRes.isEmpty then
      let r := (w.slot f.k).drainRes
      (f.emit 0 (leNat r) w).modSlot f.k fun s => { s with drainRes := [] }
    else w
  let w := if drain then w.modSlot f.k fun s => { s with dcount := (s.dcount + 1) % 2 ^ 44 } else w
  let w := if emits then
      [4, 5].foldl (fun w o => f.emit o (mTemit f.m + 256 * f.epoch) w) w
    else w
  w.modSlot f.k fun s =>
    { s with pc := nextPc f.m f.s.pc p wrapped false, st := if mNxt f.m = 5 then .halted else s.st }

/-- After a firing: the count of the fold entry, CNT_FIRINGS, the deadlock window, heads that have become stale, EV_HALT. -/
def Work.fired (f : Firing) (slot : Nat) (w : Work) : Work :=
  let sk := siteKey f.d f.site
  let w := (w.modSite sk fun t => { t with foldCount := t.foldCount + 1, waitedIn := false, waitedOut := false }).count f.p 0 1
  let w := (w.handshake f.d (w.siteCtx f.d f.site)).purgeSlot f.d f.site slot
  let w := if mNxt f.m = 5 then w.checkDrainedAt f.d f.site else w
  if mNxt f.m = 5 ∧ (w.foldSlots f.p).all fun n => (w.slot (slotKey f.d f.site n)).st == .halted then w.raise f.p 16 else w

/-- The current microinstruction of the cell at a site, if its opcode is `op`, fires where R58 lets it; else its wait is counted once
(R65). `act` is its operation. A firing that faults counts as a firing. -/
def Work.fire (d site op : Nat) (act : Firing → Work → Fired) (w : Work) : Work :=
  if !w.cellRuns d site then w
  else
    let sk := siteKey d site
    let slot := w.activeSlot (cellPage d site) (w.site sk)
    let w := w.purgeSlot d site slot
    let f := w.firing d site slot
    let limit := w.foldLimit f.p (w.site sk)
    if !f.s.runs || mOp f.m != op || f.isSkipz || (limit != 0 && decide (limit ≤ (w.site sk).foldCount)) then w
    else if !f.inReady then
      if (w.site sk).waitedIn then w else (w.modSite sk fun t => { t with waitedIn := true }).count f.p 2 1
    else if !f.outReady then
      if (w.site sk).waitedOut then w else (w.modSite sk fun t => { t with waitedOut := true }).count f.p 3 1
    else
      let fault := fun (code : Nat) (detail : Option Nat) (w : Work) =>
        match w.siteCtx d site with
        | some c => w.ctxFault c f.p code detail
        | none => w
      match f.predicate with
      | none => fault 0x40 none (w.count f.p 0 1)
      | some (sense, p) =>
        let w1 := w.popAll f
        let w1 := if 1 ≤ mPred f.m ∧ mPred f.m ≤ 4 then w1.modSlot f.k fun s => { s with latch := sense } else w1
        match if p then act f w1 else .ok w1 with
        | .fault code detail note => fault code detail ((note w).count f.p 0 1)
        | .ok w2 => (w2.finishFiring f p (op == 0x13)).fired f slot

/-- SKIPZ. R58, Table 4.8: step 6 alone, without waiting for anything. -/
def execSkipz (die site : Nat) (s : State) : Host.Outcome State Fault Refusal :=
  .next (s.run fun w =>
    if !w.cellRuns die site then w
    else
      let sk := siteKey die site
      let slot := w.activeSlot (cellPage die site) (w.site sk)
      let f := w.firing die site slot
      let limit := w.foldLimit f.p (w.site sk)
      if !f.s.runs || !f.isSkipz || (limit != 0 && decide (limit ≤ (w.site sk).foldCount)) then w
      else
        let bz := (f.s.ctr (mCsel f.m)).bound == 0
        ((w.modSlot f.k fun s => { s with pc := nextPc f.m s.pc false false bz }).fired f slot))

/-! ### The microinstructions (Table 4.6) -/

/-- MICRO_NOP. R58: pops IMASK and does nothing else. -/
def execMicroNop (die site : Nat) (s : State) : Host.Outcome State Fault Refusal :=
  .next (s.run fun w => w.fire die site 0x00 fun _ w => .ok w)

/-- MOV. R60: on the vector and the scalar network, the head of the lowest named input goes to every enabled output. -/
def execMov (die site : Nat) (s : State) : Host.Outcome State Fault Refusal :=
  .next (s.run fun w => w.fire die site 0x01 fun f w =>
    .ok ([0, 1].foldl (fun w net =>
      match (mInputs f.m net).head? with
      | some i => ((f.head (4 * net + i)).elim w fun x => f.emit (2 * net) x.data (f.emit (2 * net + 1) x.data w))
      | none => w) w))

/-- WAITT. R60: the token must carry the expected tag. -/
def execWaitt (die site : Nat) (s : State) : Host.Outcome State Fault Refusal :=
  .next (s.run fun w => w.fire die site 0x02 fun f w =>
    match (mInputs f.m 2).head?.bind fun i => f.head (8 + i) with
    | some x => if x.tag = mImm f.m % 256 then .ok w else .fault 0x41 none id
    | none => .ok w)

/-- The pending edge entries that an LDBOUND on counter n takes into force (R99). -/
def Slot.takeEdges (n : Nat) (s : Slot) : Slot :=
  { s with edges := (List.range 8).foldl (fun m i =>
      match (SMap.at {} m i).pend with
      | e :: rest => if e.tctr = n then SMap.put {} m i { cur := some e, pend := rest } else m
      | [] => m) s.edges }

/-- LDBOUND. R60, R99: BOUND of counter CSEL takes the word, VALUE becomes 0, and pending edge entries of that tile counter come into
force. -/
def execLdbound (die site : Nat) (s : State) : Host.Outcome State Fault Refusal :=
  .next (s.run fun w => w.fire die site 0x03 fun f w =>
    let n := mCsel f.m
    let (v, w) := f.headData (4 + (mInputs f.m 1).headD 0) w
    let v := v % 2 ^ 32
    if v > (f.s.ctr n).maxb then .fault 0x43 none id
    else .ok (w.modSlot f.k fun s => Slot.takeEdges n { s with ctrs := s.ctrs.modify n fun c => { c with value := 0, bound := v } }))

/-! Waves (R49, R110–R112) -/

/-- Byte address of accumulator entry i of a block that starts at byte `base`, modulo 256 KiB. -/
def Firing.accAt (f : Firing) (base : Int) (i : Nat) : Nat := accA f.d f.inst ((base + 4 * i) % 2 ^ 18).toNat

/-- The integer of an exact integer value. -/
def Fv.toInt : Fv → Int
  | .fin n m _ => signedMag n m
  | _ => 0

/-- One entry of a wave: the exact products of a row of A and a row of B, added to the entry (`init`: replacing it) with one rounding, or
as integers with a clamp; the flag says that it clamped. -/
def waveEntry (fmt : Nat) (init : Bool) (acc : Nat) (ra rb : List Fv) : Nat × Bool :=
  let prods := List.zipWith Fv.mul ra rb
  if fmt = 0xB ∨ fmt = 0xC then
    let g := prods.foldl (fun a v => a + v.toInt) 0
    let x := if init then g else toSigned 32 acc + g
    let y := max (-2 ^ 31) (min (2 ^ 31 - 1) x)
    (ofSigned 32 y, decide (x ≠ y))
  else (toF32 (sumFv (if init then prods else ofF32 acc :: prods)), false)

/-- The rows of an operand of a wave: streamed from input i, or resident. -/
def Firing.rows (f : Firing) (resident : Bool) (i rows : Nat) (w : Work) : List (List Fv) :=
  if resident then w.residentRows f.d f.inst f.s.fmt rows f.s.addrSum
  else match f.wave i with
    | some (_, _, scales, data, wave) => waveRows f.s.fmt rows wave scales data
    | none => []

/-- A wave (R49): the output block in row-major order from ACCBASE plus the ACC_EN counters; CNT_WAVES and CNT_SAT. -/
def Work.mmaWave (f : Firing) (init : Bool) (w : Work) : Work :=
  let mode := bits (mImm f.m) 9 8
  let (na, nb) := opRows f.s.fmt
  let ra := f.rows (mode == 2) 0 na w
  let rb := f.rows (mode == 1) (if mode = 0 then 1 else 0) nb w
  let base : Int := mImm f.m % 256 * 1024 + 128 * f.s.accSum
  let step := fun (w : Work) (i : Nat) =>
    let a := f.accAt base i
    let (v, sat) := waveEntry f.s.fmt init (w.le a 4) (ra.getD (i / nb) []) (rb.getD (i % nb) [])
    let w := w.wrLE a 4 v
    if sat then w.count f.p 7 1 else w
  ((List.range (na * nb)).foldl step w).count f.p 1 1

/-- MMA. R49: one wave added to the block. -/
def execMma (die site : Nat) (s : State) : Host.Outcome State Fault Refusal :=
  .next (s.run fun w => w.fire die site 0x10 fun f w => .ok (w.mmaWave f false))

/-- MMA_INIT. R49: one wave whose group sums replace the block. -/
def execMmaInit (die site : Nat) (s : State) : Host.Outcome State Fault Refusal :=
  .next (s.run fun w => w.fire die site 0x11 fun f w => .ok (w.mmaWave f true))

/-- OPB_LOAD. R60: the head flit of V0 goes to the line of the operand buffer that the ADDR_EN counters give. -/
def execOpbLoad (die site : Nat) (s : State) : Host.Outcome State Fault Refusal :=
  .next (s.run fun w => w.fire die site 0x12 fun f w =>
    let (v, w) := f.headData 0 w
    let a := 128 * f.s.addrSum
    .ok (if 0 ≤ a ∧ a < 32768 then w.wrLE (opbA f.d f.inst a.toNat) 128 v else w))

/-! Drains (R113–R118) -/

/-- The bytes that a converting drain of 32 entries appends, and how many elements count in CNT_SAT. `draw` gives the generator's output
for a lane. -/
def drainBytes (code : Nat) (draw : Nat → Nat) (es : List Nat) : List Byte × Nat :=
  if code = 12 ∨ code = 13 then
    let (f, emax) := if code = 12 then (e4m3, (8 : Int)) else (e2m1, 2)
    let (xs, x, n) := mxBlock f emax es
    (natLE (4 * f.width) (packElems f.width xs) ++ [BitVec.ofNat 8 x], n)
  else
    let ys := (List.range 32).map fun i => convElem code (draw i) (es.getD i 0)
    let wd := (convElem code 0 0).1
    (natLE (4 * wd) (packElems wd (ys.map (·.2.1))), (ys.filter fun y => y.2.2).length)

/-- The key a drain draws with: that latched at the bump which began the epoch the cell has taken (R119); its context may still be taking that bump. -/
def Work.drawKey (w : Work) (c epoch : Nat) : DWord := if (w.cfg c).bumpTo = epoch + 1 then (w.cfg c).srBump else (w.ctx c).srKey

/-- ACC_DRAIN. R116: 32 entries sent as one flit, or converted and appended to the output's byte stream, a flit for each full 128 bytes. -/
def execAccDrain (die site : Nat) (s : State) : Host.Outcome State Fault Refusal :=
  .next (s.run fun w => w.fire die site 0x13 fun f w =>
    let base : Int := bits (mImm f.m) 9 4 * 4096 + 128 * f.s.accSum
    let es := (List.range 32).map fun i => w.le (f.accAt base i) 4
    let code := mImm f.m % 16
    if code = 0 then .ok (f.emit 0 (packElems 32 es) w)
    else
      let key := (w.siteCtx f.d f.site).elim 0 fun c => (w.drawKey c f.epoch).toNat
      let (bs, sat) := drainBytes code (srDraw key f.s.dcount f.s.ldie f.site (f.k % 8)) es
      let all := (w.slot f.k).drainRes ++ bs
      let w := w.count f.p 7 sat
      .ok (if 128 ≤ all.length then
          (f.emit 0 (leNat (all.take 128)) w).modSlot f.k fun s => { s with drainRes := all.drop 128 }
        else w.modSlot f.k fun s => { s with drainRes := all }))

/-- ACC_CLEAR. R60: 32 entries become +0.0. -/
def execAccClear (die site : Nat) (s : State) : Host.Outcome State Fault Refusal :=
  .next (s.run fun w => w.fire die site 0x14 fun f w =>
    let base : Int := mImm f.m % 256 * 1024 + 128 * f.s.accSum
    .ok ((List.range 32).foldl (fun w i => w.wrLE (f.accAt base i) 4 0) w))

/-! The vector unit (R50, R120, R121) -/

/-- Lane i of a two-flit operand or of a vector register. -/
def lanesOf (x : Nat) : List Nat := (List.range 64).map fun i => bits x (32 * i + 31) (32 * i)

/-- A lane-wise vector function of Table 4.9. -/
def laneFn (fn a b c : Nat) : Nat :=
  match fn with
  | 0x00 => f32Add a b
  | 0x01 => f32Sub a b
  | 0x02 => f32Mul a b
  | 0x03 => f32Fma a b c
  | 0x04 => f32Max a b
  | 0x05 => f32Min a b
  | 0x06 => f32Gt a b
  | 0x08 => f32Exp2 a
  | 0x09 => f32Log2 a
  | 0x0A => f32Rcp a
  | 0x0B => f32Rsqrt a
  | 0x0C => f32Tanh a
  | _ => a

/-- VOP. R50: 64 lanes; operands from vector inputs, the accumulator or a vector register; the result to vector output 0, the vector
register, or, reduced, to scalar output 0. -/
def execVop (die site : Nat) (s : State) : Host.Outcome State Fault Refusal :=
  .next (s.run fun w => w.fire die site 0x20 fun f w =>
    let imm := mImm f.m
    let fn := imm % 32
    let vr := vregA f.d f.inst (bits imm 8 5 * 256)
    let vreg := lanesOf (w.le vr 256)
    let input := fun (b : Nat) => lanesOf (packElems 1024 ((f.heads b).take 2 |>.map (·.data)))
    let ins := mInputs f.m 0
    let a := match ins with | i :: _ => input i | [] => vreg
    let b := match ins with
      | _ :: j :: _ => input j
      | _ => if bit imm 9 then (List.range 64).map fun i => w.le (f.accAt (128 * f.s.accSum) i) 4 else vreg
    let ninf := f.s.masks 2
    let zero := f.s.masks 3
    let a := (List.range 64).map fun i =>
      if maskedLane zero i then 0 else if maskedLane ninf i then ninf32 else a.getD i 0
    if fn = 0x10 then .ok (f.emit 2 (treeOf f32Add 6 a) w)
    else if fn = 0x11 then .ok (f.emit 2 (treeOf f32Max 6 a) w)
    else
      let r := (List.range 64).map fun i => laneFn fn (a.getD i 0) (b.getD i 0) (vreg.getD i 0)
      if bit (mOen f.m) 0 then .ok (f.emit 0 (packElems 32 (r.drop 32)) (f.emit 0 (packElems 32 (r.take 32)) w))
      else .ok (w.wrLE vr 256 (packElems 32 r)))

/-! Scratch accesses (R51, R128, R129, R143) -/

/-- DETAIL of a BOUND fault: the pair and the low bits of the offset (R129). -/
def boundDetail (pair : Nat) (o : Int) : Nat := pair * 2 ^ 30 + ofSigned 30 o

/-- The fault of an access that R128 refuses. -/
def Firing.boundFault (f : Firing) (pair : Nat) (o : Int) : Fired := .fault 0x14 (some (boundDetail pair o)) fun w => w.raise f.p 18

/-- A wide read at offset `o` of the pair to vector output 0, masked elements as zero bytes. -/
def Firing.wideRead (f : Firing) (o : Int) (w : Work) : Fired :=
  let pair := mImm f.m % 4
  let ms := f.s.masks 0
  if allMasked ms 0 256 then .ok ((f.emit 0 0 w).count f.p 1 1)
  else match w.pairAddr f.p pair o false false with
    | none => f.boundFault pair o
    | some b =>
      if w.scrPoison f.p b 128 then .fault 0x1E none (Work.decodeScr f.p b 128)
      else .ok ((f.emit 0 (mergeNib ms 0 128 (w.le (w.scratchOf f.p b) 128) 0) (w.decodeScr f.p b 128)).count f.p 1 1)

/-- MRD. R51. -/
def execMrd (die site : Nat) (s : State) : Host.Outcome State Fault Refusal :=
  .next (s.run fun w => w.fire die site 0x40 fun f w => f.wideRead f.s.addrSum w)

/-- A line written with some of its elements masked: words with a masked element are read and corrected first and keep their tag (R142, R143). -/
def Work.maskedLine (p b : Nat) (ms : List (Nat × EdgeE)) (v : Nat) (w : Work) : Work :=
  let part := fun (q : Nat) => (List.range 64).any fun j => maskedNib ms (64 * q + j)
  let w := (List.range 4).foldl (fun (w : Work) q => if part q then w.decodeWord p (b + 32 * q) else w) w
  (List.range 4).foldl (fun (w : Work) q => if part q then w else w.clearScr p (b + 32 * q) 32) (w.wrLE (w.scratchOf p b) 128 v)

/-- MWR. R51: the head flit of V0 to one line; masked elements stay as they are; the tags of words written whole clear (R143). -/
def execMwr (die site : Nat) (s : State) : Host.Outcome State Fault Refusal :=
  .next (s.run fun w => w.fire die site 0x41 fun f w =>
    let pair := mImm f.m % 4
    let o := f.s.addrSum
    let ms := f.s.masks 1
    let (v, w) := f.headData 0 w
    if allMasked ms 0 256 then .ok (w.count f.p 1 1)
    else match w.pairAddr f.p pair o false true with
      | none => f.boundFault pair o
      | some b =>
        .ok ((w.maskedLine f.p b ms (mergeNib ms 0 128 v (w.le (w.scratchOf f.p b) 128))).count f.p 1 1))

/-- MRDN. R51: one word to scalar output 0. -/
def execMrdn (die site : Nat) (s : State) : Host.Outcome State Fault Refusal :=
  .next (s.run fun w => w.fire die site 0x42 fun f w =>
    let pair := mImm f.m % 4
    let o := f.s.addrSum
    let ms := f.s.masks 0
    let lo := 8 * (o % 32).toNat
    if allMasked ms lo (lo + 8) then .ok (f.emit 2 0 w)
    else match w.pairAddr f.p pair o true false with
      | none => f.boundFault pair o
      | some b =>
        if w.scrPoison f.p b 4 then .fault 0x1E none (Work.decodeScr f.p b 4)
        else .ok (f.emit 2 (mergeNib ms lo 4 (w.le (w.scratchOf f.p b) 4) 0) (w.decodeScr f.p b 4)))

/-- MWRN. R51, R124, R142: the enabled bytes of the head word of S0 to one word, whose 32-byte word is read and corrected first. -/
def execMwrn (die site : Nat) (s : State) : Host.Outcome State Fault Refusal :=
  .next (s.run fun w => w.fire die site 0x43 fun f w =>
    let pair := mImm f.m % 4
    let be := bits (mImm f.m) 5 2
    let o := f.s.addrSum
    let ms := f.s.masks 1
    let lo := 8 * (o % 32).toNat
    let (v, w) := f.headData 4 w
    if allMasked ms lo (lo + 8) then .ok w
    else match w.pairAddr f.p pair o true true with
      | none => f.boundFault pair o
      | some b =>
        let a := w.scratchOf f.p b
        let old := w.le a 4
        let merged := natLE 4 (mergeNib ms lo 4 v old)
        if be = 0 then .ok w
        else .ok ((List.range 4).foldl (fun w i => if bit be i then w.wrB (a + i) (merged.getD i 0) else w) (w.decodeWord f.p b)))

/-- MRD_IDX. R51: as MRD, the head word of the named scalar input added in lines. -/
def execMrdIdx (die site : Nat) (s : State) : Host.Outcome State Fault Refusal :=
  .next (s.run fun w => w.fire die site 0x44 fun f w =>
    let (v, w) := f.headData (4 + (mInputs f.m 1).headD 0) w
    f.wideRead (f.s.addrSum + (v % 2 ^ 32 : Nat)) w)

/-! ### Folding (R64) -/

/-- The entries of a fold schedule in the order of the search: after the current one, round to it. -/
def foldOrder (n pos : Nat) : List Nat := (List.range n).map fun i => (pos + 1 + i) % n

/-- FOLD_SLOT_SWITCH. R64: the current entry has used up its FIRINGS, or its slot has halted, or cannot fire and may yield: the next entry whose slot can
fire is taken with a fresh count. -/
def execFoldSlotSwitch (die site : Nat) (s : State) : Host.Outcome State Fault Refusal :=
  .next (s.run fun w =>
    if !w.cellRuns die site then w
    else
      let p := cellPage die site
      let sk := siteKey die site
      let w := (List.range 8).foldl (fun w n => w.purgeSlot die site n) w
      let slots := w.foldSlots p
      let pos := (w.site sk).foldPos
      let able := fun i => (w.firing die site (slots.getD i 0)).able
      let cur := (w.firing die site (slots.getD pos 0)).s
      let limit := w.foldLimit p (w.site sk)
      let spent := limit != 0 && decide (limit ≤ (w.site sk).foldCount)
      let finished := spent || cur.st == .halted
      let yields := w.get p R.CELL_FOLD_YIELD_BLOCK == 1 && !able pos
      match finished || yields, (foldOrder slots.length pos).find? able with
      | true, some i =>
        let w := w.modSite sk fun t => { t with foldPos := i, foldCount := 0, waitedIn := false, waitedOut := false }
        if i = pos then w
        else if finished then w.count p 5 1
        else (w.count p 5 1).count p 6 1
      | _, _ => w)

end Sys2Proof.Machine
end

