-- ==== Sys2Proof/Machine/Reconf.lean ====
section
/-!
DEFINITION. Reconf.lean: configuration images, slot states, drains, fences and epochs (R69–R82).
-/
namespace Sys2Proof.Machine

/-! ### CRC-32C (R69) -/

/-- One bit of the reflected Castagnoli polynomial. -/
def crcBit (c : Nat) : Nat := if bit c 0 then (c >>> 1) ^^^ 0x82F63B78 else c >>> 1
/-- One byte. -/
def crcByte (c : Nat) (b : Byte) : Nat := (List.range 8).foldl (fun c _ => crcBit c) (c ^^^ b.toNat)
/-- CRC-32C of a byte string. -/
def crc32c (l : List Byte) : Nat := (l.foldl crcByte 0xFFFFFFFF) ^^^ 0xFFFFFFFF

/-! ### The image (Tables 5.1–5.3) -/

/-- One cell record: its die section's logical die and physical die, and its 704 bytes. -/
structure Rec where
  ldie : Nat
  die : Nat
  bytes : List Byte

/-- The `n` bytes at offset `o` of a record as a number. -/
def Rec.f (r : Rec) (o n : Nat) : Nat := leNat ((r.bytes.drop o).take n)
def Rec.site (r : Rec) : Nat := r.f 0 1
def Rec.slot (r : Rec) : Nat := r.f 1 1 % 8
def Rec.format (r : Rec) : Nat := r.f 2 1 % 16
def Rec.cell (r : Rec) : Bool := bit (r.f 3 1) 0
def Rec.switch (r : Rec) : Bool := bit (r.f 3 1) 1
def Rec.fold (r : Rec) : Bool := bit (r.f 3 1) 2
def Rec.micros (r : Rec) : List Nat := (List.range 64).map fun i => r.f (64 + 8 * i) 8
/-- Counter n of a record. -/
def Rec.ctr (r : Rec) (n : Nat) : Ctr :=
  let o := 576 + 16 * n
  { value := r.f o 4 % 2 ^ 24, bound := r.f (o + 4) 4 % 2 ^ 24, stride := r.f (o + 8) 4 % 2 ^ 24, cfg := r.f (o + 12) 4 }
def Rec.ctrs (r : Rec) : List Ctr := (List.range 8).map r.ctr
def Rec.key (r : Rec) : Nat := slotKey r.die r.site r.slot

/-- A die section: logical die, physical die, CGMASK, drain entries, records. -/
structure Section where
  ldie : Nat
  die : Nat
  cgmask : Nat
  entries : List Nat
  recs : List Rec
  ok : Bool

/-- Physical die of logical die n in ARG3 and ARG4. -/
def Call.dieOfLogical (c : Call) (n : Nat) : Nat := bits (c.arg (3 + n / 8)) (4 * (n % 8) + 3) (4 * (n % 8))

/-- The section at entry i of the table; `ok` says that it lies within the image and that its own reserved fields are zero. -/
def Work.section (w : Work) (c : Call) (a len i : Nat) : Section :=
  let t := a + w.le (a + 16) 4 + 64 * i
  let f := fun (o n : Nat) => w.le (t + o) n
  let nrec := f 4 2
  let nent := f 6 2
  let off := f 8 4
  let ldie := f 0 1
  let die := c.dieOfLogical (ldie % 16)
  let fits := decide (off + 704 * nrec ≤ len) && off % 64 == 0 && decide (1 ≤ nrec) && decide (nrec ≤ 2048) && decide (nent ≤ 16)
  let entries := (List.range (min nent 16)).map fun k => f (16 + 2 * k) 2
  { ldie := ldie, die := die, cgmask := f 2 2, entries := entries
    recs := if fits then (List.range nrec).map fun k => ⟨ldie, die, w.rdN (a + off + 704 * k) 704⟩ else []
    ok := fits && decide (ldie < 16) && f 1 1 == 0 && f 12 4 == 0 && f 48 16 == 0 && entries.all fun e => decide (e < 2 ^ 13) }

/-! ### Checks of a microinstruction (R59, R60, R62) -/

/-- Opcodes of a cell type (Table 4.6). -/
def opValid (mc : Bool) (op : Nat) : Bool :=
  decide (op ≤ 3) || (if mc then decide (0x40 ≤ op) && decide (op ≤ 0x44) else (decide (0x10 ≤ op) && decide (op ≤ 0x14)) || op == 0x20)

/-- Reserved IMM bits are zero, and IMM's codes are none of the reserved ones. -/
def immValid (op imm : Nat) : Bool :=
  match op with
  | 0x00 => imm == 0
  | 0x01 => imm == 0
  | 0x02 => decide (imm < 256)
  | 0x03 => imm == 0
  | 0x10 => decide (imm < 768)
  | 0x11 => decide (imm < 768)
  | 0x12 => imm == 0
  | 0x13 => decide (imm % 16 < 14)
  | 0x14 => decide (imm < 256)
  | 0x20 => let f := imm % 32
    decide (f ≤ 6) || (decide (8 ≤ f) && decide (f ≤ 0xD)) || f == 0x10 || f == 0x11
  | 0x40 => decide (imm < 4)
  | 0x41 => decide (imm < 4)
  | 0x42 => decide (imm < 4)
  | 0x43 => decide (imm < 64)
  | 0x44 => decide (imm < 4)
  | _ => false

/-- A microinstruction that the loader accepts (R60, R62; reserved PRED and NXT codes: log entry 18). -/
def microValid (mc : Bool) (m : Nat) : Bool :=
  let op := mOp m
  let vin := mImask m % 16
  opValid mc op && immValid op (mImm m) && decide (mPred m < 14) && decide (mNxt m < 6) &&
    !(decide (1 ≤ mPred m) && decide (mPred m ≤ 4) && bit (mImask m) (7 + mPred m)) &&
    !((op == 0x10 || op == 0x11) && vin != (if bits (mImm m) 9 8 = 0 then 3 else 1)) &&
    !(op == 0x01 && ((mOen m % 4 != 0 && vin == 0) || (mOen m / 4 % 4 != 0 && mImask m / 16 % 16 == 0))) &&
    !(mNxt m == 4 && (mCen m || mPred m != 0 || mPinv m || mImask m != 0 || mOen m != 0 || mTemit m != 0)) &&
    tagKnown (mTemit m) && mTemit m != tagFence && mTemit m != 0x3F

/-- No counter reaches itself along its chain. -/
def chainsOk (l : List Ctr) : Bool :=
  (List.range 8).all fun n =>
    ((List.range 8).foldl (fun (k : Option Nat) _ => k.bind fun k => let c := (l.getD k {}).chain; if c < 8 then some c else none)
      (some n)).isNone

/-- The counter words of a record: no reserved bit, CHAIN 0–8, BOUND at most MAXB, no cycle; and ACC_EN on compute cells alone: Table 4.11 has the bit "CC
only" and R72 does not name it among what a load is refused for (DESIGN CHOICE, log entry 18). -/
def countersOk (r : Rec) : Bool :=
  ((List.range 8).all fun n =>
    let o := 576 + 16 * n
    r.f o 4 < 2 ^ 24 && r.f (o + 4) 4 < 2 ^ 24 && r.f (o + 8) 4 < 2 ^ 24 && bits (r.f (o + 12) 4) 7 6 == 0 &&
      decide ((r.ctr n).chain ≤ 8) && decide ((r.ctr n).bound ≤ (r.ctr n).maxb) && !(isMc r.site && (r.ctr n).accEn)) && chainsOk r.ctrs

/-- Route words hold no reserved code (R57). -/
def routesOk (r : Rec) : Bool :=
  let fieldOk := fun (net x : Nat) => decide (x ≤ 6) || (decide (x ≤ 8) && decide (net < 2))
  ((List.range 3).all fun net => (List.range 8).all fun i => fieldOk net (bits (r.f (8 + 4 * net) 4) (4 * i + 3) (4 * i))) &&
    [0, 16].all fun o =>
      let st := r.f 20 4
      decide (bits st (o + 2) o ≤ 4) && decide (bits st (o + 6) (o + 3) ≤ 8) && decide (bits st (o + 10) (o + 7) ≤ 8) &&
        decide (bits st (o + 14) (o + 11) ≤ 6)

/-- Directions 0–3 in which a record's routes leave its die by an edge output. -/
def edgeDirs (r : Rec) : List Nat :=
  (List.range 4).filter fun dir =>
    (match beyond r.die r.site dir with | some (_, _, edge) => edge | none => true) &&
      (List.range 3).any fun net => bits (r.f (8 + 4 * net) 4) (4 * dir + 3) (4 * dir) != 0

/-- The fields of a record that must hold nothing reserved (R71). -/
def recOk (w : Work) (r : Rec) : Bool :=
  let mc := isMc r.site
  let old := w.slot r.key
  let micros := if r.cell then r.micros else (List.range 64).map fun i => SMap.at 0 old.mstore i
  let int := r.format == 0xB || r.format == 0xC
  r.f 1 1 < 8 && r.f 2 1 < 16 && r.f 3 1 < 8 && r.f 4 1 < 64 && r.f 5 3 == 0 && r.f 24 1 ≤ 8 && r.f 25 1 < 2 && r.f 26 2 == 0 &&
    r.f 60 4 == 0 && r.format != 0xF && !(mc && r.format != 0) &&
    (!r.cell || (micros.all (microValid mc) && countersOk r)) &&
    !(!mc && r.format == 0 && micros.any fun m => mOp m == 0x10 || mOp m == 0x11 || mOp m == 0x12) &&
    !(int && micros.any fun m => mOp m == 0x13 && mImm m % 16 != 0) &&
    (!r.switch || (routesOk r && (edgeDirs r).all fun dir => (beyond r.die r.site dir).isSome)) &&
    (!r.fold || (List.range 8).all fun i => !bit (r.f (28 + 4 * i) 4) 3 && decide (r.f (28 + 4 * i) 4 < 2 ^ 28))

/-- No two elements are equal. -/
def allDistinct : List Nat → Bool
  | [] => true
  | a :: l => !l.contains a && allDistinct l

/-- The checks of R72 before any slot is written, in its order; none where the load passes. -/
def loadFails (c : Call) (ctx : Nat) (w : Work) : Option Status :=
  let a := c.arg 0 + 2 ^ 32 * (c.arg 1)
  let part := (w.ctx ctx).part
  let len := w.le (a + 8) 4
  if a % 4096 ≠ 0 ∨ !w.inT1 part a 64 ∨ !w.inT1 part a (max len 64) then some .bound
  else if w.poisoned a (max len 64) then some .poison
  else
    let dies := w.le (a + 12) 2
    let tab := w.le (a + 16) 4
    let mask := c.arg 2 % 256
    let slotmask := w.le (a + 7) 1
    let img := w.rdN a len
    let crc := crc32c (img.take 20 ++ List.replicate 4 0 ++ img.drop 24)
    let okHead := w.le a 4 == 0x49435744 && w.le (a + 4) 2 == 1 && decide (64 ≤ len) && crc == w.le (a + 20) 4 &&
      decide (1 ≤ dies) && decide (dies ≤ 16) && tab % 64 == 0 && decide (tab + 64 * dies ≤ len) && w.le (a + 14) 2 == 0 &&
      w.le (a + 32) 32 == 0 && (mask &&& slotmask) == mask
    let secs := if okHead then (List.range dies).map (w.section c a len) else []
    let recs := (secs.map (·.recs)).flatten
    if !okHead || !(secs.all (·.ok)) || !allDistinct (secs.map (·.ldie)) || !(recs.all fun r => bit slotmask r.slot) ||
        !(secs.all fun s => allDistinct (s.recs.map Rec.key)) || !(recs.all (recOk w)) then some .unknown
    else if !(secs.all fun s =>
        ((List.range 16).all fun g => !bit s.cgmask g || bit (w.ctx ctx).groups (16 * s.die + g)) &&
          s.recs.all fun r => bit (w.ctx ctx).groups (16 * r.die + groupOf r.site)) then some .owner
    else if !allDistinct (secs.map (·.die)) || !(secs.all fun s => s.recs.all fun r => !r.switch || (edgeDirs r).all fun dir =>
        match neighbour r.die (dir + 1) with
        | some n => secs.any fun t => t.die == n && t.ldie != s.ldie
        | none => false) then some .shape
    else if !(secs.all fun s => decide (w.savedOnDie s.die (fun _ => true) 0 none ≤ maxSaved)) then some .capacity
    else if !bit (c.arg 2) 8 && recs.any fun r => bit mask r.slot && ((w.slot r.key).st == .live || (w.slot r.key).st == .draining) then
      some .state
    else none

/-! ### Slots (R73) -/

/-- The slot keys of a context whose slot number is in a mask. -/
def Work.ctxSlots (w : Work) (c mask : Nat) : List Nat :=
  (SMap.keys w.dev.fab.slots).filter fun k => bit mask (k % 8) && w.siteCtx (k / 2048) (k / 8 % 256) == some c

/-- The sites of a context. -/
def Work.ctxSites (w : Work) (c : Nat) : List Nat :=
  ((w.ctx c).dies.map fun d => ((List.range 256).filter fun t => w.siteCtx d t == some c).map (siteKey d)).flatten

/-- All counters of a slot that has entered EMPTY (R73). -/
def zeroCtrs : List Ctr := List.replicate 8 { cfg := 0 }

/-- A slot enters EMPTY (R73): microstore, counters, routes zero; its drain entries removed. -/
def Work.emptySlot (c k : Nat) (w : Work) : Work :=
  let w := w.modSlot k fun s =>
    { s with st := .empty, mstore := [], ctrs := zeroCtrs }
  let w := w.modSite (k / 8) fun t => { t with routes := SMap.dropRange t.routes (k % 8 * 4) (k % 8 * 4 + 4) }
  w.modCfg c fun g => { g with drains := g.drains.filter fun e => slotKey e.1 e.2.2.1 e.2.1 ≠ k }

/-- Every slot of a site EMPTY and its switch empty, whoever held them (R73): counters of slots that had left EMPTY are zero. The site keeps its epoch. -/
def Work.voidSite (k : Nat) (w : Work) : Work :=
  w.fab fun f =>
    { f with
      sites := SMap.mod {} f.sites k fun x => { ({} : Site) with epoch := x.epoch }
      slots := (SMap.keys (f.slots.range (k * 8) (k * 8 + 8))).foldl (fun m s =>
        SMap.mod {} m s fun x => { ({} : Slot) with ctrs := if x.st = .empty then x.ctrs else zeroCtrs }) f.slots
      spilling := f.spilling.map fun e => (e.1, e.2.filter fun b => b / 128 != k) }

/-- The configuration command of a context that is outstanding. -/
def Work.cfgBusy (w : Work) (c : Nat) : Bool :=
  (SMap.keys w.dev.pages).any fun p => typeOf p == 4 && (w.page p).ctx == some c &&
    (match (w.page p).outst with | some o => decide (0x10 ≤ o.code) && decide (o.code ≤ 0x14) | none => false)

/-- The common checks of a configuration command (R76). -/
def cfgSpec (code : Nat) (resv : Call → Bool) : CmdSpec := { types := [4], code := code, states := [.bound, .running], resv := resv }

/-- A configuration command of the context of a SEQ page. -/
def Work.cfgCommand (q : Issue) (code : Nat) (resv : Call → Bool) (body : Nat → Call → Work → Work) (w : Work) : Work :=
  w.command q (cfgSpec code resv) fun c w =>
    let x := (w.page c.page).ctx.getD 0
    w.checked c [(w.cfgBusy x, .busy)] (body x c)

/-- The image is read where it lies in the context's granules (R72, R156). -/
def Work.readConfig (c : Call) (ctx : Nat) (w : Work) : Work :=
  let a := c.arg64 0
  let part := (w.ctx ctx).part
  let n := max (w.le (a + 8) 4) 64
  if a % 4096 = 0 ∧ w.inT1 part a 64 ∧ w.inT1 part a n then w.readLines a n else w

/-- CFG_LOAD. R72, R76: accepted; the image is judged, and its records wait to be written or the final status is the first failure. -/
def execCfgLoad (q : Issue) (s : State) : Host.Outcome State Fault Refusal :=
  .next (s.run fun w => w.cfgCommand q 0x10 (fun c => c.arg 2 < 512 && c.arg 1 < 2 ^ 16) fun x c w =>
    let failed := loadFails c x w
    let w := w.readConfig c x
    match failed with
    | some st => (w.accept c).settle c.page st
    | none =>
      let a := c.arg64 0
      let secs := (List.range (w.le (a + 12) 2)).map (w.section c a (w.le (a + 8) 4))
      let mask := c.arg 2 % 256
      let recs := ((secs.map (·.recs)).flatten).filter fun r => bit mask r.slot
      (w.accept c).modCfg x fun g =>
        { g with
          cfgPage := c.page + 1, loadMask := mask
          recs := recs.map fun r => (r.key, r.ldie, r.bytes)
          newMap := (List.range 16).map c.dieOfLogical
          newDrains := (secs.map fun s => (s.entries.filter fun e => bit mask (bits e 12 10)).map fun e =>
            (s.die, bits e 12 10, e % 256, bits e 9 8)).flatten })

/-- A record written into its slot and its switch (R71). A slot that was EMPTY has zero counters and a zero microstore unless the record brings others. -/
def Work.writeRec (imgEpoch ldie k : Nat) (bytes : List Byte) (w : Work) : Work :=
  let r : Rec := ⟨ldie, k / 2048, bytes⟩
  let old := w.slot k
  let w := w.modSlot k fun s =>
    let s := { s with
      st := .staged, imgEpoch := imgEpoch, fmt := r.format, drainIn := r.f 4 1 % 16, drainOut := bits (r.f 4 1) 5 4, drainSeen := 0
      ldie := ldie, pc := 0, latch := false, edges := [], streams := [], drainRes := [] }
    if r.cell then
      { s with mstore := (List.range 64).foldl (fun m i => SMap.put 0 m i (r.f (64 + 8 * i) 8)) [], ctrs := r.ctrs }
    else if old.st = .empty then { s with mstore := [], ctrs := zeroCtrs }
    else s
  if r.switch then
    w.modSite (k / 8) fun t =>
      { t with routes := (List.range 4).foldl (fun m i => SMap.put 0 m (k % 8 * 4 + i) (r.f (8 + 4 * i) 4)) t.routes }
  else w

/-- The fold schedule of a record written to its cell; the fold position starts afresh (R64, R71). -/
def Work.writeFold (k : Nat) (bytes : List Byte) (w : Work) : Work :=
  let r : Rec := ⟨0, k / 2048, bytes⟩
  let p := cellPage (k / 2048) r.site
  let w := (w.set p R.CELL_FOLD_NENT (r.f 24 1)).set p R.CELL_FOLD_YIELD_BLOCK (r.f 25 1)
  let w := (List.range 8).foldl (fun w i =>
    (w.set p (R.CELL_FOLDENT_SLOT.i i) (r.f (28 + 4 * i) 4 % 8)).set p (R.CELL_FOLDENT_FIRINGS.i i) (bits (r.f (28 + 4 * i) 4) 27 4)) w
  w.modSite (k / 8) fun t => { t with foldPos := 0, foldCount := 0, waitedIn := false, waitedOut := false }

/-- CFG_LOAD_DONE. R71, R76, R80: the records are written, the die map and the drain entries replaced, and the load completes DONE. It is
suspended while its context is pre-empted. -/
def execCfgLoadDone (page : Nat) (s : State) : Host.Outcome State Fault Refusal :=
  .next (s.run fun w =>
    match (w.page page).ctx, (w.page page).outst with
    | some x, some o =>
      let g := w.cfg x
      let st := (w.page page).state
      if o.code = 0x10 ∧ o.final.isNone ∧ g.cfgPage = page + 1 ∧ (st = .bound ∨ st = .running) then
        let img := (o.args.getD 0 0).toNat + 2 ^ 32 * (o.args.getD 1 0).toNat
        let runs := fun (k : Nat) => (w.slot k).st == .live || (w.slot k).st == .draining
        let cut := g.waiting && g.recs.any fun r => g.waitSlots.contains r.1 && runs r.1
        let w := g.recs.foldl (fun w r => w.writeRec (w.le (img + 6) 1) r.2.1 r.1 r.2.2) w
        let folds := g.recs.filter fun r => bit (leNat ((r.2.2.drop 3).take 1)) 2
        let w := (folds.filter fun r => folds.all fun t => decide (t.1 / 8 ≠ r.1 / 8) || decide (t.1 ≤ r.1)).foldl
          (fun w r => w.writeFold r.1 r.2.2) w
        let w := w.modCfg x fun g =>
          { g with
            dieMap := g.newMap, drains := (g.drains.filter fun e => !bit g.loadMask e.2.1) ++ g.newDrains
            recs := [], newMap := [], newDrains := [], cfgPage := 0, cutOff := g.cutOff || cut }
        (w.count page 0 1).complete page .done
      else w
    | _, _ => w)

/-! ### Drains and fences (R74–R76, R79) -/

/-- One DRAIN with the current epoch offered at a drain entry; whether it was taken. -/
def Work.injectDrain (c : Nat) (e : Nat × Nat × Nat × Nat) (w : Work) : Bool × Work :=
  let ep := (w.site (siteKey e.1 e.2.2.1)).epoch
  if w.siteCtx e.1 e.2.2.1 = some c then w.offer e.1 e.2.2.1 e.2.1 (8 + e.2.2.2) { epoch := ep, data := tagDrain + 256 * ep }
  else (true, w)

/-- The DRAIN tokens of a list offered in order; those that found no room wait. -/
def Work.injectAll (c : Nat) (l : List (Nat × Nat × Nat × Nat)) (w : Work) : Work :=
  let (rest, w) := l.foldl (fun (a : List (Nat × Nat × Nat × Nat) × Work) e =>
    let (ok, w) := a.2.injectDrain c e
    (if ok then a.1 else a.1 ++ [e], w)) ([], w)
  w.modCfg c fun g => { g with inject := rest }

/-- DRAIN. R74, R76, R79. -/
def execDrain (q : Issue) (s : State) : Host.Outcome State Fault Refusal :=
  .next (s.run fun w => w.cfgCommand q 0x11 (fun c => c.arg 0 < 256) fun x c w =>
    let mask := c.arg 0
    let w := w.accept c
    let waits := (w.ctxSlots x mask).filter fun k => [SlotState.live, .draining, .drained].contains (w.slot k).st
    let w := waits.foldl (fun w k => w.modSlot k fun s => if s.st = .live ∧ s.drainIn = 0 then { s with st := .draining } else s) w
    let w := w.modCfg x fun g =>
      { g with waiting := true, waitSlots := waits, drained := false, drainPage := c.page + 1, cutOff := false }
    let w := w.injectAll x ((w.cfg x).drains.filter fun e => bit mask e.2.1)
    if (w.cfg x).inject.isEmpty then
      if waits.isEmpty then w.settle c.page .done else (w.settle c.page .done).checkDrained x
    else w)

/-- DRAIN_INJECT. R76: tokens that waited for room are injected as far as there is room now. -/
def execDrainInject (page : Nat) (s : State) : Host.Outcome State Fault Refusal :=
  .next (s.run fun w =>
    match (w.page page).ctx, (w.page page).outst with
    | some x, some o =>
      if o.code = 0x11 ∧ o.final.isNone ∧ (w.ctx x).state = .running then
        let w := w.injectAll x (w.cfg x).inject
        if (w.cfg x).inject.isEmpty then
          if (w.cfg x).waitSlots.isEmpty then w.settle page .done else (w.settle page .done).checkDrained x
        else w
      else w
    | _, _ => w)

/-- The head of a control bank of a slot, if it is the token `tag` of the site's epoch. -/
def Work.systemHead (w : Work) (d site slot inp tag : Nat) : Option Xfer :=
  ((w.slot (slotKey d site slot)).bank (8 + inp)).head?.bind fun x =>
    if x.epoch = (w.site (siteKey d site)).epoch ∧ x.tag = tag then some x else none

/-- It leaves its bank. -/
def Work.popControl (d site slot inp : Nat) (w : Work) : Work :=
  ((w.modSlot (slotKey d site slot) fun s => s.setBank (8 + inp) (s.bank (8 + inp)).tail).handshake d (w.siteCtx d site)).purgeSlot d site slot

/-- DRAIN_TAKEN. R74. -/
def execDrainTaken (die site slot inp : Nat) (s : State) : Host.Outcome State Fault Refusal :=
  .next (s.run fun w =>
    let w := if w.cellRuns die site then w.purgeSlot die site slot else w
    match w.cellRuns die site && decide (inp < 4) && decide (slot < 8), w.systemHead die site slot inp tagDrain with
    | true, some _ =>
      (w.popControl die site slot inp).modSlot (slotKey die site slot) fun s =>
        if (s.st = .live ∨ s.st = .draining) ∧ bit s.drainIn inp then { s with st := .draining, drainSeen := s.drainSeen ||| 2 ^ inp } else s
    | _, _ => w)

/-- FENCE_TAKEN. R75. -/
def execFenceTaken (die site slot inp : Nat) (s : State) : Host.Outcome State Fault Refusal :=
  .next (s.run fun w =>
    let w := if w.cellRuns die site then w.purgeSlot die site slot else w
    match w.cellRuns die site && decide (inp < 4) && decide (slot < 8), w.systemHead die site slot inp tagFence with
    | true, some _ =>
      (w.popControl die site slot inp).modSlot (slotKey die site slot) fun s =>
        if s.st = .live ∨ s.st = .draining then { s with hold := true } else s
    | _, _ => w)

/-- SLOT_DRAINED. R73, R74. -/
def execSlotDrained (die site slot : Nat) (s : State) : Host.Outcome State Fault Refusal :=
  .next (s.run fun w =>
    if !w.cellRuns die site || decide (8 ≤ slot) then w
    else
      let w := w.purgeSlot die site slot
      let k := slotKey die site slot
      let t := w.slot k
      let outs := (List.range 2).filter fun o => bit t.drainOut o
      if t.st = .draining ∧ (t.drainSeen &&& t.drainIn) = t.drainIn ∧ t.banks.isEmpty ∧ t.spill.isEmpty ∧
          outs.all fun o => (t.out (4 + o)).isEmpty then
        let ep := (w.site (siteKey die site)).epoch
        let w := w.modSlot k fun s => { s with st := .drained }
        (outs.foldl (fun w o => w.modSlot k fun s => s.setOut (4 + o) [{ epoch := ep, data := tagDrain + 256 * ep }]) w).checkDrainedAt
          die site
      else w)

/-- FENCE_REL. R75, R76; the deadlock windows that the holds froze start afresh (R83). -/
def execFenceRel (q : Issue) (s : State) : Host.Outcome State Fault Refusal :=
  .next (s.run fun w => w.cfgCommand q 0x13 (fun _ => true) fun x c w =>
    let w := (w.ctxSlots x 255).foldl (fun w k => w.modSlot k fun s => { s with hold := false }) w
    (w.thaw x).reply c .done)

/-- CFG_CLEAR. R73, R76. -/
def execCfgClear (q : Issue) (s : State) : Host.Outcome State Fault Refusal :=
  .next (s.run fun w => w.cfgCommand q 0x14 (fun c => c.arg 0 < 256) fun x c w =>
    let ks := w.ctxSlots x (c.arg 0)
    w.checked c [(ks.any fun k => (w.slot k).st == .live || (w.slot k).st == .draining, .state)] fun w =>
      ((ks.filter fun k => (w.slot k).st != .empty).foldl (fun w k => w.emptySlot x k) w).reply c .done)

/-! ### Epochs (R77, R78) -/

/-- EPOCH_BUMP. R77. The key in force from it on is latched at its acceptance: one written while it is outstanding is that of the next bump (R119; the manual
does not say at which moment of a bump the key is taken: DESIGN CHOICE, log entry 122). -/
def execEpochBump (q : Issue) (s : State) : Host.Outcome State Fault Refusal :=
  .next (s.run fun w => w.cfgCommand q 0x12 (fun c => c.arg 0 < 512) fun x c w =>
    let new := c.arg 0 % 256
    let force := bit (c.arg 0) 8
    let ks := w.ctxSlots x 255
    w.checked c
      [(new != ((w.ctx x).epoch.toNat + 1) % 256, .epoch),
       (ks.any fun k => (w.slot k).st == .staged && (w.slot k).imgEpoch != new, .epoch),
       (!force && ks.any fun k => (w.slot k).st == .live || (w.slot k).st == .draining, .state)] fun w =>
      (w.accept c).modCfg x fun g =>
        { g with
          bumpTo := new + 1, bumpForce := force, cfgPage := c.page + 1, drained := false, waiting := g.waiting && !force,
          srBump := g.srNext })

/-- A list of transfers without those of epochs other than two; and how many went. -/
def keepEpochs (a b : Nat) (l : List Xfer) : List Xfer × List Xfer := l.partition fun x => x.epoch == a || x.epoch == b

/-- What a table of holdings keeps of two epochs, and how many transfers went. -/
def keepTable (a b : Nat) (m : SMap (List Xfer)) : SMap (List Xfer) × List Xfer :=
  m.foldl (fun acc e =>
    let (k, g) := keepEpochs a b e.2
    (SMap.put [] acc.1 e.1 k, acc.2 ++ g)) ([], [])

/-- A slot takes the bump (R78, R99). -/
def Slot.takeBump (force : Bool) (s : Slot) : Slot :=
  let s := if force then { s with hold := false, edges := [] } else s
  if s.st = .staged then { s with st := .live, dcount := 0 } else s

end Sys2Proof.Machine
end

