-- ==== Sys2Proof/Machine/Nest.lean ====
section
/-!
DEFINITION. Nest.lean: loop-nest descriptors and their issue (R87–R101).
-/
namespace Sys2Proof.Machine

/-- A level entry (Table 6.2); T_d is `tile`. Strides in elements, by operand A, B, C, O. -/
structure Level where
  raw : Nat
  plan : Nat
  tile : Nat
  sa : Int
  sb : Int
  sc : Int
  so : Int

/-- A descriptor as the nest unit reads it (Tables 6.1, 6.2): its 128 bytes as a number, its levels, and its edge table. -/
structure Nest where
  h : Nat
  lv : List Level
  edges : List Nat

def Nest.nlev (n : Nest) : Nat := bits n.h 10 8
def Nest.op (n : Nest) : Nat := bits n.h 13 11
def Nest.reuse (n : Nest) : Nat := bits n.h 15 14
def Nest.afmt (n : Nest) : Nat := bits n.h 19 16
def Nest.bfmt (n : Nest) : Nat := bits n.h 23 20
def Nest.oconv (n : Nest) : Nat := bits n.h 27 24
def Nest.cfmt (n : Nest) : Nat := bits n.h 31 28
def Nest.rmask (n : Nest) : Nat := bits n.h 37 32
def Nest.cin (n : Nest) : Bool := bit n.h 38
def Nest.halo (n : Nest) (d : Nat) : Nat := bits n.h (48 + 4 * d + 3) (48 + 4 * d)
def Nest.order (n : Nest) (l : Nat) : Nat := bits n.h (72 + 3 * l + 2) (72 + 3 * l)
def Nest.goent (n : Nest) : Nat := bits n.h 111 96
def Nest.blist (n : Nest) : Nat := bits n.h 125 112
def Nest.bpr (n : Nest) : Nat := bits n.h 127 126
def Nest.mdim (n : Nest) : Nat := bits n.h 130 128
def Nest.ndim (n : Nest) : Nat := bits n.h 133 131
def Nest.kdim (n : Nest) : Nat := bits n.h 136 134
def Nest.capdim (n : Nest) : Nat := bits n.h 139 137
def Nest.capen (n : Nest) : Bool := bit n.h 140
def Nest.nedge (n : Nest) : Nat := bits n.h 153 144
def Nest.godie (n : Nest) : Nat := bits n.h 157 154

/-- The operation contracts on the MAC array: CONTRACT or ATTN. -/
def Nest.mac (n : Nest) : Bool := n.op == 0 || n.op == 4
/-- Entry d is a reduction entry. -/
def Nest.red (n : Nest) (d : Nat) : Bool := bit n.rmask d
def Nest.level (n : Nest) (d : Nat) : Level := n.lv.getD d ⟨0, 0, 1, 0, 0, 0, 0⟩
/-- The entries in use. -/
def Nest.ents (n : Nest) : List Nat := List.range n.nlev
/-- The depth at which entry d runs. -/
def Nest.depth (n : Nest) (d : Nat) : Nat := ((List.range n.nlev).find? fun l => n.order l == d).getD 6

/-- Stride of an operand, 0 A, 1 B, 2 C, 3 O, along an entry. -/
def Level.stride (v : Level) (op : Nat) : Int := match op with | 0 => v.sa | 1 => v.sb | 2 => v.sc | _ => v.so

/-- Format code of an operand A, B or C. -/
def Nest.fmt (n : Nest) (op : Nat) : Nat := match op with | 0 => n.afmt | 1 => n.bfmt | _ => n.cfmt

/-- Operands of a nest that are present, O aside. C of an ATTN, which it sums, is present whatever CIN holds, and C of a reduction never is, whatever CIN
holds; the manual says what CIN means without regard to the operation (DESIGN CHOICE, log entry 28). -/
def Nest.present (n : Nest) : List Nat :=
  [0] ++ (if n.mac then [1] else []) ++ (if n.op = 4 ∨ (n.op = 0 ∧ n.cin) then [2] else [])

/-- The entry along which the blocks of an operand run: KDIM for A and B of a contraction; otherwise, for an operand of a reduction, for C and for the
output, the entry of stride ±1 (DEDUCED, log entry 28). -/
def Nest.blockedEntry (n : Nest) (op : Nat) : Option Nat :=
  if n.mac ∧ op < 2 then some n.kdim else n.ents.find? fun d => ((n.level d).stride op).natAbs == 1

/-- Storage of 256 output elements in bytes, by conversion code (Table 7.4). -/
def convBytes256 (code : Nat) : Nat :=
  match code with
  | 0 => 1024
  | 1 => 512 | 2 => 512 | 8 => 512
  | 7 => 128 | 11 => 128
  | 12 => 264
  | 13 => 136
  | _ => 256

/-- The descriptor at an address. -/
def Work.nestAt (w : Work) (a : Nat) : Nest :=
  let lv := (List.range 6).map fun d =>
    let x := w.le (a + 20 + 18 * d) 18
    ({ raw := x, plan := bits x 23 0, tile := bits x 31 24 + 1, sa := toSigned 28 (bits x 59 32), sb := toSigned 28 (bits x 87 60)
       sc := toSigned 28 (bits x 115 88), so := toSigned 28 (bits x 143 116) } : Level)
  let h := w.le a 20
  { h := h, lv := lv, edges := (List.range (bits h 153 144)).map fun i => w.le (a + 128 + 4 * i) 4 }

/-- Elements of a block of the output (R88): 32 under the conversions to MXFP8E4 and MXFP4, else 1. -/
def Nest.outBlock (n : Nest) : Nat := if n.oconv = 12 ∨ n.oconv = 13 then 32 else 1

/-- The block-scaled operands of a nest, O among them: operand and elements of a block. -/
def Nest.blocked (n : Nest) : List (Nat × Nat) :=
  ((n.present.map fun op => (op, blockSize (n.fmt op))) ++ [(3, n.outBlock)]).filter fun e => e.2 != 1

/-- The format has a class of the MAC array. -/
def arrayFmt (f : Nat) : Bool := f != 0 && f != 0xF

/-- The rules of R88, R90 and R98 hold and no reserved field is set. -/
def Nest.wellFormed (n : Nest) : Bool :=
  let nl := n.nlev
  let es := n.ents
  let t := fun d => (n.level d).tile
  let head := bits n.h 7 0 == 1 && decide (1 ≤ nl) && decide (nl ≤ 6) && decide (n.op ≤ 4) && bits n.h 39 39 == 0 && bits n.h 95 90 == 0 &&
    bits n.h 143 141 == 0 && bits n.h 159 158 == 0 && decide (n.goent < 2 ^ 13) && n.afmt != 0xF && n.bfmt != 0xF && n.cfmt != 0xF &&
    decide (n.oconv < 14)
  let entries := (List.range 6).all fun d => if d < nl then (n.level d).plan != 0 else (n.level d).raw == 0
  let order := es.all (fun l => decide (n.order l < nl)) && allDistinct (es.map n.order) &&
    (List.range 6).all fun l => decide (l < nl) || n.order l == 0
  let reds := (List.range 6).all fun d => !n.red d || (decide (d < nl) && (n.level d).so == 0)
  let cols := es.filter fun d => d != n.mdim && d != n.ndim && d != n.kdim && !n.red d && (n.level d).sa == 0
  let mac := !n.mac ||
    (allDistinct [n.mdim, n.ndim, n.kdim] && decide (n.mdim < nl) && decide (n.ndim < nl) && decide (n.kdim < nl) && n.red n.kdim &&
      (if n.op = 0 then !n.red n.mdim && !n.red n.ndim else n.red n.ndim && decide (cols.length = 1)) &&
      arrayFmt n.afmt && arrayFmt n.bfmt &&
      [n.afmt, n.bfmt].all fun f => t n.mdim % (arrayOf f).1 == 0 && t n.ndim % (arrayOf f).2 == 0 && t n.kdim % 32 == 0)
  let reduce := n.mac || (n.bfmt == 0 && bits n.h 43 42 == 0 && es.all fun d => (n.level d).sb == 0)
  let blocks := n.blocked.all fun e => match n.blockedEntry e.1 with | some d => t d % e.2 == 0 | none => true
  let halo := (List.range 6).all fun d => n.halo d == 0 || (n.reuse == 3 && decide (d < nl) && !n.red d && decide (n.halo d ≤ t d))
  let cap := !n.capen || (decide (n.capdim < nl) && !n.red n.capdim)
  let inner := n.level (n.order (nl - 1))
  let resident := !(n.reuse == 1 && inner.sa != 0) && !(n.reuse == 2 && inner.sb != 0)
  let edges := n.edges.all fun e => !bit e 31 && decide (bits e 30 27 ≤ 8)
  head && entries && order && reds && mac && reduce && blocks && halo && cap && resident && isMc (n.goent % 256) && edges

/-- The extent of an entry after the clamp of R100, and how many elements are clamped. -/
def Nest.extent (n : Nest) (c : Call) (d : Nat) : Nat × Nat :=
  let e := c.arg (2 + d) % 2 ^ 24
  let p := (n.level d).plan
  if n.capen ∧ d = n.capdim ∧ e > p then (p, e - p) else (e, 0)

/-- The footprint and shape checks of Table 6.5 and R93 fail. -/
def Nest.badShape (n : Nest) (c : Call) : Bool :=
  let ext := fun d => (n.extent c d).1
  let t := fun d => (n.level d).tile
  let redDepths := (n.ents.filter n.red).map n.depth
  let x := fun d => if redDepths.all fun l => decide (n.depth d < l) then t d else ceilDiv (n.level d).plan (t d) * t d
  let f := 4 * (n.ents.filter fun d => !n.red d).foldl (fun a d => a * x d) 1
  let tileBytes := fun (a b fmt : Nat) => ceilDiv (t a * t b * bytes256 fmt) 256
  let span := fun (op per256 : Nat) =>
    let els := n.ents.foldl (fun a d => if ext d = 0 then a else a + (ext d - 1) * ((n.level d).stride op).natAbs) 1
    ceilDiv (ceilDiv (els * per256) 256) 128 * 128
  let rows := (n.ents.filter fun d => !n.red d && !((n.level d).sa == 0 && d != n.mdim)).foldl (fun a d => a * ext d) 1
  let ospan := span 3 (convBytes256 n.oconv) + (if n.op = 4 then 4 * rows else 0)
  ((List.range 6).any fun d => decide (ext d > (n.level d).plan)) ||
    decide (f > 2 ^ 18) ||
    (n.mac && n.reuse == 1 && decide (tileBytes n.mdim n.kdim n.afmt > 32768)) ||
    (n.mac && n.reuse == 2 && decide (tileBytes n.kdim n.ndim n.bfmt > 32768)) ||
    (n.present.any fun op => decide (span op (bytes256 (n.fmt op)) > c.arg (8 + op))) ||
    decide (ospan > c.arg 11) ||
    (n.blocked.any fun e => match n.blockedEntry e.1 with | some d => ext d % e.2 != 0 | none => false)

/-- N_d and L_d (Table 6.6). An edge-table entry whose ENTRY names no entry in use is accepted, since no rule forbids it, and so arms VALID 0 (DESIGN CHOICE,
log entry 122). -/
def Nest.tiles (n : Nest) (c : Call) (d : Nat) : Nat × Nat :=
  let e := (n.extent c d).1
  let t := (n.level d).tile
  if d ≥ n.nlev ∨ e = 0 then (0, 0) else (ceilDiv e t, e - (ceilDiv e t - 1) * t)

/-- The physical die of a logical die under a context's map; none where it is unmapped. -/
def Work.mapDie (w : Work) (c ldie : Nat) : Option Nat :=
  match (w.cfg c).dieMap[ldie]? with
  | some d => if d < 16 then some d else none
  | none => none

/-- The mapped die of a site, where the context owns the site there (R76). -/
def Work.mapSite (w : Work) (c ldie site : Nat) : Option Nat :=
  (w.mapDie c ldie).bind fun d => if w.siteCtx d site = some c then some d else none

/-- The site that a drain entry (Table 5.2) names on a logical die, where the context owns it there. -/
def Work.goSite (w : Work) (c ldie e : Nat) : Option GoSite :=
  (w.mapSite c ldie (e % 256)).map fun d => { die := d, site := e % 256, inp := bits e 9 8, slot := bits e 12 10 }

/-- GO injected at a site with the context's fabric epoch: done at once for a site the context no longer owns; none while the queue bank has
no room (log entry 37). -/
def Work.injectGo (c : Nat) (g : Option GoSite) (w : Work) : Option Work :=
  match g with
  | none => some w
  | some g =>
    if w.siteCtx g.die g.site ≠ some c then some w
    else
      let ep := (w.ctx c).epoch.toNat
      let (ok, w) := w.offer g.die g.site g.slot (8 + g.inp) { epoch := ep, data := 1 + 256 * ep }
      if ok then some w else none

/-- The checks of Table 6.5 up to CAPACITY. -/
def nestFails (c : Call) (x : Nat) (w : Work) : Option Status :=
  let a := c.arg64 0
  let part := (w.ctx x).part
  let n := w.nestAt a
  let len := 128 + 4 * n.nedge
  if a % 128 ≠ 0 ∨ !w.inT1 part a 128 ∨ !w.inT1 part a len then some .bound
  else if w.poisoned a len then some .poison
  else if !n.wellFormed then some .unknown
  else match w.mapSite x n.godie (n.goent % 256) with
    | none => some .owner
    | some d =>
      if !(n.edges.all fun e => (w.mapSite x (bits e 26 23) (e % 256)).isSome) then some .owner
      else if n.badShape c then some .shape
      else
        let known := (w.cfg x).gos.any fun g => g.die == d && g.site == n.goent % 256 && g.inp == bits n.goent 9 8 && g.slot == bits n.goent 12 10
        if !known && decide ((w.cfg x).gos.length ≥ 64) then some .capacity else none

/-- The issue that passes, as it waits (R94, R98). -/
def nestIssue (c : Call) (x : Nat) (w : Work) : NestIssue :=
  let n := w.nestAt (c.arg64 0)
  let ext := fun d => (n.extent c d).1
  let zeros := (List.range n.nlev).foldl (fun m d => if ext d = 0 then m ||| 2 ^ d else m) 0
  let zk := n.ents.any fun d => n.red d && ext d == 0
  let zo := n.ents.any fun d => !n.red d && ext d == 0
  let clamp := n.ents.foldl (fun a d => a + (n.extent c d).2) 0
  let words := ((List.range 6).map fun d => [(n.tiles c d).1, (n.tiles c d).2]).flatten ++
    [zeros + (if zk then 64 else 0) + (if zo then 128 else 0), clamp, 0]
  { page := c.page
    die := (w.mapSite x n.godie (n.goent % 256)).getD 0
    site := n.goent % 256
    inp := bits n.goent 9 8
    slot := bits n.goent 12 10
    blist := n.blist
    bpr := n.bpr
    words := words
    edges := n.edges.map fun e =>
      (slotKey ((w.mapDie x (bits e 26 23)).getD 0) (e % 256) (bits e 10 8), bits e 13 11,
        { valid := (n.tiles c (bits e 20 18)).2, tctr := bits e 16 14, ten := bit e 17, kind := bits e 22 21, lg := bits e 30 27 })
    zerok := zk, zeroout := zo, clamped := decide (clamp ≠ 0), clamp := clamp }

/-- Index of the GO entry of an issue in its context's list. -/
def CfgCtx.goIx (g : CfgCtx) (i : NestIssue) : Option Nat :=
  g.gos.findIdx? fun e => e.die == i.die && e.site == i.site && e.inp == i.inp && e.slot == i.slot

/-- Every edge register that an issue names has a free pending entry for each entry the table gives it. -/
def Work.edgesFree (w : Work) (i : NestIssue) : Bool :=
  i.edges.all fun e =>
    let mine := (i.edges.filter fun f => f.1 = e.1 ∧ f.2.1 = e.2.1).length
    decide ((SMap.at {} (w.slot e.1).edges e.2.1).pend.length + mine ≤ 2)

/-- The flags of SEQ_LNSTS and SEQ_LNDROP after an issue (Table 6.11), and their events and counters (R96, R100, R101). CNT_LN_ISSUE, of which the manual
gives the name alone, counts the issues that complete DONE (DESIGN CHOICE, log entry 122). -/
def Work.nestReport (i : NestIssue) (seq : Nat) (w : Work) : Work :=
  let p := i.page
  let w := ((w.set p R.SEQ_LNSTS_LASTSEQ seq).setB p R.SEQ_LNSTS_ZEROK i.zerok).setB p R.SEQ_LNSTS_ZEROOUT i.zeroout
  let w := ((w.setB p R.SEQ_LNSTS_CLAMPED i.clamped).set p R.SEQ_LNDROP_CLAMP i.clamp).setB p R.SEQ_LNSTS_WAITING false
  let w := (w.count p 3 1).count p 5 i.clamp
  let w := if i.zerok || i.zeroout then w.raise p 17 else w
  if i.clamped then w.raise p 18 else w

/-- The number of GO entries shown on the context's SEQ pages (Table 6.11). -/
def Work.showGos (x : Nat) (w : Work) : Work :=
  let n := (w.cfg x).gos.length
  ((SMap.keys w.dev.pages).filter fun p => typeOf p == 4 && (w.page p).ctx == some x).foldl (fun w p => w.set p R.SEQ_LNGO_NGO n) w

/-- An issue that has waited proceeds if it can (R92–R95): bound list, edge registers, GO, and its GO entry where that is new; else it waits on. One that
fails now leaves nothing behind. -/
def Work.tryNest (x : Nat) (i : NestIssue) (w : Work) : Work :=
  let g := w.cfg x
  let ix := (g.goIx i).getD g.gos.length
  let e := g.gos.getD ix { die := i.die, site := i.site, inp := i.inp, slot := i.slot, seq := 0, inFlight := false }
  let wait := fun (w : Work) => w.setB i.page R.SEQ_LNSTS_WAITING true
  let drop := fun (w : Work) => w.modCfg x fun g => { g with nests := g.nests.filter fun n => n.page ≠ i.page }
  let fails := fun (st : Status) (w : Work) => ((drop w).setB i.page R.SEQ_LNSTS_WAITING false).settle i.page st
  let p := cellPage i.die i.site
  let base := i.blist + 16 * (e.seq % 2)
  if e.inFlight || !w.edgesFree i then wait w
  else if 64 ≤ ix then fails .capacity w
  else match w.pairAddr p i.bpr base true true, w.pairAddr p i.bpr (base + 15 : Nat) true true with
    | some b, some _ =>
      let ep := (w.ctx x).epoch.toNat
      let stale := w.stale i.die i.site ep
      let (ok, w') := w.offer i.die i.site i.slot (8 + i.inp) { epoch := ep, data := 1 + 256 * ep, go := ix + 1 }
      if ok then
        let w := w'.narrowScr p b (((i.words ++ [e.seq]).map (natLE 4)).flatten)
        let w := i.edges.foldl (fun w f => w.modSlot f.1 fun s =>
          { s with edges := SMap.mod {} s.edges f.2.1 fun r => { r with pend := r.pend ++ [f.2.2] } }) w
        let e' : GoEntry := { e with seq := (e.seq + 1) % 65536, inFlight := !stale, epoch := ep }
        let w := (w.modCfg x fun g => { g with gos := if ix < g.gos.length then g.gos.set ix e' else g.gos ++ [e'] }).showGos x
        ((drop w).nestReport i e.seq).settle i.page .done
      else wait w
    | _, _ => fails .bound (w.raise p 18)

/-- The common checks of LN_ISSUE (R92). -/
def lnSpec : CmdSpec :=
  { types := [4], code := 0x20, states := [.bound, .running]
    resv := fun c => c.arg 1 < 2 ^ 16 && (List.range 6).all fun d => c.arg (2 + d) < 2 ^ 24 }

/-- The plan is read where it lies in the context's granules (R92, R156). -/
def Work.readPlan (c : Call) (x : Nat) (w : Work) : Work :=
  let a := c.arg64 0
  let part := (w.ctx x).part
  let n := 128 + 4 * (w.nestAt a).nedge
  if a % 128 = 0 ∧ w.inT1 part a 128 ∧ w.inT1 part a n then w.readLines a n else w

/-- LN_ISSUE. R92–R96, R98, R100: accepted; judged at once; what passes proceeds or waits. -/
def execLnIssue (q : Issue) (s : State) : Host.Outcome State Fault Refusal :=
  .next (s.run fun w => w.command q lnSpec fun c w =>
    let x := (w.page c.page).ctx.getD 0
    let w' := (w.readPlan c x).accept c
    match nestFails c x w with
    | some st => (if st = .shape then w'.count c.page 4 1 else w').settle c.page st
    | none =>
      let i := nestIssue c x w
      (w'.modCfg x fun g => { g with nests := g.nests ++ [i] }).tryNest x i)

/-- LN_ISSUE_RESUME. R95: an issue that waits proceeds once it can; suspended while its context is pre-empted. -/
def execLnIssueResume (page : Nat) (s : State) : Host.Outcome State Fault Refusal :=
  .next (s.run fun w =>
    match (w.page page).ctx with
    | some x =>
      let st := (w.page page).state
      match (w.cfg x).nests.find? fun i => i.page = page with
      | some i => if st = .bound ∨ st = .running then w.tryNest x i else w
      | none => w
    | none => w)

/-- A forced bump ends the issues that wait with EPOCH and starts the sequence numbers at 0 again, with no issue before the first (R95). -/
def Work.breakNests (x : Nat) (w : Work) : Work :=
  let w := (w.cfg x).nests.foldl (fun w i => (w.setB i.page R.SEQ_LNSTS_WAITING false).settle i.page .epoch) w
  w.modCfg x fun g => { g with nests := [], gos := g.gos.map fun e => { e with seq := 0, inFlight := false, epoch := 256 } }

/-- The entries of a table of waiting transfers whose first one is gone. -/
def headsGone (old new : SMap (List Xfer)) : List Nat :=
  old.filterMap fun e => if e.2.head? = (SMap.at [] new e.1).head? then none else some e.1

/-- An input of a switch whose waiting transfer has been discarded starts afresh: nothing has accepted the next one there (R55). -/
def Work.freshInput (d site slot net src : Nat) (w : Work) : Work :=
  w.modSite (siteKey d site) fun t => { t with given := SMap.drop t.given (stageKey slot net src) }

/-- Step 1 of a bump at a site: transfers whose epoch is neither the current one nor the new one are discarded (R78). -/
def Work.dropOlder (die site cur new : Nat) (w : Work) : Work :=
  let sk := siteKey die site
  let w := (List.range 8).foldl (fun w n =>
    let k := slotKey die site n
    let t := w.slot k
    let (banks, g1) := keepTable cur new t.banks
    let (spill, g2) := keepTable cur new t.spill
    let (outs, g3) := keepTable cur new t.outs
    if (g1 ++ g2 ++ g3).isEmpty then w
    else
      let w := w.modSlot k fun s => { s with banks := banks, spill := spill, outs := outs }
      let w := (headsGone t.outs outs).foldl (fun (w : Work) o => w.freshInput die site n (o / 2) (5 + o % 2)) w
      (g1 ++ g2 ++ g3).foldl (fun w x => w.discardCell die site x) w) w
  let t := w.site sk
  let (stage, h1) := keepTable cur new t.stage
  let (steer, h2) := keepTable cur new t.steer
  let (sout, h3) := keepTable cur new t.steerOut
  let w := (w.modSite sk fun t => { t with stage := stage, steer := steer, steerOut := sout }).count (swtPage die site) 1
    (h1.length + h2.length + h3.length)
  let w := (headsGone t.stage stage).foldl (fun (w : Work) k =>
    match (if k % 16 < 4 then beyond die site (k % 16) else none) with
    | some (nd, ns, _) => w.freshInput nd ns (k / 48) (k / 16 % 3) ((k % 16 + 2) % 4 + 1)
    | none => w) w
  (headsGone t.steerOut sout).foldl (fun (w : Work) k => w.freshInput die site (k / 4) (k / 2 % 2) (7 + k % 2)) w

/-- EPOCH_BUMP_TAKEN. R78: the cell and the switch of a site take the bump; the last one completes it. A forced bump releases held slots, so that the
deadlock windows they froze start afresh (R83). -/
def execEpochBumpTaken (die site : Nat) (s : State) : Host.Outcome State Fault Refusal :=
  .next (s.run fun w =>
    match w.siteCtx die site with
    | none => w
    | some x =>
      let g := w.cfg x
      let new := g.bumpTo - 1
      let sk := siteKey die site
      let cur := (w.site sk).epoch
      let st := (w.page (cellPage die site)).state
      if g.bumpTo = 0 ∨ 16 ≤ die ∨ 256 ≤ site ∨ cur = new ∨ !(st == .running || st == .bound) then w
      else
        let force := g.bumpForce
        let thaws := force && (List.range 8).any fun n => (w.slot (slotKey die site n)).hold
        -- 1 and 2: older transfers; the epoch
        let w := (w.dropOlder die site cur new).modSite sk fun t => { t with epoch := new }
        -- 3 and 4: the slots
        let w := (List.range 8).foldl (fun w n =>
          let k := slotKey die site n
          let was := (w.slot k).st
          let w := w.modSlot k (Slot.takeBump force)
          if force ∧ (was = .live ∨ was = .draining) then w.emptySlot x k else w) w
        let w := (List.range 8).foldl (fun w n =>
          [0, 1].foldl (fun w net => w.purgeSteer die site n net) (w.purgeSlot die site n)) w
        let w := if thaws then w.thaw x else w
        if (w.ctxSites x).all fun k => (w.site k).epoch == new then
          let page := g.cfgPage - 1
          let w := (w.modCtx x fun c => { c with epoch := BitVec.ofNat 8 new, srKey := g.srBump }).modCfg x fun g =>
            { g with bumpTo := 0, bumpForce := false, cfgPage := 0 }
          let w := if force then w.breakNests x else w
          ((w.count page 1 1).count page 2 (if force then 1 else 0)).complete page .done
        else w)

end Sys2Proof.Machine
end

