-- ==== Sys2Proof/Machine/Prefetch.lean ====
section
/-!
DEFINITION. Prefetch.lean: the prefetch schedule, tier-3 reads, scrubbing and memory failures (R153–R164).
-/
namespace Sys2Proof.Machine

/-! ### Rings (R159–R163) -/

def Work.ring (w : Work) (p : Nat) : PfRing := SMap.at {} w.dev.tiers.rings p
def Work.modRing (p : Nat) (f : PfRing → PfRing) (w : Work) : Work := w.tiers fun t => { t with rings := SMap.mod {} t.rings p f }
/-- The phase of a context's step, and of its previous step. -/
def Work.phase (w : Work) (c : Nat) : Nat := SMap.at 0 w.dev.tiers.phase c
def Work.prevPhase (w : Work) (c : Nat) : Nat := SMap.at 0 w.dev.tiers.prevPhase c

/-- ARMED, PENDARM, NDESC and INFLIGHT as the ring stands (Table 9.7). -/
def Work.showRing (p : Nat) (w : Work) : Work :=
  let r := w.ring p
  let w := (w.setB p R.SEQ_PFSTS_ARMED (!r.descs.isEmpty)).setB p R.SEQ_PFSTS_PENDARM r.pend
  (w.set p R.SEQ_PFRING_NDESC r.descs.length).set p R.SEQ_PFRING_INFLIGHT (if r.descs.isEmpty then 0 else r.inflight)

/-- The phase shown on every SEQ page of a context. -/
def Work.setPhase (c n : Nat) (w : Work) : Work :=
  let w := w.tiers fun t => { t with phase := SMap.put 0 t.phase c n }
  (w.seqPages c).foldl (fun w p => w.set p R.SEQ_PFSTS_PHASE n) w

/-- Tier-3 reads of a page's descriptors given up: what comes back for them is dropped. -/
def Work.dropReads (p : Nat) (f : HostRd → Bool) (w : Work) : Work :=
  w.tiers fun t => { t with reads := t.reads.filter fun e => !(e.2.any fun h => h.page == p && !h.unit && f h) }

/-- The waiting ring of a page takes effect (R161). -/
def PfRing.install (r : PfRing) : PfRing :=
  { r with descs := r.pendDescs, inflight := r.pendInflight, cur := r.pendDescs.map fun _ => {}, next := r.pendDescs.map fun _ => {}
           first := true, redo := [], pendDescs := [], pend := false }

/-- A new step of a context begins: phase 0, and PREV descriptors keep what the step before has done, reads in flight for them included (R159, R162). -/
def Work.stepRings (c : Nat) (w : Work) : Work :=
  let w := w.tiers fun t => { t with prevPhase := SMap.put 0 t.prevPhase c (SMap.at 0 t.phase c) }
  (w.seqPages c).foldl (fun w p =>
    let pend := (w.ring p).pend
    let w := w.dropReads p fun h => pend || !h.isNext
    let w := w.tiers fun t => { t with reads := t.reads.map fun e => (e.1, e.2.map fun h => if h.page = p ∧ !h.unit then { h with isNext := false } else h) }
    (w.modRing p fun r =>
      if r.pend then r.install
      else { r with
        cur := (List.range r.descs.length).map fun i => if (r.descs[i]?).any (·.prev) then r.next.getD i {} else {}
        next := r.descs.map fun _ => {}, first := false, redo := [] }).showRing p) (w.setPhase c 0)

/-- A ring whose step starts again: every descriptor runs again (R164). -/
def PfRing.restart (r : PfRing) : PfRing := { r with cur := r.descs.map fun _ => {}, next := r.descs.map fun _ => {}, redo := [] }

/-- The step of a context starts again at phase 0. -/
def Work.restartRings (c : Nat) (w : Work) : Work :=
  (w.seqPages c).foldl (fun w p =>
    (w.dropReads p fun _ => true).modRing p PfRing.restart) (w.setPhase c 0)

/-- A descriptor's fields as Table 9.5 lays them out; reserved bits are no part of them. -/
def Work.pfDesc (w : Work) (a : Nat) : PfDesc :=
  let q := w.le (a + 8) 8
  let scratch := bits q 63 62 == 1
  { src := w.le a 6, scratch := scratch, dst := if scratch then bits q 6 0 else q % 2 ^ 48, pair := bits q 8 7, line := bits q 22 9
    len := w.le (a + 16) 4 % 2 ^ 26 * 64, start := w.le (a + 20) 1, need := w.le (a + 21) 1, prev := bit (w.le (a + 22) 1) 0, tag := w.le (a + 24) 4 }

/-- Its fields hold nothing reserved or misplaced (R160, R161). -/
def Work.pfDescOk (w : Work) (a : Nat) : Bool :=
  let q := w.le (a + 8) 8
  let k := bits q 63 62
  let l := w.le (a + 16) 4
  let start := w.le (a + 20) 1
  let need := w.le (a + 21) 1
  let prev := w.le (a + 22) 1
  w.le a 8 < 2 ^ 48 && w.le a 8 % 64 == 0 && decide (k < 2) &&
    (if k = 0 then decide (bits q 61 48 = 0) && q % 64 == 0 else decide (bits q 61 23 = 0)) &&
    decide (1 ≤ l) && decide (l < 2 ^ 26) && !(k == 1 && l % 2 == 1) && decide (start ≤ 254) && need != 0 &&
    !(decide (need ≤ start) && prev == 0) && decide (prev < 2) && w.le (a + 23) 1 == 0 && w.le (a + 28) 4 == 0

/-- The ring of a PF_ARM lies where it may (R161, the first check). -/
def pfRingOk (c : Call) (part : Nat) (w : Work) : Bool :=
  c.arg64 0 % 32 == 0 && (c.arg 2 % 512 == 0 || w.inT1 part (c.arg64 0) (32 * (c.arg 2 % 512)))

/-- The checks of R161 in their order. -/
def pfArmFails (c : Call) (part : Nat) (w : Work) : Option Status :=
  let a := c.arg64 0
  let n := c.arg 2 % 512
  let infl := bits (c.arg 2) 20 16
  let kind := fun i => bits (w.le (a + 32 * i + 8) 8) 63 62
  let placed := fun i =>
    let d := w.pfDesc (a + 32 * i)
    w.readable part d.src (max d.len 1) && (kind i != 0 || w.inT1 part d.dst d.len)
  if !pfRingOk c part w ∨ !((List.range (min n 256)).all placed) then some .bound
  else if w.poisoned a (32 * n) then some .poison
  else if n > 256 ∨ infl = 0 ∨ infl > 16 ∨ !((List.range n).all fun i => w.pfDescOk (a + 32 * i)) then some .unknown
  else none

/-- The common checks of PF_ARM. -/
def pfArmSpec : CmdSpec :=
  { types := [4], code := 0x28, states := [.bound, .running, .quiesced]
    resv := fun c => c.addrOk 0 && bits (c.arg 2) 15 9 == 0 && bits (c.arg 2) 31 21 == 0 }

/-- PF_ARM. R161: the ring is copied and judged; armed at once, or, while the page is RUNNING, at the next step start. -/
def execPfArm (q : Issue) (s : State) : Host.Outcome State Fault Refusal :=
  .next (s.run fun w => w.command q pfArmSpec fun c w =>
    let part := (w.ctx ((w.page c.page).ctx.getD 0)).part
    let w' := if pfRingOk c part w then (w.accept c).readLines (c.arg64 0) (32 * (c.arg 2 % 512)) else w.accept c
    match pfArmFails c part w with
    | some st => w'.settle c.page st
    | none =>
      let ds := (List.range (c.arg 2 % 512)).map fun i => w.pfDesc (c.arg64 0 + 32 * i)
      let w' := w'.modRing c.page fun r =>
        let r := { r with pendDescs := ds, pendInflight := bits (c.arg 2) 20 16, pend := true }
        if (w.page c.page).state = .running then r else r.install
      let w' := if (w.page c.page).state = .running then w' else w'.dropReads c.page fun _ => true
      (w'.showRing c.page).settle c.page .done)

/-! ### What a step still waits for (R163, R165) -/

/-- An execution is complete. -/
def PfSt.done (x : PfSt) : Bool := x.st == 2

/-- The first descriptor of a page's ring that is due by a phase and not complete. -/
def PfRing.due (r : PfRing) (phase : Nat) : Option Nat :=
  (List.range r.descs.length).find? fun i =>
    match r.descs[i]? with
    | some d => decide (d.need ≤ phase) && !(r.cur.getD i {}).done
    | none => false

/-- The first SEQ page of a context, with the descriptor, on which something due by a phase is incomplete; phase 255 for the whole step. -/
def Work.pfDue (w : Work) (c phase : Nat) : Option (Nat × Nat) :=
  (w.seqPages c).findSome? fun p => ((w.ring p).due phase).map fun i => (p, i)

/-- A link down or a failed tier-2 channel keeps a range from being read. -/
def Work.srcFailed (w : Work) (a n : Nat) : Bool :=
  if t2Base ≤ a ∧ a < t2End then
    (w.t2Set).any fun ch => w.get (chanPage ch) R.MEM_STS_CHSTATE == 2 &&
      (List.range (min 16 ((a + n - 1) / 4096 - a / 4096 + 1))).any fun i => w.chanOf (a + 4096 * i) == ch
  else if t3Base ≤ a then !w.dev.host.link
  else false

/-- A link on the way from a die to where a range lies is removing lanes: a removal of the link has been admitted and runs (R13, R379, Table 9.6). -/
def Work.wayBusy (w : Work) (d a : Nat) : Bool :=
  let hub := if a < t2End then dieOf (w.memPage a) else 16
  (w.hubWay d hub).any fun l => l.any fun e => w.dev.flt.running.any fun x => x.act == 4 &&
    (x.scope == ddlPage e.1 e.2 || (ddlPeer e.1 e.2).any fun f => x.scope == ddlPage f.1 f.2)

/-- The cause that governs the wait for a descriptor (Table 9.6). -/
def Work.pfCause (w : Work) (die : Nat) (d : PfDesc) (x : PfSt) : Nat :=
  if x.st = 3 ∨ (t2Base ≤ d.src ∧ d.src < t2End ∧ w.srcFailed d.src d.len) then 7
  else if x.st = 4 ∨ (t3Base ≤ d.src ∧ w.srcFailed d.src d.len) then 8
  else if w.wayBusy die d.src || (!d.scratch && w.wayBusy die d.dst) then 6
  else if w.held d.src d.len || (!d.scratch && w.held d.dst d.len) then 9
  else if x.retry then 5
  else if d.src < t1Size then 3
  else if d.src < t2End then 1
  else 2

/-- The cause and descriptor of what is due first by a phase, with its page. -/
def Work.dueCause (w : Work) (c phase : Nat) : Option (Nat × Nat × Nat) :=
  (w.pfDue c phase).map fun (p, i) =>
    (p, i, match (w.ring p).descs[i]? with | some d => w.pfCause (dieOf p) d ((w.ring p).cur.getD i {}) | none => 0)

/-- The stall of a wait (kind 0 PF_ADVANCE, 1 commit) begins, moves to another cause, or to the page of the descriptor that comes first now, or ends. It
is one stall from its start to its end (R165). -/
def Work.pfStall (c kind phase : Nat) (w : Work) : Work :=
  match w.dueCause c phase with
  | some (p, i, cause) =>
    match ((w.seqPages c).filter (· ≠ p)).findSome? fun q => ((w.stallsOf q).find? fun t => t.kind = kind).map fun t => (q, t) with
    | some (q, t) =>
      let w := (w.stallTime q t).setStalls q ((w.stallsOf q).filter fun t => t.kind ≠ kind)
      w.setStalls p (w.stallsOf p ++ [{ t with since := w.now, cause := cause, idx := i }])
    | none => (w.beginStall p kind cause i).moveStall p kind cause i
  | none => (w.seqPages c).foldl (fun w q => w.endStall q kind) w

/-- The phase for which a page's outstanding PF_ADVANCE waits. -/
def Work.advancing (w : Work) (p : Nat) : Option Nat :=
  match (w.page p).outst with
  | some o => if o.code = 0x29 ∧ o.final.isNone then some ((o.args.getD 0 0).toNat % 256) else none
  | none => none

/-- An INPLACE replacement holds the context below the layer that comes next (R306): PF_ADVANCE to its phase or beyond waits. -/
def Work.maintHold (w : Work) (c n : Nat) : Bool :=
  w.dev.mdl.models.any fun e => match e.2.repl with
    | some r => r.mode == 1 && e.2.opens.any (fun o => o.1 == c) &&
      (match e.2.layers[r.next]? with | some l => decide (w.phase c < l.1) && decide (l.1 ≤ n) | none => false)
    | none => false

/-- A stall of a context that has reached its limit: what would release it comes too late (R166). -/
def Work.lateStall (w : Work) (c kind : Nat) : Option (Nat × Stall) :=
  (w.seqPages c).findSome? fun p => ((w.stallsOf p).find? fun t => decide (t.kind = kind) && w.stallLate p t).map fun t => (p, t)

/-- PF_ADVANCE commands that nothing holds any longer take their phase, and those whose descriptors are complete complete; the stalls of
those that wait on are judged again (R163, R165, R306). -/
def Work.pfGo (c : Nat) (w : Work) : Work :=
  let w := (w.seqPages c).foldl (fun w p =>
    match w.advancing p with
    | some n =>
      if w.maintHold c n then w
      else
        let w := if w.phase c < n then w.setPhase c n else w
        if (w.pfDue c n).isNone then w.complete p .done else w
    | none => w) w
  let w : Work :=
    match ((w.seqPages c).filterMap w.advancing).foldl (fun a n => max a n) 0 with
    | 0 => (w.seqPages c).foldl (fun (w : Work) q => w.endStall q 0) w
    | n => if w.maintHold c n then w else w.pfStall c 0 n
  let w := if (w.seqPages c).any fun p => (w.stallsOf p).any fun s => s.kind = 1 then w.pfStall c 1 255 else w
  -- R83: the deadlock windows start afresh once nothing is waited for
  if (w.seqPages c).all fun p => (w.stallsOf p).isEmpty then (w.ctx c).dies.foldl (fun w d => w.handshake d (some c)) w else w

/-- What waits for descriptors judged again; a completion at the limit of its stall or later is too late (R166). -/
def Work.pfRelease (c : Nat) (w : Work) : Work :=
  match w.lateStall c 0 with
  | some (p, t) => w.stallOut p c t
  | none => match w.lateStall c 1 with
    | some (p, t) => w.stallOut p c t
    | none => w.pfGo c

/-- The common checks of PF_ADVANCE. -/
def pfAdvanceSpec : CmdSpec := { types := [4], code := 0x29, states := [.running], resv := fun c => c.arg 0 < 256 }

/-- PF_ADVANCE. R163. -/
def execPfAdvance (q : Issue) (s : State) : Host.Outcome State Fault Refusal :=
  .next (s.run fun w => w.command q pfAdvanceSpec fun c w =>
    let x := (w.page c.page).ctx.getD 0
    let n := c.arg 0
    w.checked c [(n == 255, .unknown)] fun w =>
      if n ≤ w.phase x then w.reply c .done
      else if w.maintHold x n then ((w.accept c).beginStall c.page 0 9 0).count (ldrPage 0) 4 1
      else
        let w := w.setPhase x n
        if (w.pfDue x n).isNone then w.reply c .done else (w.accept c).pfStall x 0 n)

/-! ### The engine (R162, R164) -/

/-- Executions of a ring in ring order: (descriptor, of the next step). -/
def PfRing.runs (r : PfRing) : List (Nat × Bool) :=
  ((List.range r.descs.length).map fun i => if (r.descs[i]?).any (·.prev) then [(i, false), (i, true)] else [(i, false)]).flatten

def PfRing.st (r : PfRing) (e : Nat × Bool) : PfSt := if e.2 then r.next.getD e.1 {} else r.cur.getD e.1 {}
def PfRing.setSt (e : Nat × Bool) (x : PfSt) (r : PfRing) : PfRing :=
  if e.2 then { r with next := r.next.set e.1 x } else { r with cur := r.cur.set e.1 x }

/-- An execution is eligible (R162). -/
def Work.pfEligible (w : Work) (c : Nat) (r : PfRing) (e : Nat × Bool) : Bool :=
  match r.descs[e.1]? with
  | none => false
  | some d =>
    if e.2 then decide (w.phase c ≥ d.start)
    else if d.prev then r.first || decide (w.prevPhase c ≥ d.start)
    else decide (w.phase c ≥ d.start)

/-- Destinations of two descriptors overlap: in tier 1, or in lines of one memory cell. -/
def Work.pfOverlap (w : Work) (die : Nat) (a b : PfDesc) : Bool :=
  if a.scratch != b.scratch then false
  else if !a.scratch then overlaps a.dst a.len b.dst b.len
  else a.dst == b.dst &&
    overlaps (w.pairBase (mcPage die a.dst) a.pair + a.line) (a.len / 128) (w.pairBase (mcPage die b.dst) b.pair + b.line) (b.len / 128)

/-- The scratch destination of a descriptor passes R128 for its lines from byte `lo` to byte `hi`. -/
def Work.pfPairOk (w : Work) (die c : Nat) (d : PfDesc) (lo hi : Nat) : Bool :=
  !d.scratch ||
    ((w.page (mcPage die d.dst)).ctx == some c &&
      (w.pairAddr (mcPage die d.dst) d.pair (d.line + lo / 128 : Nat) false true).isSome &&
      (w.pairAddr (mcPage die d.dst) d.pair (d.line + (hi - 1) / 128 : Nat) false true).isSome)

/-- 64 bytes put at offset `off` of a descriptor's destination, with their tag. -/
def Work.pfPut (die : Nat) (d : PfDesc) (off : Nat) (data : List Byte) (bad : Bool) (w : Work) : Work :=
  if d.scratch then
    let p := mcPage die d.dst
    let b := (w.pairBase p d.pair + d.line) * 128 + off
    let w := w.wideScr p b data
    if bad then w.tagRange (w.scratchOf p b) data.length true else w
  else
    let w := w.store (d.dst + off) data
    if bad then w.setPoison (d.dst + off) true else w

/-- A contained fault PF_BOUND of the engine (R162). -/
def Work.pfBound (c p i tag : Nat) (w : Work) : Work :=
  ((w.set p R.SEQ_PFERR_INDEX i).set p R.SEQ_PFTAG_TAG tag).ctxFault c p 0x52 none

/-- A tier-3 read goes out with the requester ID of the partition's function (R153, R154). -/
def Work.askHost (part line : Nat) (h : HostRd) (w : Work) : Work :=
  let t := w.dev.tiers.nextTag
  let a := w.hostOf line
  (w.tiers fun x => { x with nextTag := t + 1, reads := SMap.put none x.reads t (some { h with addr := a }) }).send (.hostRead (part + 1) t a 64)

/-- The next tier-3 read of an execution: 64 bytes (R154). One that the map refuses now is refused with BOUND, a fault PF_BOUND (R153, R162). -/
def Work.pfAsk (c p : Nat) (e : Nat × Bool) (d : PfDesc) (got : Nat) (w : Work) : Work :=
  if w.t3Ok (w.ctx c).part (d.src + got) 64 then w.askHost (w.ctx c).part (d.src + got) { page := p, idx := e.1, isNext := e.2, addr := 0 }
  else w.pfBound c p e.1 d.tag

/-- The engine of a page may work: its page and its context run (R164). -/
def Work.pfRuns (w : Work) (p : Nat) : Option Nat :=
  match (w.page p).ctx with
  | some c => if (w.page p).state = .running ∧ (w.ctx c).state = .running then some c else none
  | none => none

/-- PF_DESC_START. R162: the first eligible descriptor that waits is started, unless too many are in flight or an earlier one overlaps it. -/
def execPfDescStart (page : Nat) (s : State) : Host.Outcome State Fault Refusal :=
  .next (s.run fun w =>
    match w.pfRuns page with
    | none => w
    | some c =>
      let die := dieOf page
      let r := w.ring page
      let inFlight := (r.runs.filter fun e => (r.st e).st = 1).length
      match r.runs.find? fun e => w.pfEligible c r e && (r.st e).st == 0 && (r.redo.isEmpty || r.redo.contains e) with
      | none => w
      | some e =>
        match r.descs[e.1]? with
        | none => w
        | some d =>
          let earlier := (r.runs.takeWhile fun f => f ≠ e).filter fun f => !(r.st f).done
          if r.inflight ≤ inFlight ∨ earlier.any fun f => (r.descs[f.1]?).any fun o => w.pfOverlap die o d then w
          else
            let part := (w.ctx c).part
            if !w.pfPairOk die c d 0 d.len || !w.readable part d.src d.len || !(d.scratch || w.inT1 part d.dst d.len) then
              w.pfBound c page e.1 d.tag
            else
              let w := w.modRing page (PfRing.setSt e { st := 1, got := 0 })
              if t3Base ≤ d.src then w.pfAsk c page e d 0 else w)

/-- Suspended tier-3 descriptors of a page go on: those whose read is not in flight ask for their next line. -/
def Work.pfAskOn (c p : Nat) (w : Work) : Work :=
  let r := w.ring p
  if !r.redo.isEmpty then w
  else (r.runs.filter fun e => (r.st e).st == 1).foldl (fun w e =>
    match r.descs[e.1]? with
    | some d =>
      if t3Base ≤ d.src ∧ (r.st e).got < d.len ∧
          !(w.dev.tiers.reads.any fun x => x.2.any fun h => h.page == p && !h.unit && h.idx == e.1 && h.isNext == e.2) then
        w.pfAsk c p e d (r.st e).got
      else w
    | none => w) w

/-- Lines of tier 1 or 2 carried to a descriptor's destination, with their tags. -/
def Work.pfCopy (die : Nat) (d : PfDesc) : Nat → Nat → Work → Work
  | 0, _, w => w
  | n + 1, off, w =>
    let bad := w.poisonAt (d.src + off)
    Work.pfCopy die d n (off + 64) ((w.readLines (d.src + off) 64).pfPut die d off (w.rdN (d.src + off) 64) bad)

/-- PF_DESC_COMPLETE. R162: the last line of a descriptor in flight is accepted at its destination. A source that the scrubber holds, or of which a line is
decoded a second time, keeps it waiting (R157); suspended descriptors wait for those that run again after a restore (R164). -/
def execPfDescComplete (page idx : Nat) (s : State) : Host.Outcome State Fault Refusal :=
  .next (s.run fun w =>
    match w.pfRuns page with
    | none => w
    | some c => w.asUnit page fun w =>
      let die := dieOf page
      let r := w.ring page
      match r.runs.find? fun e => e.1 == idx && (r.st e).st == 1 && (r.redo.isEmpty || r.redo.contains e), r.descs[idx]? with
      | some e, some d =>
        if !w.pfPairOk die c d 0 d.len then w.pfBound c page idx d.tag
        else if t3Base ≤ d.src ∧ (r.st e).got < d.len then w
        else if d.src < t3Base ∧ w.srcFailed d.src d.len then (w.modRing page (PfRing.setSt e { st := 3 })).pfRelease c
        else if !d.scratch ∧ w.held d.dst d.len then w.pfRelease c
        else
          let w' := if d.src < t3Base then { w with gate := true }.pfCopy die d (d.len / 64) 0 else w
          match w'.wait with
          | some 5 => ((w'.again.foldl (fun (w : Work) l => w.decodeLine l) w).modRing page (PfRing.setSt e { (r.st e) with retry := true })).pfRelease c
          | some _ => w.pfRelease c
          | none =>
            let w := { w' with gate := false }.modRing page fun r => { (PfRing.setSt e { st := 2, got := d.len } r) with redo := r.redo.erase e }
            ((w.count page 7 1).pfAskOn c page).pfRelease c
      | _, _ => w)

/-- What a unit has asked for from tier 3 has come, or failed (R154). -/
def Work.unitLine (p line st : Nat) (w : Work) : Work :=
  w.tiers fun t => { t with lines := SMap.mod [] t.lines p fun l => l.map fun e => if e.1 = line then (line, st) else e }

/-- A tier-3 read has failed (R154). -/
def Work.failRead (t : Nat) (w : Work) : Work :=
  match SMap.at none w.dev.tiers.reads t with
  | none => w
  | some h =>
    let w := w.tiers fun x => { x with reads := SMap.put none x.reads t none }
    if h.unit then w.unitLine h.page h.idx 2
    else
      let w := w.modRing h.page fun r => PfRing.setSt (h.idx, h.isNext) { (r.st (h.idx, h.isNext)) with st := 4 } r
      match (w.page h.page).ctx with
      | some c => w.pfRelease c
      | none => w

/-- T3_COMPLETION. R154: data delivered, tagged where the completion is poisoned; a failed one fails the read. What a unit has asked for stands at its host
address, from where the unit reads it. While its context is being saved a descriptor goes on to its next 4 KiB boundary; a fault stops it at once (R164). -/
def execT3Completion (tag status : Nat) (data : List Byte) (s : State) : Host.Outcome State Fault Refusal :=
  .next (s.run fun w =>
    match SMap.at none w.dev.tiers.reads tag with
    | none => w
    | some h =>
      let line := (data ++ List.replicate 64 0).take 64
      let w := if status = 0 then w else w.count pciPage 2 1
      if status ≥ 2 then w.failRead tag
      else
        let w := (w.tiers fun x => { x with reads := SMap.put none x.reads tag none }).count pciPage 4 64
        if h.unit then (((w.wrs (hostA h.addr) line).tagRange (hostA h.addr) 64 (status == 1))).unitLine h.page h.idx 1
        else
          let r := w.ring h.page
          let e := (h.idx, h.isNext)
          match r.descs[h.idx]?, (w.page h.page).ctx with
          | some d, some c =>
            let got := (r.st e).got
            if !w.pfPairOk (dieOf h.page) c d got (got + 64) then w.pfBound c h.page h.idx d.tag
            else
              let w := (w.pfPut (dieOf h.page) d got line (status == 1)).modRing h.page (PfRing.setSt e { (r.st e) with got := got + 64 })
              let on := (w.pfRuns h.page).isSome || (decide ((w.ctx c).state = .saving) && (got + 64) % 4096 != 0)
              if got + 64 < d.len ∧ on then w.pfAsk c h.page e d (got + 64) else w
          | _, _ => w)

/-- T3_COMPLETION_TIMEOUT. R154. -/
def execT3CompletionTimeout (tag : Nat) (s : State) : Host.Outcome State Fault Refusal :=
  .next (s.run fun w => if (SMap.at none w.dev.tiers.reads tag).isSome then (w.count pciPage 3 1).failRead tag else w)

/-- After a restore (R164): completed descriptors of the step whose scratch was zeroed run again first, in ring order; suspended ones go on after them. -/
def Work.pfResume (c : Nat) (w : Work) : Work :=
  (w.seqPages c).foldl (fun w p =>
    let r := w.ring p
    let redo := r.runs.filter fun e => match r.descs[e.1]? with
      | some d => (r.st e).done && d.scratch && !bit (w.pairAttr (mcPage (dieOf p) d.dst) d.pair) attrSave
      | none => false
    (w.modRing p fun r => { (redo.foldl (fun r e => PfRing.setSt e {} r) r) with redo := redo }).pfAskOn c p) w

/-! ### Reads of other units (R154, R157, R165) -/

/-- What a unit does for a context with reads that may have to wait (R165). Where one waits, nothing has happened but what it asks for, a tier-3 line or a
second decoding pass, and the stall runs; else the stall is over, unless the end comes at its limit (R166). -/
def Work.tryUnit (p c : Nat) (f : Work → Work) (w : Work) : Work :=
  let w' := f { w with at_ := some p, gate := true }
  let sp := w.stallPage (dieOf p) c
  match w'.wait with
  | none =>
    match sp.bind fun q => ((w.stallsOf q).find? fun t => t.kind = 16 + p && w.stallLate q t).map fun t => (q, t) with
    | some (q, t) => w.stallOut q c t
    | none =>
      let w := ({ w' with gate := false }.cutFault (some c) p).tiers fun t => { t with lines := SMap.drop t.lines p }
      sp.elim w fun q => w.endStall q (16 + p)
  | some cause =>
    let w := w'.again.foldl (fun (w : Work) l => w.decodeLine l) w
    let w := w'.want.foldl (fun (w : Work) l =>
      (w.tiers fun t => { t with lines := SMap.mod [] t.lines p (· ++ [(l, 0)]) }).askHost (w.ctx c).part l { page := p, idx := l, isNext := false, addr := 0, unit := true }) w
    sp.elim w fun q => (w.beginStall q (16 + p) cause 0).moveStall q (16 + p) cause 0

/-- XLT_T3MAP_WRITE. R153: while VALID is 1 a write that does not clear VALID is dropped. -/
def execXltT3mapWrite (by_ : Caller) (off : Nat) (v : Word) (s : State) : Host.Outcome State Fault Refusal :=
  .next (s.run fun w =>
    let p := off / 4096
    let o := off % 4096
    let i := (o - 0x800) / 16
    if p ≠ xltPage 0 ∨ o < 0x800 ∨ o % 4 ≠ 0 then w
    else w.access by_ p fun w =>
      let valid := w.get p (R.XLT_T3MAP_LO_VALID.i i) == 1
      if valid && !((o - 0x800) % 16 == 0 && !bit v.toNat 0) then w.dropWrite p (o / 4) v
      else match (o - 0x800) % 16 with
        | 0 => w.setReg p (o / 4) (v &&& 0xFFFFF07F#32)
        | 4 => w.setReg p (o / 4) v
        | 8 => w.setReg p (o / 4) (v &&& 0x3FF#32)
        | _ => w)

/-! ### Scrubbing and failures (R155–R158) -/

/-- Units u of [lo, lo + n) with u mod m = i. -/
def unitsMod (lo n m i : Nat) : Nat := (lo + n + m - 1 - i) / m - (lo + m - 1 - i) / m

/-- What a scrub finds: lines with errors corrected and written back, uncorrectable ones tagged and reported (R155–R157): those whose check symbols have the
error already, and those in which the scrub comes upon one. -/
def Work.scrubLines (lo hi : Nat) (corr unc : List Nat) (w : Work) : Work :=
  let inside := fun a => decide (lo ≤ a) && decide (a < hi)
  let bad := (w.mem.filter fun e => decide (poisonA lo ≤ e.1) && decide (e.1 ≤ poisonA (hi - 1)) && decide (1#8 < e.2)).map fun e => (e.1 - 2 ^ 100) * 64
  let w := bad.foldl (fun (w : Work) a => w.decodeLine a) w
  let w := (corr.filter inside).foldl (fun (w : Work) a => (w.errAddr (a / 64 * 64) 0).count (w.memPage a) 0 1) w
  (unc.filter inside).foldl (fun w a => (w.setPoison a true).uncLine (a / 64 * 64)) w

/-- HBM_SCRUB. R157, R379: once an HBM scrub in the granule's quadrant is admitted. -/
def execHbmScrub (gran : Nat) (corr unc : List Nat) (s : State) : Host.Outcome State Fault Refusal :=
  .next (s.run fun w =>
    match w.dev.flt.running.find? fun a => a.act == 1 && a.scope / 5 == gran / 240 with
    | none => w
    | some a =>
      if !w.t1Present gran || w.zeroing false gran then w.finishAct a.act a.scope
      else
        let w := w.scrubLines (gran * gib) (gran * gib + gib) corr unc
        let w := (List.range 5).foldl (fun w i =>
          w.count (hbcPage (gran / 240) i) 3 (8 * unitsMod (gran % 240 * 2 ^ 21) (2 ^ 21) 5 i)) w
        w.finishAct a.act a.scope)

/-- BULK_SCRUB. R157, R379: once a bulk scrub is admitted. -/
def execBulkScrub (gran : Nat) (corr unc : List Nat) (s : State) : Host.Outcome State Fault Refusal :=
  .next (s.run fun w =>
    match w.dev.flt.running.find? fun a => a.act == 2 with
    | none => w
    | some a =>
      let set := w.t2Set
      if w.t2Cap ≤ gran || w.zeroing true gran then w.finishAct a.act a.scope
      else
        let w := w.scrubLines (t2Base + gran * gib) (t2Base + gran * gib + gib) corr unc
        let w := (List.range set.length).foldl (fun w i =>
          w.count (chanPage (set.getD i 0)) 3 (64 * unitsMod (gran * 2 ^ 18) (2 ^ 18) set.length i)) w
        w.finishAct a.act a.scope)

/-- BULK_CHANNEL_FAIL. R158: a READY channel goes to FAILED; what waits for it is judged again. -/
def execBulkChannelFail (ch : Nat) (s : State) : Host.Outcome State Fault Refusal :=
  .next (s.run fun w =>
    if ch < 16 ∧ w.get (chanPage ch) R.MEM_STS_CHSTATE = 1 then
      let w := (w.set (chanPage ch) R.MEM_STS_CHSTATE 2).raise (chanPage ch) 17
      (SMap.keys w.dev.ctxs).foldl (fun w c => w.pfRelease c) w
    else w)

/-- MEM_TEMP_HIGH. R158: the temperature is taken; EV_MEM_TEMP when it reaches 95 °C. -/
def execMemTempHigh (page temp : Nat) (s : State) : Host.Outcome State Fault Refusal :=
  .next (s.run fun w =>
    if (typeOf page = 0x10 ∨ typeOf page = 0x11) ∧ w.live page then
      let old := w.get page R.MEM_TEMP_TEMP
      let w := w.set page R.MEM_TEMP_TEMP temp
      if toSigned 12 old < 380 ∧ toSigned 12 temp ≥ 380 then w.raise page 18 else w
    else w)

end Sys2Proof.Machine
end

