-- ==== Sys2Proof/Machine/Paging.lean ====
section
/-!
DEFINITION. Paging.lean: page regions and pools, page tables, their edits, generations and walks (R168–R191).
-/
namespace Sys2Proof.Machine

def Work.pool (f : Pool → Pool) (w : Work) : Work := w.d fun d => { d with pool := f d.pool }
def Work.tab (w : Work) (rq : Nat) : Tab := SMap.at {} w.dev.pool.tabs rq
def Work.modTab (rq : Nat) (f : Tab → Tab) (w : Work) : Work := w.pool fun p => { p with tabs := SMap.mod {} p.tabs rq f }
def Work.region (w : Work) (tag : Nat) : Region := SMap.at {} w.dev.pool.regions tag
def Work.req (w : Work) (i : Nat) : Req := SMap.at {} w.dev.serve.reqs i
def Work.serve (f : Serving → Serving) (w : Work) : Work := w.d fun d => { d with serve := f d.serve }
def Work.modReq (i : Nat) (f : Req → Req) (w : Work) : Work := w.serve fun x => { x with reqs := SMap.mod {} x.reqs i f }
def Work.batch (w : Work) (c : Nat) : Batch := SMap.at {} w.dev.serve.batches c

/-- The PPL page of a request's table (R177) and of a region (R169). -/
def tabPage (rq : Nat) : Nat := pplPage (rq / 2048)
def regPage (tag : Nat) : Nat := pplPage (tag / 4)

/-! ### Regions (R168, R169, R175, R176) -/

def Work.tshift (w : Work) (tag : Nat) : Nat := w.get (regPage tag) (R.PPL_RCFG_TSHIFT.i (tag % 4))
def Work.regValid (w : Work) (tag : Nat) : Bool := decide (tag < 16) && w.get (regPage tag) (R.PPL_RCFG_VALID.i (tag % 4)) == 1
def Work.regPart (w : Work) (tag : Nat) : Nat := w.get (regPage tag) (R.PPL_RCFG_PARTITION.i (tag % 4))
def Work.regFirst (w : Work) (tag : Nat) : Nat := w.get (regPage tag) (R.PPL_RGRAN_FIRST.i (tag % 4)) * gib
def Work.regGrans (w : Work) (tag : Nat) : Nat := w.get (regPage tag) (R.PPL_RGRAN_COUNT.i (tag % 4))
/-- Where allocation begins: after the reference counts. -/
def Work.regLow (w : Work) (tag : Nat) : Nat := w.regFirst tag + w.regGrans tag * 2 ^ 19
def Work.regEnd (w : Work) (tag : Nat) : Nat := w.regFirst tag + w.regGrans tag * gib
/-- Bytes of a page. -/
def Work.pageBytes (w : Work) (tag k : Nat) : Nat := 2 ^ (k + w.tshift tag)
/-- Size codes that a region of a token shift can hold: k + TSHIFT in 12–28. -/
def classLo (ts : Nat) : Nat := max 4 (12 - ts)
def classHi (ts : Nat) : Nat := min 12 (28 - ts)

/-- A free block put in its place by address. -/
def insBlock (b : Nat × Nat) (l : List (Nat × Nat)) : List (Nat × Nat) :=
  (l.filter fun x => decide (x.1 < b.1)) ++ b :: l.filter fun x => decide (b.1 < x.1)

/-- More blocks than that many granules can hold. -/
def fillFuel (ts grans : Nat) : Nat := grans * 2 ^ (30 - classHi ts - ts) + 64

/-- The free blocks of [a, e): at each address the largest that is aligned and fits. -/
def fillFree (ts e : Nat) : Nat → Nat → List (Nat × Nat)
  | 0, _ => []
  | n + 1, a =>
    let ks := ((List.range 13).filter fun k => classLo ts ≤ k && k ≤ classHi ts && a % 2 ^ (k + ts) == 0 && decide (a + 2 ^ (k + ts) ≤ e))
    match ks.getLast? with
    | some k => (a, k) :: fillFree ts e n (a + 2 ^ (k + ts))
    | none =>
      let step := 2 ^ (classLo ts + ts)
      if a + step ≤ e ∧ a % step ≠ 0 then fillFree ts e n (ceilDiv a step * step) else []

/-- A block freed, merging with its free buddy as far as it goes (R175). -/
def mergeFree (ts lo : Nat) : Nat → Nat → Nat → List (Nat × Nat) → List (Nat × Nat)
  | 0, a, k, l => insBlock (a, k) l
  | n + 1, a, k, l =>
    let buddy := a ^^^ 2 ^ (k + ts)
    if k < classHi ts ∧ l.contains (buddy, k) ∧ lo ≤ min a buddy then mergeFree ts lo n (min a buddy) (k + 1) (l.filter fun x => x ≠ (buddy, k))
    else insBlock (a, k) l

/-- A block of class k taken: the lowest-addressed one of the smallest class at or above k, split into halves as needed (R175). -/
def takeFree (ts k : Nat) (l : List (Nat × Nat)) : Option (Nat × List (Nat × Nat)) :=
  if k < classLo ts ∨ classHi ts < k then none
  else
    match (List.range 13).find? fun j => decide (k ≤ j) && l.any fun x => x.2 == j with
    | none => none
    | some j =>
      match l.find? fun x => x.2 == j with
      | none => none
      | some (a, _) =>
        let rest := l.filter fun x => x.1 ≠ a
        some (a, (List.range (j - k)).foldl (fun l i => insBlock (a + 2 ^ (k + i + ts), k + i) l) rest)

/-- FREE and LARGEST of a region's registers; FREE counts every unit that is neither a count, a page nor zeroing, what lies below the first place
of a page too (log entry 90); EV_POOL_LOW where FREE falls below LOWMARK (R191). -/
def Work.showRegion (tag : Nat) (w : Work) : Work :=
  let p := regPage tag
  let r := w.region tag
  let ts := w.tshift tag
  let unit := 2 ^ (classLo ts + ts)
  let low := w.regLow tag
  let units := r.free.foldl (fun a x => a + 2 ^ (x.2 + ts) / 4096) ((ceilDiv low unit * unit - low) / 4096)
  let old := w.get p (R.PPL_RFREE_FREE.i (tag % 4))
  let mark := w.get p R.PPL_LOWMARK_LOWMARK
  let waits := (w.dev.pool.tabs.filter fun t => t.2.wait != 0 && t.2.waitTag == tag).length
  let w := (w.set p (R.PPL_RFREE_FREE.i (tag % 4)) units).set p (R.PPL_RSTAT_LARGEST.i (tag % 4)) (r.free.foldl (fun a x => max a x.2) 0)
  let w := w.set p (R.PPL_RSTAT_WAITS.i (tag % 4)) (min waits 65535)
  if mark ≤ old ∧ units < mark then w.raise p 16 else w

def Work.setRegion (tag : Nat) (r : Region) (w : Work) : Work :=
  (w.pool fun p => { p with regions := SMap.put {} p.regions tag r }).showRegion tag

/-- Where a region keeps the count of a page: its first G × 512 KiB are sixteen bits for every 4 KiB of it, and the page's is that of its first 4 KiB (R169,
R176; the layout is DEDUCED, log entry 124). -/
def Work.refPlace (w : Work) (r : PageRef) : Nat := w.regFirst r.tag + 2 * ((r.addr - w.regFirst r.tag) / 4096)

/-- The count of a page, with its class, set; zero for a page that is no longer allocated. The count is written where the region keeps it. -/
def Work.putRef (r : PageRef) (n k : Nat) (w : Work) : Work :=
  (w.pool fun p => { p with refs := if n = 0 then SMap.drop p.refs (r.addr / 4096) else SMap.put (0, 0) p.refs (r.addr / 4096) (n, k) }).storeLE (w.refPlace r) 2 n

/-- A page of a class from a region, with count 1. -/
def Work.allocPage (tag k : Nat) (w : Work) : Option (PageRef × Work) :=
  if !w.regValid tag then none
  else match takeFree (w.tshift tag) k (w.region tag).free with
    | none => none
    | some (a, l) =>
      let w := (w.setRegion tag { w.region tag with free := l }).putRef ⟨tag, a, k⟩ 1 k
      some (⟨tag, a, k⟩, w.count (regPage tag) 0 1)

/-- A page of a class from each region of a list, or nothing at all; the region that has none. -/
def Work.allocEach (k : Nat) : List Nat → Work → Except Nat (List PageRef × Work)
  | [], w => .ok ([], w)
  | t :: l, w =>
    match w.allocPage t k with
    | none => .error t
    | some (r, w) => match Work.allocEach k l w with
      | .ok (rs, w) => .ok (r :: rs, w)
      | .error e => .error e

/-- 1 subtracted from a page's count; at zero the page is freed, zeroed first where the region says so (R176, R183). -/
def Work.dropRef (r : PageRef) (w : Work) : Work :=
  let (n, k) := SMap.at (0, 0) w.dev.pool.refs (r.addr / 4096)
  if n = 0 then w
  else if n > 1 then w.putRef r (n - 1) k
  else
    let w := (w.putRef r 0 k).count (regPage r.tag) 1 1
    let g := w.region r.tag
    if w.get (regPage r.tag) (R.PPL_RCFG_ZEROFREE.i (r.tag % 4)) = 1 then
      w.setRegion r.tag { g with zeroing := g.zeroing ++ [(r.addr, k)] }
    else w.setRegion r.tag { g with free := mergeFree (w.tshift r.tag) (w.regLow r.tag) 9 r.addr k g.free }

/-- 1 added to a page's count; none beyond 65535. -/
def Work.addRef (r : PageRef) (w : Work) : Option Work :=
  let (n, k) := SMap.at (0, 0) w.dev.pool.refs (r.addr / 4096)
  if n ≥ 65535 then none else some (w.putRef r (n + 1) k)

/-! ### Tables (R171–R173) -/

/-- The number of `n` bytes at an offset of a table. -/
def Work.th (w : Work) (t : Tab) (off n : Nat) : Nat := w.le (t.addr + off) n
/-- Planes of a table. -/
def Work.tPlanes (w : Work) (t : Tab) : Nat := 2 ^ (w.th t 4 1 % 4)
def Work.tMaxk (w : Work) (t : Tab) : Nat := bits (w.th t 4 1) 7 4
def Work.tTag (w : Work) (t : Tab) (j : Nat) : Nat := bits (w.th t 22 2) (4 * j + 3) (4 * j)
def Work.tTags (w : Work) (t : Tab) : List Nat := (List.range (w.tPlanes t)).map (w.tTag t)
def Work.tRowcap (w : Work) (t : Tab) : Nat := w.th t 20 2 % 2 ^ 14
def Work.tPaged (w : Work) (t : Tab) (b : Nat) : Nat := w.th t (32 + 32 * b) 4 % 2 ^ 25
def Work.tRows (w : Work) (t : Tab) (b : Nat) : Nat := w.th t (36 + 32 * b) 2 % 2 ^ 14
/-- FR_k of a bank; FR_13 is NROWS. -/
def Work.tFr (w : Work) (t : Tab) (b k : Nat) : Nat := if k ≥ 13 then w.tRows t b else w.th t (38 + 32 * b + 2 * (k - 4)) 2
def Work.tStage (w : Work) (t : Tab) (j : Nat) : Nat := w.th t (96 + 8 * j) 8 % 2 ^ 48
/-- The address of row i of bank b. -/
def Work.tRowAt (w : Work) (t : Tab) (b i : Nat) : Nat := t.addr + 128 + (b * w.tRowcap t + i) * (8 * w.tPlanes t)
/-- The entry of plane j in a row. -/
def Work.tEntry (w : Work) (t : Tab) (b i j : Nat) : Nat := w.le (w.tRowAt t b i + 8 * j) 8
/-- The shadow bank (R181). -/
def Tab.shadow (t : Tab) : Nat := (t.gen + 1) % 2
/-- Classes in use. -/
def classes : List Nat := [4, 5, 6, 7, 8, 9, 10, 11, 12]
/-- Positions that the rows of a bank cover. -/
def Work.tCover (w : Work) (t : Tab) (b : Nat) : Nat := classes.foldl (fun a k => a + (w.tFr t b (k + 1) - w.tFr t b k) * 2 ^ k) 0
/-- Class of row i of a bank, and the position where it starts. -/
def Work.tRowOf (w : Work) (t : Tab) (b i : Nat) : Nat × Nat :=
  let k := (classes.find? fun k => decide (w.tFr t b k ≤ i) && decide (i < w.tFr t b (k + 1))).getD 4
  (k, classes.foldl (fun a j => if j < k then a + (w.tFr t b (j + 1) - w.tFr t b j) * 2 ^ j
    else if j = k then a + (i - w.tFr t b k) * 2 ^ k else a) 0)

/-- A page-list entry (Table 10.1). -/
def entryWord (r : PageRef) (shared mirror : Bool) : Nat :=
  2 ^ 63 + (if mirror then 2 ^ 57 else 0) + (if shared then 2 ^ 56 else 0) + r.tag * 2 ^ 52 + r.k * 2 ^ 48 + r.addr
def entryAddr (e : Nat) : Nat := bits e 47 12 * 4096
def entryRef (e : Nat) : PageRef := ⟨bits e 55 52, entryAddr e, bits e 51 48⟩
def entryShared (e : Nat) : Bool := bit e 56

/-- Pages of a region are mirrored (R377). -/
def Work.regMirror (w : Work) (tag : Nat) : Bool := w.get (regPage tag) (R.PPL_MIRROR_MEN.i (tag % 4)) == 1

/-- Bytes of a table written by an edit: what they were is kept for an abandon, and the log notes the row or field (R181, R184). -/
def Work.tEdit (rq note a n v : Nat) (w : Work) : Work :=
  let old := w.rdN a n
  (w.modTab rq fun t => { t with undo := (a, old) :: t.undo, log := if t.log.contains note then t.log else t.log ++ [note] }).storeLE a n v

/-- A row appended to the shadow: its entries, NROWS and the FR fields of higher classes. -/
def Work.appendRow (rq k : Nat) (es : List Nat) (w : Work) : Work :=
  let t := w.tab rq
  let b := t.shadow
  let i := w.tRows t b
  let w := (List.range es.length).foldl (fun w j => w.tEdit rq i (w.tRowAt t b i + 8 * j) 8 (es.getD j 0)) w
  let w := (classes.filter (k < ·)).foldl (fun w j => w.tEdit rq (8194 + j) (t.addr + 38 + 32 * b + 2 * (j - 4)) 2 (w.tFr t b j + 1)) w
  w.tEdit rq 8193 (t.addr + 36 + 32 * b) 2 (i + 1)

/-- The class of the row that the PPL allocates next (R173). -/
def Work.nextClass (w : Work) (t : Tab) (s kprev : Nat) : Nat :=
  let kl := if s < w.th t 8 4 % 2 ^ 25 then bits (w.th t 5 1) 3 0 else if s < w.th t 12 4 % 2 ^ 25 then bits (w.th t 5 1) 7 4 else w.th t 6 1 % 16
  ((List.range 13).filter fun k => decide (kprev ≤ k) && decide (k ≤ max kprev kl) && s % 2 ^ k == 0).getLast?.getD kprev

/-- Class of the last row of a bank; 4 where it has none. -/
def Work.lastClass (w : Work) (t : Tab) (b : Nat) : Nat := if w.tRows t b = 0 then 4 else (w.tRowOf t b (w.tRows t b - 1)).1

/-- One row allocated and appended; the status or the region that has no page. -/
def Work.growOne (rq : Nat) (w : Work) : Except (Status × Nat) Work :=
  let t := w.tab rq
  let b := t.shadow
  if w.tRows t b ≥ w.tRowcap t then .error (.capacity, 16)
  else
    let k := w.nextClass t (w.tCover t b) (w.lastClass t b)
    match w.allocEach k (w.tTags t) with
    | .error tag => .error (.capacity, tag)
    | .ok (rs, w) =>
      .ok ((w.modTab rq fun t => { t with alloc := t.alloc ++ rs }).appendRow rq k (rs.map fun r => entryWord r false (w.regMirror r.tag)))

/-- Rows appended until the shadow covers n positions. -/
def Work.growTo (rq n : Nat) : Nat → Work → Except (Status × Nat) Work
  | 0, w => .ok w
  | f + 1, w =>
    if n ≤ w.tCover (w.tab rq) (w.tab rq).shadow then .ok w
    else match w.growOne rq with
      | .ok w => Work.growTo rq n f w
      | .error e => .error e

/-! ### Pool operations (R177, Table 10.3) -/

/-- An edit that must wait for a retirement is counted once (R181). -/
def Work.retireWait (rq : Nat) (w : Work) : Work :=
  if (w.tab rq).retireCounted then w
  else ((w.modTab rq fun t => { t with retireCounted := true }).count (tabPage rq) 6 1).raise (tabPage rq) 18

/-- A table's page wait ends (R188). -/
def Work.endWait (rq : Nat) (w : Work) : Work :=
  let t := w.tab rq
  if t.wait = 0 then w else (w.modTab rq fun t => { t with wait := 0 }).showRegion t.waitTag

/-- An edit of the generation `gen` of a table: refused, made to wait (BUSY, never a final answer), or done; an edit log beyond 256 entries
undoes it (R177, R181). -/
def Work.poolEdit (rq gen : Nat) (f : Work → Except (Status × Nat) Work) (w : Work) : Status × Work :=
  let t := w.tab rq
  if !t.reg then (.bound, w)
  else if gen ≠ t.gen + 1 then (.epoch, w)
  else if t.oldOpen then (.busy, w.retireWait rq)
  else if t.dropping then (.state, w)
  else match f w with
    | .error (st, tag) =>
      if st = .capacity ∧ tag < 16 then
        -- R188: a GROW that finds no page registers a wait in the region that has none
        (st, if t.wait = 0 then (w.modTab rq fun t => { t with wait := w.now + 1, waitTag := tag }).showRegion tag else w)
      else (st, w)
    | .ok w' => if (w'.tab rq).log.length > 256 then (.capacity, w) else (.done, w')

/-- Rows r0 to r1 of a source's published bank referenced in order; each must continue the table (R173). -/
def Work.shareRows (rq src : Nat) : List Nat → Work → Except (Status × Nat) Work
  | [], w => .ok w
  | i :: l, w =>
    let t := w.tab rq
    let s := w.tab src
    let b := s.gen % 2
    let (k, _) := w.tRowOf s b i
    let at_ := w.tCover t t.shadow
    if i ≥ w.tRows s b ∨ w.tPlanes s ≠ w.tPlanes t ∨ k < w.lastClass t t.shadow ∨ at_ % 2 ^ k ≠ 0 ∨ k > w.tMaxk t then .error (.shape, 16)
    else if w.tRows t t.shadow ≥ w.tRowcap t then .error (.capacity, 16)
    else
      let es := (List.range (w.tPlanes s)).map (w.tEntry s b i)
      match (es.map entryRef).foldl (fun (a : Option Work) r => a.bind fun w => w.addRef r) (some w) with
      | none => .error (.capacity, 16)
      | some w =>
        Work.shareRows rq src l ((w.modTab rq fun t => { t with added := t.added ++ es.map entryRef }).appendRow rq k
          (es.map fun e => entryWord (entryRef e) true (bit e 57)))

/-- SHARE (Table 10.3). -/
def Work.poolShare (rq gen src r0 r1 : Nat) (w : Work) : Status × Work :=
  Work.poolEdit rq gen (fun w =>
    if !(w.tab src).reg ∨ (w.tab src).part ≠ (w.tab rq).part then .error (.bound, 16)
    else if r1 < r0 then .error (.shape, 16)
    else w.shareRows rq src ((List.range (r1 + 1 - r0)).map (r0 + ·))) w

/-- GROW (Table 10.3). -/
def Work.poolGrow (rq gen n : Nat) (w : Work) : Status × Work := Work.poolEdit rq gen (fun w => w.growTo rq n 8193) w

/-- REPLACE (Table 10.3): new pages, one per plane, by address. -/
def Work.poolReplace (rq gen row : Nat) (pages : List Nat) (w : Work) : Status × Work :=
  Work.poolEdit rq gen (fun w =>
    let t := w.tab rq
    let b := t.shadow
    let (k, _) := w.tRowOf t b row
    let refs := (List.range (w.tPlanes t)).map fun j =>
      (⟨w.tTag t j, pages.getD j 0, (SMap.at (0, 0) w.dev.pool.refs (pages.getD j 0 / 4096)).2⟩ : PageRef)
    if row ≥ w.tRows t b ∨ pages.length ≠ w.tPlanes t then .error (.shape, 16)
    else if !(refs.all fun r => w.regValid r.tag && w.regPart r.tag == t.part && decide (w.regLow r.tag ≤ r.addr) && decide (r.addr < w.regEnd r.tag) &&
        r.addr % 4096 == 0 && decide ((SMap.at (0, 0) w.dev.pool.refs (r.addr / 4096)).1 ≠ 0)) then .error (.bound, 16)
    else if !(refs.all fun r => r.k == k) then .error (.shape, 16)
    else
      let old := (List.range (w.tPlanes t)).map fun j => entryRef (w.tEntry t b row j)
      let w := w.modTab rq fun t => { t with
        rel := t.rel ++ old, split := t.split.filter fun r => !refs.contains r
        tookSplit := t.tookSplit ++ t.split.filter fun r => refs.contains r }
      .ok ((List.range (w.tPlanes t)).foldl (fun w j =>
        w.tEdit rq row (w.tRowAt t b row + 8 * j) 8 (entryWord (refs.getD j ⟨0, 0, 0⟩) false (w.regMirror (w.tTag t j)))) w)) w

/-- What SRV_SAMPLE has written into a batch entry for the request it names: ACC, where OK (R288). -/
def Work.sampled (w : Work) (b : Batch) (rq : Nat) : Option Nat :=
  (b.ents.findIdx? fun e => e.1 == rq).bind fun i =>
    let v := w.le (b.base + 16 + 16 * i + 12) 1
    if bit v 7 then some (v % 128) else none

/-- The committed length that the present step is to publish for a request, at most (R177): NPOS more of a prefill or a decode, the accepted nodes more of a
request that speculates. -/
def Work.clenToBe (w : Work) (rq : Nat) : Nat :=
  let r := w.req rq
  let b := w.batch r.ctx
  match b.formed, b.ents.find? fun e => e.1 == rq with
  | true, some e => r.clen + if e.2.1 = 2 then (w.sampled b rq).getD 0 else e.2.2
  | _, _ => r.clen

/-- SETPAGED (Table 10.3); a decreasing value or one beyond the length to be published is SHAPE (DESIGN CHOICE, log entry 41). -/
def Work.poolSetpaged (rq gen n : Nat) (w : Work) : Status × Work :=
  Work.poolEdit rq gen (fun w =>
    let t := w.tab rq
    let b := t.shadow
    if n < w.tPaged t b ∨ n > w.clenToBe rq then .error (.shape, 16)
    else .ok (w.tEdit rq 8192 (t.addr + 32 + 32 * b) 4 n)) w

/-- DROPALL (Table 10.3): rows, staging buffers and the split reserve are released when the generation before retires. -/
def Work.poolDropall (rq gen : Nat) (w : Work) : Status × Work :=
  Work.poolEdit rq gen (fun w =>
    let t := w.tab rq
    let b := t.shadow
    let rows := ((List.range (w.tRows t b)).map fun i => (List.range (w.tPlanes t)).map fun j => entryRef (w.tEntry t b i j)).flatten
    let stages := ((List.range (w.tPlanes t)).map fun j => (⟨w.tTag t j, w.tStage t j, w.tMaxk t⟩ : PageRef)).filter fun r => r.addr != 0
    .ok (Work.endWait rq (w.modTab rq fun t =>
      { t with rel := t.rel ++ rows ++ stages ++ t.split, split := [], tookSplit := t.tookSplit ++ t.split, dropping := true }))) w

/-- A pool operation on the generation that it names. -/
def Work.poolDo (rq gen : Nat) (op : PoolOp) (w : Work) : Status × Work :=
  match op with
  | .share src r0 r1 => w.poolShare rq gen src r0 r1
  | .grow n => w.poolGrow rq gen n
  | .replace row pages => w.poolReplace rq gen row pages
  | .setpaged n => w.poolSetpaged rq gen n
  | .dropall => w.poolDropall rq gen

/-- A unit of a context is told the status of its pool operation. -/
def Work.tellPool (c : Nat) (st : Status) (w : Work) : Work := w.pool fun p => { p with told := SMap.put 0 p.told c st.code }

/-- A pool operation of a unit of context c (R177): a table outside the caller's partition is BOUND; an edit that has to wait for a retirement is kept
until then (R181). -/
def Work.poolIssue (c rq gen : Nat) (op : PoolOp) (w : Work) : Work :=
  if (w.tab rq).part ≠ (w.ctx c).part then w.tellPool c .bound
  else match w.poolDo rq gen op with
    | (.busy, w) => w.modTab rq fun t => { t with ops := t.ops ++ [(c, gen, op)] }
    | (st, w) => w.tellPool c st

/-- The operations that waited for a table's retirement, in the order of their issue. -/
def Work.poolServe (rq : Nat) (w : Work) : Work :=
  (w.tab rq).ops.foldl (fun (w : Work) o => w.poolIssue o.1 rq o.2.1 o.2.2) (w.modTab rq fun t => { t with ops := [] })

/-- SHARE. R177. -/
def execShare (rq : TableOf) (gen src r0 r1 : Nat) (s : State) : Host.Outcome State Fault Refusal := .next (s.run (Work.poolIssue rq.ctx rq.rq gen (.share src r0 r1)))
/-- GROW. R177. -/
def execGrow (rq : TableOf) (gen n : Nat) (s : State) : Host.Outcome State Fault Refusal := .next (s.run (Work.poolIssue rq.ctx rq.rq gen (.grow n)))
/-- REPLACE. R177. -/
def execReplace (rq : TableOf) (gen row : Nat) (pages : List Nat) (s : State) : Host.Outcome State Fault Refusal :=
  .next (s.run (Work.poolIssue rq.ctx rq.rq gen (.replace row pages)))
/-- SETPAGED. R177. -/
def execSetpaged (rq : TableOf) (gen n : Nat) (s : State) : Host.Outcome State Fault Refusal := .next (s.run (Work.poolIssue rq.ctx rq.rq gen (.setpaged n)))
/-- DROPALL. R177. -/
def execDropall (rq : TableOf) (gen : Nat) (s : State) : Host.Outcome State Fault Refusal := .next (s.run (Work.poolIssue rq.ctx rq.rq gen .dropall))

/-- The table that has waited longest for a page of a region. -/
def Work.firstWait (w : Work) (tag : Nat) : Option (Nat × Tab) :=
  (w.dev.pool.tabs.filter fun t => t.2.wait != 0 && t.2.waitTag == tag).foldl (fun (m : Option (Nat × Tab)) t => match m with
    | none => some t
    | some u => if t.2.wait < u.2.wait then some t else some u) none

/-- Page waits of a region granted, the oldest first: the PPL appends the row to the shadow itself, once that is free and its edit log has room (R181,
R188). A table that now lacks a page of another region waits there; one that can take no further row waits no longer. -/
def Work.grantWaits (tag : Nat) : Nat → Work → Work
  | 0, w => w
  | f + 1, w =>
    match w.firstWait tag with
    | none => w
    | some (rq, t) =>
      if t.oldOpen then w
      else match w.growOne rq with
        | .ok w' => if (w'.tab rq).log.length > 256 then w else Work.grantWaits tag f (Work.endWait rq w')
        | .error (_, g) =>
          if g = tag then w
          else if g < 16 then Work.grantWaits tag f (((w.modTab rq fun t => { t with waitTag := g }).showRegion tag).showRegion g)
          else Work.grantWaits tag f (Work.endWait rq w)

/-- A page released, and the waits that it can serve. -/
def Work.freeRef (r : PageRef) (w : Work) : Work := let w := w.dropRef r; w.grantWaits r.tag w.dev.pool.tabs.length

/-- NTAB of a hub's PPL page (Table 10.6). -/
def Work.showTabs (rq : Nat) (w : Work) : Work :=
  w.set (tabPage rq) R.PPL_TABLES_NTAB (w.dev.pool.tabs.filter fun t => t.1 / 2048 == rq / 2048 && t.2.reg).length

/-- PAGE_ZERO_DONE. R176. -/
def execPageZeroDone (tag addr : Nat) (s : State) : Host.Outcome State Fault Refusal :=
  .next (s.run fun w =>
    let g := w.region tag
    match g.zeroing.find? fun x => x.1 == addr with
    | none => w
    | some (a, k) =>
      let w := w.zeroMem a (w.pageBytes tag k)
      (w.setRegion tag { free := mergeFree (w.tshift tag) (w.regLow tag) 9 a k g.free, zeroing := g.zeroing.filter fun x => x.1 ≠ a }).grantWaits
        tag w.dev.pool.tabs.length)

/-! ### Generations (R181–R184) -/

/-- The generation that a table builds is published (R182). -/
def Work.publishTab (rq : Nat) (w : Work) : Work :=
  let t := w.tab rq
  (w.storeLE t.addr 4 (t.gen + 1)).modTab rq fun t =>
    { t with gen := t.gen + 1, oldOpen := true, oldLog := t.admLog ++ t.log, oldRel := t.rel, oldDrop := t.dropping
             log := [], admLog := [], undo := [], alloc := [], added := [], rel := [], tookSplit := [], retireCounted := false }

/-- The generation before the published one has no walker left (R183). -/
def Tab.canRetire (t : Tab) : Bool := t.reg && t.oldOpen && t.walkers.all fun g => decide (t.gen ≤ g)

/-- That generation retires: the forward copy, the releases, and, after a DROPALL, the end of the table (R183). -/
def Work.retireTab (rq : Nat) (w : Work) : Work :=
  let t := w.tab rq
  let b := t.gen % 2
  let o := (t.gen + 1) % 2
  let n := 8 * w.tPlanes t
  let w := (t.oldLog.filter (· < 8192)).foldl (fun w i => w.store (w.tRowAt t o i) (w.rdN (w.tRowAt t b i) n)) w
  let w := if t.oldLog.any (8192 ≤ ·) then w.store (t.addr + 32 + 32 * o) (w.rdN (t.addr + 32 + 32 * b) 24) else w
  let w := w.modTab rq fun t => { t with oldOpen := false, oldLog := [], oldRel := [], oldDrop := false, retireCounted := false }
  let w := if t.oldDrop then (w.pool fun p => { p with tabs := SMap.drop p.tabs rq }).showTabs rq else w
  let w := t.oldRel.foldl (fun w r => w.freeRef r) w
  let w := if (w.tab rq).wait = 0 then w else w.grantWaits (w.tab rq).waitTag w.dev.pool.tabs.length
  if t.oldDrop then t.ops.foldl (fun (w : Work) o => w.tellPool o.1 .bound) w else w.poolServe rq

/-- A table's edits of the present step undone (R184). -/
def Work.abandonTab (rq : Nat) (w : Work) : Work :=
  let t := w.tab rq
  if !t.reg then w
  else
    let w := t.undo.foldl (fun w u => w.store u.1 u.2) w
    let w := w.modTab rq fun t =>
      { t with log := [], undo := [], alloc := [], added := [], rel := [], split := t.split ++ t.tookSplit, tookSplit := [], dropping := false, ops := [] }
    (t.alloc ++ t.added).foldl (fun w r => w.freeRef r) w

/-- A walker of a table's published generation registers, and deregisters (R183). -/
def Work.walkerIn (rq : Nat) (w : Work) : Work := w.modTab rq fun t => if t.reg then { t with walkers := t.walkers ++ [t.gen] } else t
def Work.walkerOut (rq gen : Nat) (w : Work) : Work := w.modTab rq fun t => { t with walkers := t.walkers.erase gen }

/-- The row of a bank that covers a position, its class, and the token in it (R174). -/
def Work.walkRow (w : Work) (t : Tab) (b pos : Nat) : Option (Nat × Nat × Nat) :=
  (classes.foldl (fun (acc : Option (Nat × Nat × Nat) × Nat) k =>
    let n := (w.tFr t b (k + 1) - w.tFr t b k) * 2 ^ k
    if acc.1.isSome then acc
    else if pos < acc.2 + n then (some (w.tFr t b k + (pos - acc.2) / 2 ^ k, k, (pos - acc.2) % 2 ^ k), acc.2)
    else (none, acc.2 + n)) (none, 0)).1

/-- The page that an entry of class k names, where it is as R174 asks. -/
def Work.entryPage (w : Work) (t : Tab) (e k : Nat) : Option Nat :=
  let tag := bits e 55 52
  if bit e 63 && bits e 51 48 == k && w.regValid tag && w.regPart tag == t.part && entryAddr e % w.pageBytes tag k == 0 &&
      decide (w.regLow tag ≤ entryAddr e) && decide (entryAddr e + w.pageBytes tag k ≤ w.regEnd tag) then some (entryAddr e) else none

/-- Where a position of a plane lies: the page or staging buffer, its class, the token in it; none where the entry is not as R174 asks. -/
def Work.walk (w : Work) (t : Tab) (gen pos plane : Nat) : Option (Nat × Nat × Nat) :=
  let b := gen % 2
  if w.tPaged t b ≤ pos then some (w.tStage t plane, w.tMaxk t, pos % 2 ^ w.tMaxk t)
  else
    (w.walkRow t b pos).bind fun (row, k, tok) =>
      (w.entryPage t (w.tEntry t b row plane) k).map fun a => (a, k, tok)

/-- The offset of byte 0 of a token's row in a page (R170). -/
def kvOffset (k heads rb layer kind head tok : Nat) : Nat := ((layer * 2 + kind) * heads + head) * 2 ^ k * rb + tok * rb

/-! ### Admission (R180) -/

/-- A table's header as admission takes it: well placed, well formed, its regions the partition's. -/
def Work.tableOk (w : Work) (part a : Nat) : Bool :=
  let t : Tab := { addr := a }
  let k0 := bits (w.th t 5 1) 3 0
  let k1 := bits (w.th t 5 1) 7 4
  let k2 := w.th t 6 1 % 16
  let k := w.tMaxk t
  a % 128 == 0 && w.inT1 part a 128 && !w.poisoned a 128 && w.th t 4 1 % 4 != 3 && decide (4 ≤ k0) && decide (k0 ≤ k1) && decide (k1 ≤ k2) && decide (k2 ≤ k) &&
    decide (k ≤ 12) && w.th t 8 4 % 2 ^ k1 == 0 && w.th t 12 4 % 2 ^ k2 == 0 && decide (w.th t 8 4 ≤ w.th t 12 4) && decide (1 ≤ w.tRowcap t) &&
    decide (w.tRowcap t ≤ 8192) && w.inT1 part a (128 + 2 * w.tRowcap t * 8 * w.tPlanes t) &&
    (w.tTags t).all fun g => w.regValid g && w.regPart g == part

/-- The admission of a request (R180): shared rows, split reserve, rows for `n` positions and staging, in the shadow of its table; none
where anything cannot be had. -/
def Work.admitTable (rq part ctx a shsrc shlen n : Nat) (w : Work) : Option Work :=
  if !w.tableOk part a then none
  else
    let w := w.modTab rq fun _ => { reg := true, addr := a, part := part, ctx := ctx, gen := w.le a 4 }
    let s := w.tab shsrc
    let sb := s.gen % 2
    let rows := (List.range (w.tRows s sb)).filter fun i => decide ((w.tRowOf s sb i).2 < shlen)
    let shared := if shlen = 0 then some w
      else if !s.reg then none
      else match w.shareRows rq shsrc rows with
        | .ok w => some w
        | .error _ => none
    shared.bind fun w =>
      let t := w.tab rq
      let split := if shlen = 0 ∨ w.tCover t t.shadow = shlen then some w
        else match w.allocEach (w.lastClass t t.shadow) (w.tTags t) with
          | .ok (rs, w) => some (w.modTab rq fun t => { t with split := rs })
          | .error _ => none
      split.bind fun w =>
        match w.growTo rq n 8193 with
        | .error _ => none
        | .ok w =>
          match w.allocEach (w.tMaxk t) (w.tTags t) with
          | .error _ => none
          | .ok (rs, w) =>
            let w := (List.range rs.length).foldl (fun w j => w.tEdit rq (8208 + j) (t.addr + 96 + 8 * j) 8 ((rs.getD j ⟨0, 0, 0⟩).addr)) w
            some ((w.modTab rq fun t => { t with admLog := t.log, log := [], undo := [], alloc := [], added := [] }).showTabs rq)

/-! ### Compaction and region commands (R185, R190) -/

/-- Whole pages copied with their tags. -/
def Work.copyPage (src dst n : Nat) (w : Work) : Work := w.copyLines src dst (n / 64)

/-- PAGE_COMPACTION. R185, R379: once a compaction in a region of the table is admitted, a private row wholly below PAGED is copied and
replaced in the shadow; while the shadow is not free it waits (R181). -/
def execPageCompaction (rq row : Nat) (s : State) : Host.Outcome State Fault Refusal :=
  .next (s.run fun w =>
    let t := w.tab rq
    match w.dev.flt.running.find? fun a => a.act == 5 && (w.tTags t).contains a.scope with
    | none => w
    | some a =>
      let b := t.shadow
      let (k, start) := w.tRowOf t b row
      let es := (List.range (w.tPlanes t)).map (w.tEntry t b row)
      let private_ := es.all fun e => !entryShared e && (SMap.at (0, 0) w.dev.pool.refs (entryAddr e / 4096)).1 == 1
      if t.reg ∧ t.oldOpen then w.retireWait rq
      else if !t.reg ∨ row ≥ w.tRows t b ∨ !private_ ∨ start + 2 ^ k > w.tPaged t (t.gen % 2) then w.finishAct a.act a.scope
      else match w.allocEach k (w.tTags t) with
        | .error _ => w.finishAct a.act a.scope
        | .ok (rs, w') =>
          let w' := (List.range rs.length).foldl (fun w j =>
            let r := rs.getD j ⟨0, 0, 0⟩
            w.copyPage (entryAddr (es.getD j 0)) r.addr (w.pageBytes r.tag r.k)) (w'.modTab rq fun t => { t with alloc := t.alloc ++ rs })
          let (st, w'') := w'.poolReplace rq (t.gen + 1) row (rs.map (·.addr))
          (if st = .done then w'' else w).finishAct a.act a.scope)

/-- The common checks of the PPL commands (R190). -/
def pplSpec (code : Nat) (resv : Call → Bool) : CmdSpec :=
  { types := [0x21], code := code, who := .priv, states := [.idle, .bound, .running], resv := resv }

/-- PPL_REGION_SET. R190; BUSY also while a granule it names is ZEROING (R320). -/
def execPplRegionSet (q : Issue) (s : State) : Host.Outcome State Fault Refusal :=
  .next (s.run fun w => w.command q (pplSpec 0x40 fun c => c.arg 0 < 16 && c.arg 1 < 1024 && c.arg 2 < 1024 &&
      bits (c.arg 3) 7 5 == 0 && c.arg 3 < 512 && c.arg 4 < 64) fun c w =>
    let tag := c.arg 0
    let hub := dieOf c.page - 16
    let grans := (List.range (c.arg 2)).map (c.arg 1 + ·)
    let ts := c.arg 3 % 32
    let others := (List.range 16).filter fun t => t ≠ tag && w.regValid t
    w.checked c
      [(w.regValid tag || grans.any (w.zeroing false), .busy),
       (tag / 4 != hub || grans.any (fun g => g / 240 != hub || w.owner kT1 g != some (c.arg 4)) ||
        others.any (fun t => overlaps (c.arg 1) (c.arg 2) (w.regFirst t / gib) (w.regGrans t)), .bound),
       (ts < 8 || 24 < ts, .unknown)] fun w =>
      let p := c.page
      let i := tag % 4
      let w := ((w.set p (R.PPL_RCFG_VALID.i i) 1).set p (R.PPL_RCFG_TSHIFT.i i) ts).set p (R.PPL_RCFG_ZEROFREE.i i) (bits (c.arg 3) 8 8)
      let w := ((w.set p (R.PPL_RCFG_PARTITION.i i) (c.arg 4)).set p (R.PPL_RGRAN_FIRST.i i) (c.arg 1)).set p (R.PPL_RGRAN_COUNT.i i) (c.arg 2)
      (w.setRegion tag { free := fillFree ts (w.regEnd tag) (fillFuel ts (c.arg 2)) (w.regLow tag), zeroing := [] }).reply c .done)

/-- PPL_REGION_CLEAR. R190. BUSY while a page of the region is still being zeroed, too, BOUND for a tag of another hub, and DONE for a tag that names no region:
the manual says nothing of these (DESIGN CHOICE, log entry 123). A region that ends raises no EV_POOL_LOW: its FREE does not fall, it is gone. -/
def execPplRegionClear (q : Issue) (s : State) : Host.Outcome State Fault Refusal :=
  .next (s.run fun w => w.command q (pplSpec 0x41 fun c => c.arg 0 < 16) fun c w =>
    let tag := c.arg 0
    let used := w.dev.pool.refs.any fun e => decide (w.regFirst tag ≤ e.1 * 4096) && decide (e.1 * 4096 < w.regEnd tag)
    w.checked c [(tag / 4 == dieOf c.page - 16 && w.regValid tag && (used || !(w.region tag).zeroing.isEmpty), .busy),
        (tag / 4 != dieOf c.page - 16, .bound)] fun w =>
      let p := c.page
      let i := tag % 4
      let w := ((w.set p (R.PPL_RCFG_VALID.i i) 0).set p (R.PPL_RCFG_TSHIFT.i i) 0).set p (R.PPL_RCFG_ZEROFREE.i i) 0
      let w := ((w.set p (R.PPL_RCFG_PARTITION.i i) 0).set p (R.PPL_RGRAN_FIRST.i i) 0).set p (R.PPL_RGRAN_COUNT.i i) 0
      ((((w.pool fun q => { q with regions := SMap.drop q.regions tag }).set p (R.PPL_RFREE_FREE.i i) 0).set p (R.PPL_RSTAT_LARGEST.i i) 0).set p
        (R.PPL_RSTAT_WAITS.i i) 0).reply c .done)

end Sys2Proof.Machine
end

