-- ==== Sys2Proof/Machine/Links.lean ====
section
/-!
DEFINITION. Links.lean: what a GYL port and an issuing unit do with a message: flits kept for replay, routes, shares, board-global writes
(R340–R349).
-/
namespace Sys2Proof.Machine

def Work.gyl (f : Gymbiust → Gymbiust) (w : Work) : Work := w.d fun d => { d with gyl := f d.gyl }
def Work.port (w : Work) (n : Nat) : GylPort := SMap.at {} w.dev.gyl.ports n
def Work.modPort (n : Nat) (f : GylPort → GylPort) (w : Work) : Work := w.gyl fun g => { g with ports := SMap.mod {} g.ports n f }
/-- The page of port hub × 2 + instance. -/
def portPage (n : Nat) : Nat := gylPage (n / 2) (n % 2)
/-- LSTATE of a port: 0 DISABLED, 1 TRAINING, 2 UP, 3 RETRAIN, 4 FAILED, 5 SCAN (Table 19.2). -/
def Work.lstate (w : Work) (n : Nat) : Nat := w.get (portPage n) R.GYL_STS_LSTATE
def Work.setLstate (n v : Nat) (w : Work) : Work := w.set (portPage n) R.GYL_STS_LSTATE v

/-! ### Lanes (R337, R350) -/

/-- The `k` lowest-numbered lanes left out of a mask. -/
def dropLowest : Nat → Nat → Nat
  | 0, m => m
  | k + 1, m => dropLowest k (m &&& (m - 1))

/-- The lanes of a mask that a legal width keeps. -/
def legalLanes (m : Nat) : Nat := dropLowest (popcount 40 m % 4) m

/-- Lanes as a mask. -/
def laneMask (l : List Nat) : Nat := l.foldl (fun m i => m ||| 2 ^ i) 0

/-- The same where some lanes, `bad`, have failed and wait for a removal of their own: the lanes dropped are healthy ones, while there are any (R350, Table 19.7). -/
def keptLanes (m bad : Nat) : Nat :=
  let ill := m &&& bad
  if popcount 40 (m - ill) < popcount 40 m % 4 then legalLanes m else dropLowest (popcount 40 m % 4) (m - ill) + ill

/-- Lanes a port has: 40 or 8. -/
def portLanes (n : Nat) : Nat := if n % 2 = 0 then 40 else 8

def Work.lanes (w : Work) (n : Nat) : Nat :=
  w.get (portPage n) R.GYL_LANES_LO_INSVC_LO + 2 ^ 32 * w.get (portPage n) R.GYL_LANES_HI_INSVC_HI

/-- Lanes in service and WIDTH. -/
def Work.setLanes (n m : Nat) (w : Work) : Work :=
  let p := portPage n
  ((w.set p R.GYL_LANES_LO_INSVC_LO (m % 2 ^ 32)).set p R.GYL_LANES_HI_INSVC_HI (m / 2 ^ 32)).set p R.GYL_STS_WIDTH (popcount 40 m)

/-! ### Flits (R340, R341) -/

def Work.showReplay (n : Nat) (w : Work) : Work := w.set (portPage n) R.GYL_REPLAY_HELD (w.port n).replay.length

/-- A message sent in a flit of its own: kept until it is acknowledged. -/
def Work.sendFlit (n : Nat) (m : Msg) (w : Work) : Work :=
  let g := w.port n
  let f : Flit := { seq := g.next, ack := (g.expect + 65535) % 65536, nak := false, idle := false, crcOk := true, msgs := [m] }
  let w := w.modPort n fun g => { g with next := (g.next + 1) % 65536, replay := g.replay ++ [f] }
  ((w.send (.gyl n f)).count (portPage n) 0 1).showReplay n

/-- The flits held sent again in their order (R341). -/
def Work.replayAll (n : Nat) (w : Work) : Work :=
  (w.port n).replay.foldl (fun (w : Work) f => ((w.send (.gyl n f)).count (portPage n) 0 1).count (portPage n) 3 1) w

/-- A message that a port takes: sent where it is UP and has room for the flit, else it waits. -/
def Work.portSend (n : Nat) (m : Msg) (w : Work) : Work :=
  if w.lstate n = 2 ∧ (w.port n).wait.isEmpty ∧ (w.port n).replay.length < 16384 ∧ (w.port n).failed = 0 then w.sendFlit n m
  else w.modPort n fun g => { g with wait := g.wait ++ [m] }

/-! ### Accesses issued here (R342, R344, R346–R349) -/

/-- A link of the path is not up: the wait of an access is a stall of cause LINK_RETRAIN (R346). -/
def Work.linkStall (tag : Nat) (on : Bool) (w : Work) : Work :=
  match w.dev.gyl.pend.find? fun t => t.tag = tag with
  | some t =>
    match w.stallPage (dieOf t.page) t.ctx with
    | some p =>
      if on then w.beginStall p 3 6 0
      else match (w.stallsOf p).find? fun x => x.kind = 3 && w.stallLate p x with
        | some x => w.stallOut p t.ctx x
        | none => w.endStall p 3
    | none => w
  | none => w

/-- Messages of two channels in turn. -/
def inTurn : List Msg → List Msg → List Msg
  | m :: l, k => m :: match k with
    | [] => l
    | m' :: k => m' :: inTurn l k
  | [], k => k

/-- Messages that wait, in the order in which a port's arbiter takes them (R343): real-time, collective/control, then request and response in turn. What R343
and R347 say per 10 µs, the real-time limit and the shares, is timing (log entry 130). -/
def arbitrated (l : List Msg) : List Msg :=
  let on := fun (v : Nat) => l.filter fun m => m.vc == v
  on 3 ++ on 2 ++ inTurn (on 0) (on 1)

/-- A port whose messages wait: it is not UP, or it is removing a lane (R346, R350). -/
def Work.portWaits (w : Work) (n : Nat) : Bool := w.lstate n != 2 || (w.port n).failed != 0

/-- Messages of this package that wait at a port which has left service for a while are stalls from here on (R346). -/
def Work.stallPort (n : Nat) (w : Work) : Work :=
  ((w.port n).wait.filter fun m => m.srcPkg == w.ownPkg).foldl (fun (w : Work) m => w.linkStall m.tag true) w

/-- Messages that wait are sent as the port takes them. -/
def Work.flushPort (n : Nat) (w : Work) : Work :=
  let l := arbitrated (w.port n).wait
  l.foldl (fun (w : Work) m => Work.portSend n m (if m.srcPkg = w.ownPkg then w.linkStall m.tag false else w))
    (w.modPort n fun g => { g with wait := [] })

/-- The end of an access that nothing can answer (R346, R377): a contained fault of its context, logged on the issuing unit's page. -/
def Work.nacked (tag _st : Nat) (w : Work) : Work :=
  match w.dev.gyl.pend.find? fun t => t.tag = tag with
  | none => w
  | some t =>
    let w := w.gyl fun g => { g with pend := g.pend.erase t }
    w.ctxFault t.ctx t.page (if t.kind = 2 then 0xC4 else 0xA0) none

/-- The board, x and y of a package id. -/
def pkgBoard (p : Nat) : Nat := p / 256
def pkgX (p : Nat) : Nat := p / 16 % 16
def pkgY (p : Nat) : Nat := p % 16

/-- The mesh port towards a package of the own board, dimension order (R345). -/
def meshPort (own dst : Nat) : Nat :=
  2 * (if pkgX own < pkgX dst then 1 else if pkgX dst < pkgX own then 3 else if pkgY own < pkgY dst then 2 else 0)

/-- Where a message goes next. -/
inductive Hop where
  /-- It is at its destination. -/
  | here
  /-- A port, and LVL from there on. -/
  | port (n lvl : Nat)
  /-- It has come to a board that is not its destination (R345). -/
  | misrouted
  /-- The route table has no entry for its board (R348). -/
  | noRoute

/-- The next port of a message for package `dst` at a level (R345). -/
def Work.hop (w : Work) (dst lvl : Nat) : Hop :=
  let own := w.ownPkg
  if dst = own then .here
  else if pkgBoard dst = pkgBoard own then .port (meshPort own dst) lvl
  else if lvl = 1 then .misrouted
  else
    let b := pkgBoard dst
    let x := xltPage 0
    if w.get x (R.XLT_BRT_VALID.i b) = 0 then .noRoute
    else
      let exit := pkgBoard own * 256 + w.get x (R.XLT_BRT_EXITX.i b) * 16 + w.get x (R.XLT_BRT_EXITY.i b)
      if exit = own then .port (2 * w.get x (R.XLT_BRT_PORT.i b) + 1) 1 else .port (meshPort own exit) lvl

/-- A partition holds a share of a port (R347). -/
def Work.hasShare (w : Work) (part n : Nat) : Bool :=
  let k := if n % 2 = 0 then n / 2 else 4 + n / 2
  (List.range 64).any fun i => w.owner kLINK (64 * k + i) == some part

/-- Data cut where R342 cuts a message: at most 4096 bytes, no 4 KiB boundary crossed. -/
def cutMsg (a : Nat) : Nat → List Byte → List (Nat × List Byte)
  | 0, _ => []
  | f + 1, l =>
    if l.isEmpty then []
    else
      let k := 4096 - a % 4096
      (a, l.take k) :: cutMsg (a + k) f (l.drop k)

/-- Local addresses of another package that a unit of a context may write: tier 1 and the remote-scratch windows; a reserved range, tier 2, tier 3 and
register space are refused with BOUND where the access is issued (R41, R42, R45). -/
def writable (a n : Nat) : Bool := decide (a + n ≤ t1Size) || (decide (rsBase ≤ a) && decide (a + n ≤ regBase))

/-- A control message of a partition issued here, on the collective/control channel unless another is named: what it says, in words (R342, R343). It gets no
response. How its data lie in the message the manual does not say (log entry 23). -/
def Work.ctlMsg (part dst op : Nat) (words : List Nat) (w : Work) : Work :=
  let data := words.flatMap fun x => natLE 4 x
  w.gyl fun g => { g with issued := g.issued ++ [{ kind := 5, vc := 2, srcPkg := w.ownPkg, dstPkg := dst, part := part, tag := 0, addr := 0
                                                   len := data.length, lvl := 0, status := 0, op := op, data := data }] }

/-- A message issued here by a unit, with the access that waits for its response. -/
def Work.issueMsg (t : GylTxn) (m : Msg) (w : Work) : Work :=
  let tag := w.dev.gyl.nextTag
  w.gyl fun g => { g with nextTag := (tag + 1) % 65536, issued := g.issued ++ [{ m with tag := tag }], pend := g.pend ++ [{ t with tag := tag }] }

/-- The WR messages that carry data to local addresses of another package. -/
def Work.issueData (t : GylTxn) (part pkg addr : Nat) (data : List Byte) (poison : Bool) (w : Work) : Work :=
  (cutMsg addr (data.length / 4096 + 2) data).foldl (fun (w : Work) c =>
    w.issueMsg t { kind := 2, vc := 0, srcPkg := w.ownPkg, dstPkg := pkg, part := part, tag := 0, addr := c.1, len := c.2.length, lvl := 0
                   status := if poison then 0x1E else 0, op := 0, data := c.2 }) w

/-- Data written to local addresses of another package, given by its physical id, under a partition (R344, R347, R348): refused with BOUND where no
route or no share of the first port is there or the place is none that a context may write (R42, R45), else issued. `poison`: the data are tagged. -/
def Work.writeTo (t : GylTxn) (part pkg addr : Nat) (data : List Byte) (poison : Bool) (w : Work) : Status × Work :=
  match w.hop pkg 0 with
  | .port n _ =>
    if !w.hasShare part n || !writable addr data.length then (.bound, w) else (.done, w.issueData t part pkg addr data poison)
  | _ => (.bound, w)

/-- A write of a unit of a context to a board-global place (R44, R349). -/
def Work.remoteStore (page ctx pkg addr : Nat) (data : List Byte) (poison : Bool) (w : Work) : Status × Work :=
  let part := (w.ctx ctx).part
  match w.physPkg part pkg with
  | (some q, w) => w.writeTo { tag := 0, page := page, ctx := ctx, kind := 0, dst := 0 } part q addr data poison
  | (none, w) => (.bound, w)

/-- Writes of a page's unit that have not been accepted (R241, R344). -/
def Work.unaccepted (w : Work) (page : Nat) : Bool := w.dev.gyl.pend.any fun t => t.page == page

/-- A line written to a MIRROR page, or to a staging page of a mirrored region, sent to the cache package as it is written (R377). -/
def Work.mirrorLines (page ctx a : Nat) (data : List Byte) (bad : Bool) (w : Work) : Work :=
  let part := (w.ctx ctx).part
  match (List.range 16).find? fun t => w.regValid t && w.regMirror t && w.regPart t == part && decide (w.regLow t ≤ a) && decide (a < w.regEnd t) with
  | some t =>
    let (st, w) := w.writeTo { tag := 0, page := page, ctx := ctx, kind := 2, dst := 0 } part (w.get (regPage t) (R.PPL_MIRROR_MPKG.i (t % 4))) a data bad
    if st = .done then w else w.ctxFault ctx page 0xC4 none
  | none => w

/-- A write of tier 1 by a unit of a context: it waits while the scrubber or a zeroing holds the place (R157, R320), and is mirrored where its place is
(R377). `bad`: the data are tagged. -/
def Work.unitStore (page ctx a : Nat) (data : List Byte) (bad : Bool) (w : Work) : Work :=
  let w := (if w.gate && w.held a data.length then w.mustWait 9 [] [] else w).store a data
  (if bad then w.tagRange a data.length true else w).mirrorLines page ctx a data bad

end Sys2Proof.Machine
end

