-- ==== Sys2Proof/Machine/Serving.lean ====
section
/-!
DEFINITION. Serving.lean: the host window, doorbells, submissions, batch formation, budgets and migration (R274–R286, R291–R293).
-/
namespace Sys2Proof.Machine

/-! ### Entries (R274, Table 16.1) -/

/-- The RQT and TRG pages of a request's hub. -/
def rqHub (i : Nat) : Nat := rqtPage (i / 2048)
def trgHub (i : Nat) : Nat := trgPage (i / 2048)

/-- An entry's bytes 8–63 as fields; `f off n` reads n bytes. -/
def reqOf (f : Nat → Nat → Nat) : Req :=
  { limit := f 8 4 % 2 ^ 25, prompt := f 12 4 % 2 ^ 25, ptaddr := f 16 8 % 2 ^ 48, deadline := f 24 8
    model := bits (f 32 4) 11 0, draft := bits (f 32 4) 23 12, spec := bits (f 32 4) 25 24, accmode := bits (f 32 4) 26 26
    adapter := bits (f 36 4) 8 0, aden := bit (f 36 4) 9, ring := bits (f 36 4) 22 10, nnode := bits (f 36 4) 29 23
    pending := bits (f 40 4) 23 0, pvalid := bit (f 40 4) 24, stopid := bits (f 44 4) 23 0, stopen := bit (f 44 4) 24
    seed := f 48 8, rinv := f 56 4, topk := bits (f 60 4) 6 0, topp := bits (f 60 4) 23 8, prior := bits (f 60 4) 27 24 }

/-- Reserved bits of an entry's bytes 8–63 are zero. -/
def entryClean (f : Nat → Nat → Nat) : Bool :=
  bits (f 8 4) 31 25 == 0 && bits (f 12 4) 31 25 == 0 && bits (f 16 8) 63 48 == 0 && bits (f 32 4) 31 27 == 0 && bits (f 36 4) 31 30 == 0 &&
    bits (f 40 4) 31 25 == 0 && bits (f 44 4) 31 25 == 0 && bits (f 60 4) 7 7 == 0 && bits (f 60 4) 31 28 == 0

/-- The 64 bytes of an entry. -/
def Req.bytes (r : Req) : List Byte :=
  let b := fun (x : Bool) => if x then 1 else 0
  natLE 4 (r.state + r.pclass * 2 ^ 4 + r.part * 2 ^ 6 + r.tenant * 2 ^ 12 + r.ctx * 2 ^ 24) ++ natLE 4 r.clen ++ natLE 4 r.limit ++ natLE 4 r.prompt ++
    natLE 8 r.ptaddr ++ natLE 8 r.deadline ++ natLE 4 (r.model + r.draft * 2 ^ 12 + r.spec * 2 ^ 24 + r.accmode * 2 ^ 26) ++
    natLE 4 (r.adapter + b r.aden * 2 ^ 9 + r.ring * 2 ^ 10 + r.nnode * 2 ^ 23) ++ natLE 4 (r.pending + b r.pvalid * 2 ^ 24) ++
    natLE 4 (r.stopid + b r.stopen * 2 ^ 24) ++ natLE 8 r.seed ++ natLE 4 r.rinv ++ natLE 4 (r.topk + r.topp * 2 ^ 8 + r.prior * 2 ^ 24)

/-- NUSED of a request's hub (R284). -/
def Work.showUsed (rq : Nat) (w : Work) : Work :=
  w.set (rqHub rq) R.RQT_STS_NUSED (w.dev.serve.reqs.filter fun e => e.1 / 2048 == rq / 2048 && e.2.state != 0).length

/-- The mirror record of a request sent to the cache package of its partition (R377, Table 21.4): `entry` as it is published, the token slots. -/
def Work.mirrorRecord (page c rq : Nat) (r : Req) (slots : List (List Word)) (w : Work) : Work :=
  if w.get (rqtPage 0) (R.RQT_MIRTGT_MEN.i r.part) = 0 then w
  else
    let h := rqtPage (rq / 2048)
    let base := w.get h R.RQT_MIRBASE_LO_MB_LO * 2048 + 2 ^ 32 * w.get h R.RQT_MIRBASE_HI_MB_HI
    let words := (slots.map fun l => (l.map fun v => natLE 4 v.toNat).flatten).flatten
    let rec_ := r.bytes ++ [BitVec.ofNat 8 slots.length] ++ List.replicate 63 0 ++ words
    let (st, w) := w.writeTo { tag := 0, page := page, ctx := c, kind := 2, dst := 0 } r.part (w.get (rqtPage 0) (R.RQT_MIRTGT_MPKG.i r.part))
      (base + rq % 2048 * 2048) rec_ false
    if st = .done then w else w.ctxFault c page 0xC4 none

/-- A request moves to a state. -/
def Work.reqState (rq st : Nat) (w : Work) : Work := (w.modReq rq fun r => { r with state := st }).showUsed rq

/-- The partition holds a request index through its request block, or a ring through its ring block (R274, R316). -/
def Work.ownsReq (w : Work) (p i : Nat) : Bool := w.owner kRQB (i / 64) == some p
def Work.ownsRing (w : Work) (p i : Nat) : Bool := w.owner kRING (i / 64) == some p
def Work.tokRing (w : Work) (i : Nat) : TokRing := SMap.at {} w.dev.serve.rings i
def Work.modRingTok (i : Nat) (f : TokRing → TokRing) (w : Work) : Work := w.serve fun x => { x with rings := SMap.mod {} x.rings i f }

/-- A step of the request's context includes it: its batch is formed and not committed (R276). -/
def Work.included (w : Work) (rq : Nat) : Bool :=
  let b := w.batch (w.req rq).ctx
  b.formed && b.ents.any fun e => e.1 == rq

/-- The role of the package for a partition: 0 prefill, 1 decode, 2 cache (R313). -/
def Work.role (w : Work) (p : Nat) : Nat := SMap.at 1 w.dev.bnd.role p

/-! ### The host window (R277, R278, R281) -/

/-- HD0's RQT page, which holds the doorbell blocks (R283). -/
def dbPage : Nat := rqtPage 0
def Work.winOn (w : Work) (p : Nat) : Bool := w.get dbPage (R.DB_WINCFG_ENABLE.i p) == 1
def Work.winBase (w : Work) (p : Nat) : Nat := w.get dbPage (R.DB_WINLO_BASE_LO.i p) * 4096 + 2 ^ 32 * w.get dbPage (R.DB_WINHI_BASE_HI.i p)
def Work.subSize (w : Work) (p : Nat) : Nat := 2 ^ w.get dbPage (R.DB_WINCFG_SUBLOG.i p)
def Work.evSize (w : Work) (p : Nat) : Nat := 2 ^ w.get dbPage (R.DB_WINCFG_EVLOG.i p)
def Work.hwin (w : Work) (p : Nat) : WinRings := SMap.at {} w.dev.serve.wins p
def Work.modHwin (p : Nat) (f : WinRings → WinRings) (w : Work) : Work := w.serve fun x => { x with wins := SMap.mod {} x.wins p f }

/-- Bytes written to the window of a partition, with the requester ID of its virtual function (R277); they are lost while the link is down (R398). What the byte
and error counters of the PCI page count is the model's reading (R406, log entry 127). -/
def Work.post (p a : Nat) (data : List Byte) (w : Work) : Work :=
  if w.dev.host.link then ((w.wrs (hostA a) data).send (.hostWrite (p + 1) a data)).count pciPage 5 data.length else w

/-- Bytes of the window of a partition read, with the requester ID of its virtual function (R277); what comes back is what host memory holds. -/
def Work.askWindow (p a n : Nat) (w : Work) : Work :=
  let t := w.dev.tiers.nextTag
  ((w.tiers fun x => { x with nextTag := t + 1 }).send (.hostRead (p + 1) t a n)).count pciPage 4 n

/-- The slot at an address of a window is the device's: OWN = 1, bit 31 of its word 0 (R278). -/
def Work.slotOurs (w : Work) (a : Nat) : Bool := bit (w.le (hostA a) 4) 31

/-- Words as little-endian bytes. -/
def wordBytes (l : List Word) : List Byte := (l.map fun v => natLE 4 v.toNat).flatten

/-- Event slots that the device may write, reserved ones included. -/
def Work.evRoom (w : Work) (p : Nat) : Nat :=
  if w.winOn p then
    let n := (w.get dbPage (R.DB_EVHEAD_HEAD.i p) + 65536 - (w.hwin p).ev) % 65536
    if n ≤ w.evSize p then n else 0
  else 0
/-- Event slots that are not reserved. -/
def Work.evFree (w : Work) (p : Nat) : Nat := w.evRoom p - (w.hwin p).resv
def Work.showWin (p : Nat) (w : Work) : Work := w.set dbPage (R.DB_STS_EVFREE.i p) (w.evFree p)

/-- The address of the next event slot. -/
def Work.evSlot (w : Work) (p : Nat) : Nat := w.winBase p + w.subSize p * 128 + (w.hwin p).ev % w.evSize p * 32

/-- The next event slot may be written: the head has made room for it, and the host has given it (R278). -/
def Work.evOpen (w : Work) (p : Nat) : Bool := decide (0 < w.evRoom p) && w.slotOurs (w.evSlot p)

/-- An event written into the next slot: words 1 to 7, then word 0 with OWN = 0 (R278). Where the device may not write that slot the event is owed. -/
def Work.writeEvent (p : Nat) (words : List Word) (w : Work) : Work :=
  if w.evOpen p then
    let a := w.evSlot p
    let bytes := wordBytes words
    (((w.post p (a + 4) (bytes.drop 4)).post p a (bytes.take 4)).modHwin p fun x => { x with ev := (x.ev + 1) % 65536 }).showWin p
  else w.modHwin p fun x => { x with owed := x.owed ++ [words] }

/-- A slot that nothing has reserved is free for the next event, and none is owed. -/
def Work.evReady (w : Work) (p : Nat) : Bool := (w.hwin p).owed.isEmpty && decide (0 < w.evFree p) && w.evOpen p

/-- An event for which nothing was reserved: written where a slot is free, else owed. -/
def Work.putEvent (p : Nat) (words : List Word) (w : Work) : Work :=
  if !w.winOn p then w
  else if w.evReady p then w.writeEvent p words
  else w.modHwin p fun x => { x with owed := x.owed ++ [words] }

/-- Events owed written as far as slots are free. -/
def Work.drainOwed (p : Nat) : Nat → Work → Work
  | 0, w => w
  | n + 1, w =>
    match (w.hwin p).owed with
    | [] => w
    | e :: l => if decide (0 < w.evFree p) && w.evOpen p then Work.drainOwed p n ((w.modHwin p fun x => { x with owed := l }).writeEvent p e) else w

/-- An event-ring slot (Table 16.5). -/
def eventWords (code rq status state usertag clen stamp : Nat) : List Word :=
  [BitVec.ofNat 32 (code + rq * 256), BitVec.ofNat 32 (status + state * 256), BitVec.ofNat 32 usertag, BitVec.ofNat 32 (usertag / 2 ^ 32),
    BitVec.ofNat 32 clen, BitVec.ofNat 32 stamp, BitVec.ofNat 32 (stamp / 2 ^ 32), 0]

/-- An event of a request as it stands. -/
def Work.reqEvent (rq code status : Nat) (w : Work) : Work :=
  let r := w.req rq
  w.putEvent r.part (eventWords code rq status r.state r.usertag r.clen w.now)

/-- The address of the next submission slot. -/
def Work.subSlot (w : Work) (p : Nat) : Nat := hostA (w.winBase p + (w.hwin p).sub % w.subSize p * 128)

/-- Some slot waits below the tail and reading has not stopped. -/
def Work.subWaits (w : Work) (p : Nat) : Bool :=
  w.winOn p && w.dev.host.link && (w.hwin p).sub != w.get dbPage (R.DB_SUBTAIL_TAIL.i p) && w.get dbPage (R.DB_STS_SUBSTALL.i p) == 0

/-- The next slot looked at: reading stops for want of an event slot, or at a slot the host owns (R278, R281). -/
def Work.subLook (p : Nat) (w : Work) : Work :=
  let w := if w.evReady p then w.set dbPage (R.DB_STS_EVSTALL.i p) 0 else w
  if !w.subWaits p then w
  else if !w.evReady p then
    if w.get dbPage (R.DB_STS_EVSTALL.i p) = 1 then w else (w.set dbPage (R.DB_STS_EVSTALL.i p) 1).raise dbPage 16
  else if bit (w.le (w.subSlot p) 4) 31 then w
  else (w.set dbPage (R.DB_STS_SUBSTALL.i p) 1).raise dbPage 16

/-- A doorbell write of partition p's block: by a function whose BAR2 maps it, or by the physical function or the management core in register space (R46, R283). -/
def Work.doorbell (by_ : Caller) (p word : Nat) (v : Word) (f : Work → Work) (w : Work) : Work :=
  let mapped := match by_ with
    | .vf n => decide (n = p + 1) && decide (n ≤ w.get pciPage R.PCI_NUMVF_NUMVF)
    | .seq _ _ => false
    | _ => true
  if !mapped || decide (64 ≤ p) || !w.ready || w.fatal || !w.live dbPage then w
  else if (w.page dbPage).state = .off ∨ (w.page dbPage).state = .fenced then w.dropWrite dbPage word v
  else f w

/-- A written count is taken up to `size` beyond the device's count (R278). -/
def clampCount (v dev size modulus : Nat) : Nat :=
  if (v + modulus - dev) % modulus ≤ size then v else (dev + size) % modulus

/-- DB_SUBTAIL. R278. -/
def execDbSubtail (by_ : Caller) (part : Nat) (v : Word) (s : State) : Host.Outcome State Fault Refusal :=
  .next (s.run fun w => w.doorbell by_ part (0x200 + 8 * part) v fun w =>
    let t := v.toNat % 65536
    let t := if w.winOn part then clampCount t (w.hwin part).sub (w.subSize part) 65536 else t
    ((w.set dbPage (R.DB_SUBTAIL_TAIL.i part) t).set dbPage (R.DB_STS_SUBSTALL.i part) 0).subLook part)

/-- DB_EVHEAD. R278, R281. -/
def execDbEvhead (by_ : Caller) (part : Nat) (v : Word) (s : State) : Host.Outcome State Fault Refusal :=
  .next (s.run fun w => w.doorbell by_ part (0x201 + 8 * part) v fun w =>
    let t := v.toNat % 65536
    let t := if w.winOn part then clampCount t (w.hwin part).ev (w.evSize part) 65536 else t
    let w := w.set dbPage (R.DB_EVHEAD_HEAD.i part) t
    let w := w.drainOwed part (w.hwin part).owed.length
    (w.showWin part).subLook part)

/-- DB_TOKHEAD. R278: for a ring of the partition that RING_SET has set. -/
def execDbTokhead (by_ : Caller) (part : Nat) (v : Word) (s : State) : Host.Outcome State Fault Refusal :=
  .next (s.run fun w => w.doorbell by_ part (0x202 + 8 * part) v fun w =>
    let ring := bits v.toNat 12 0
    let r := w.tokRing ring
    if w.ownsRing part ring && r.isSet then
      w.modRingTok ring fun r => { r with head := clampCount (bits v.toNat 28 16) r.next (2 ^ r.lg) 8192 }
    else w)

/-- DB_WINCFG. R283: SUBLOG and EVLOG are written only while ENABLE reads 0, and every write of them at another time is dropped and reported (R6); ENABLE starts the device's counts afresh. Sizes out of range are
stored as the nearest limit (DESIGN CHOICE, log entry 42). -/
def execDbWincfg (by_ : Caller) (part : Nat) (v : Word) (s : State) : Host.Outcome State Fault Refusal :=
  .next (s.run fun w => w.doorbell by_ part (0x205 + 8 * part) v fun w =>
    let x := v.toNat
    let sub := clampNat 4 12 (bits x 3 0)
    let ev := clampNat 4 14 (bits x 7 4)
    let on := w.winOn part
    let w := if on then w.dropWrite dbPage (0x205 + 8 * part) v
      else (w.set dbPage (R.DB_WINCFG_SUBLOG.i part) sub).set dbPage (R.DB_WINCFG_EVLOG.i part) ev
    let w := w.set dbPage (R.DB_WINCFG_ENABLE.i part) (bits x 8 8)
    let w := if !on && bit x 8 then
        ((w.modHwin part fun _ => {}).set dbPage (R.DB_STS_SUBSTALL.i part) 0).set dbPage (R.DB_STS_EVSTALL.i part) 0
      else w
    (w.showWin part).subLook part)

/-! ### Submissions (R276, R279–R281) -/

/-- The next submission slot processed, where its operation is `op`: `f` answers its status, the codes of further events and the work. -/
def Work.submission (p op : Nat) (f : Nat → Nat → Work → Status × List Nat × Work) (w : Work) : Work :=
  if !w.subWaits p || !w.evReady p then w
  else
    let a := w.subSlot p
    let w0 := w.le a 4
    let known := decide (1 ≤ w0 % 256) && decide (w0 % 256 ≤ 6)
    if !bit w0 31 || !(w0 % 256 == op || (op == 1 && !known)) then w
    else
      let rq := bits w0 20 8
      let w := w.askWindow p (a - 2 ^ 64) 128
      let w := if w0 % 256 = 1 then w.count dbPage 0 1 else w
      let (st, more, w) := if known then f a rq w else (.unknown, [], w)
      let w := if st = .done then (if op = 1 then w.count dbPage 1 1 else w) else w.count dbPage 2 1
      let w := (w.post p (a + 3 - 2 ^ 64) [BitVec.ofNat 8 (w0 / 2 ^ 24 % 128)]).modHwin p fun x => { x with sub := (x.sub + 1) % 65536 }
      let r := w.req rq
      let tag := if op = 1 then w.le (a + 88) 8 else r.usertag
      let w := w.writeEvent p (eventWords (if st = .done then 1 else 2) rq st.code r.state tag r.clen w.now)
      (more.foldl (fun (w : Work) code => w.reqEvent rq code 0) w).subLook p

/-- Bytes lo to hi − 1 of a slot are zero. -/
def Work.slotZero (w : Work) (a lo hi : Nat) : Bool := w.le (a + lo) (hi - lo) == 0

/-- A model that a request of a partition may name (R311). -/
def Work.mdlUsable (w : Work) (p m : Nat) : Bool :=
  let e := SMap.at {} w.dev.mdl.models m
  e.part == p && (e.state == 2 || e.state == 3)

/-- The checks of R311, of MODEL and DRAFT alike. -/
def Work.resident (w : Work) (p tenant : Nat) (r : Req) : Bool :=
  w.mdlUsable p r.model && w.mdlUsable p r.draft &&
    (!r.aden || match SMap.at none w.dev.mdl.slots r.adapter with
      | none => false
      | some a => a.model == r.model && (a.tenant == 0 || a.tenant == tenant))

/-- Committed tokens of a rank for a committed length (R220). -/
def sliceLen (p sw rank clen : Nat) : Nat :=
  let f := clen / (p * sw)
  f * sw + min sw (clen - f * p * sw - rank * sw)

/-- The context anchors a Ringlet group whose slices the request would take beyond 2^22 tokens (R216; DEDUCED: at its LIMIT, log entry 73). -/
def Work.sliceTooLong (w : Work) (c limit : Nat) : Bool :=
  w.dev.rlt.groups.any fun e => (w.page e.1).ctx == some c && w.get e.1 R.SEQ_RLTSTS_RSTATE != 0 &&
    decide (sliceLen e.2.p (2 ^ e.2.swlog) 0 limit > 2 ^ 22)

/-- SUBMIT's checks and effect (R280). -/
def Work.submit (p a rq : Nat) (w : Work) : Status × List Nat × Work :=
  let f := fun off n => w.le (a + off) n
  let r := reqOf f
  let own := bit (f 96 1) 0
  let cls := if own then bits (f 100 4) 5 4 else w.get dbPage (R.DB_DEFAULT_PCLASS.i p)
  let ten := if own then bits (f 100 4) 23 12 else w.get dbPage (R.DB_DEFAULT_TENANT.i p)
  let c := if own then bits (f 100 4) 31 24 else w.get dbPage (R.DB_DEFAULT_CONTEXT.i p)
  let shlen := f 4 4
  let src := f 64 2
  let off := f 72 8
  let area := f 80 8
  let resv := !entryClean f || f 40 4 % 2 ^ 25 != 0 || bits (f 60 4) 27 24 != 0 || bits (f 0 4) 30 21 != 0 || bits (f 96 1) 7 1 != 0 ||
    !w.slotZero a 66 72 || !w.slotZero a 97 100 || !w.slotZero a 104 128 || (if own then bits (f 100 4) 3 0 != 0 || bits (f 100 4) 11 6 != 0 else f 100 4 != 0)
  let srcLen := if (w.req src).state = 0 then 0 else (w.req src).clen
  let checks : List (Bool × Status) := [
    (!w.ownsReq p rq || decide (8192 ≤ src) || !w.ownsReq p src || !(w.ownsRing p r.ring && (w.tokRing r.ring).isSet) ||
      (w.ctx c).state == .none || (w.ctx c).part != p || off % 64 != 0 || decide (off + 4 * r.prompt > gib) || !w.inT1 p area (4 * r.prompt) ||
      !w.resident p ten r, .bound),
    ((w.req rq).state != 0 || (w.req rq).held || w.role p == 2, .state),
    (resv || cls == 3 || r.spec == 3 || !(decide (2 ≤ r.nnode) && decide (r.nnode ≤ if r.spec = 1 then 8 else 64)) ||
      decide (64 < r.topk), .unknown),
    (r.prompt == 0 || decide (r.limit ≤ r.prompt) || decide (r.limit > 2 ^ 24) || decide (shlen > r.prompt) || decide (shlen > srcLen), .shape),
    (w.sliceTooLong c r.limit, .admission)]
  match firstFail checks with
  | some st => (st, [], w)
  | none =>
    match w.admitTable rq p c r.ptaddr src shlen (r.prompt + min (w.le (r.ptaddr + 16) 4 % 2 ^ 25) (r.limit - r.prompt)) with
    | none => (.admission, [], w.count (tabPage rq) 2 1)
    | some w =>
      let w := (w.askWindow p (w.winBase p + off) (4 * r.prompt)).store area (w.rdN (hostA (w.winBase p + off)) (4 * r.prompt))
      (.done, [], (w.modReq rq fun _ => { r with
        state := 1, pclass := cls, part := p, tenant := ten, ctx := c, pending := 0, pvalid := false, prior := 0, usertag := f 88 8 }).showUsed rq)

/-- The common part of CANCEL, PAUSE, RESUME and RELEASE: BOUND, the reserved bytes, a legal transition (R280). -/
def Work.transition (p a rq : Nat) (from_ : List Nat) (f : Work → List Nat × Work) (w : Work) : Status × List Nat × Work :=
  match firstFail [(!w.ownsReq p rq, .bound), (bits (w.le a 4) 30 21 != 0 || !w.slotZero a 4 128, .unknown),
      (!from_.contains (w.req rq).state, .state)] with
  | some st => (st, [], w)
  | none => let (ev, w) := f w; (.done, ev, w)

/-- A request becomes ABORTED or PAUSED outside any step (R276). -/
def Work.stopNow (rq st : Nat) (w : Work) : Work :=
  let w := if st = 5 then w.modReq rq fun r => { r with prior := r.state } else w
  let w := (w.modReq rq fun r => { r with cancelling := false, pausing := false }).reqState rq st
  if st = 7 then w.mirrorRecord (rqHub rq) (w.req rq).ctx rq (w.req rq) [] else w

/-- The request's pages are released: DROPALL, its generation published at once since no step commits it (R279, R183; DEDUCED, log
entry 44). It waits while the generation before is still read. A generation past 0xFFFF_FFFF faults the context (R7, R182). -/
def Work.dropNow (rq : Nat) (w : Work) : Work :=
  let t := w.tab rq
  if t.oldOpen then w.retireWait rq
  else if t.gen + 1 = 2 ^ 32 then w.ctxFault t.ctx (rqHub rq) 0x18 none
  else match w.poolDropall rq (t.gen + 1) with
    | (.done, w) => w.publishTab rq
    | (_, w) => w

/-- The entry with its USERTAG, and the table header with each plane's TSHIFT, as the source answers a hold. -/
def Work.migEntry (w : Work) (rq : Nat) : List Byte := (w.req rq).bytes ++ natLE 8 (w.req rq).usertag
def Work.migHeader (w : Work) (rq : Nat) : List Byte :=
  let t := w.tab rq
  w.rdN t.addr 128 ++ (w.tTags t).map fun g => BitVec.ofNat 8 (w.tshift g)

/-- The source's entry moves to MIGRATING; a walker of its published generation registers, and the answer goes out. -/
def Work.startMigrate (rq pkg : Nat) (w : Work) : Work :=
  let ans := OutMsg.migrateReply pkg true (w.migEntry rq) (w.migHeader rq)
  let w := w.modReq rq fun r => { r with before := r.state, toPkg := pkg + 1 }
  ((w.reqState rq 8).walkerIn rq).send ans

/-- A hold that waited is answered: the entry moves to MIGRATING, or, from a state without that transition, the answer is no (R276, R293). -/
def Work.answerHold (rq : Nat) (w : Work) : Work :=
  let r := w.req rq
  if r.toPkg = 0 then w
  else
    let w := w.modReq rq fun r => { r with toPkg := 0 }
    if r.state = 3 ∨ r.state = 4 then w.startMigrate rq (r.toPkg - 1) else w.send (.migrateReply (r.toPkg - 1) false (w.migEntry rq) [])

/-- An entry becomes FREE and RELEASED is written (R276). -/
def Work.freeReq (rq : Nat) (w : Work) : Work :=
  let r := w.req rq
  let w := w.mirrorRecord (rqHub rq) r.ctx rq { part := r.part } []
  let w := (w.modReq rq fun _ => {}).showUsed rq
  w.putEvent r.part (eventWords 6 rq 0 0 r.usertag r.clen w.now)

/-- RELEASE, or the end of a migration, begins. -/
def Work.beginRelease (rq : Nat) (w : Work) : Work :=
  let w := w.modReq rq fun r => { r with releasing := true }
  if (w.tab rq).reg then w.dropNow rq else w.freeReq rq

/-- SUBMIT. R280. -/
def execSubmit (part : Nat) (s : State) : Host.Outcome State Fault Refusal := .next (s.run fun w => w.submission part 1 (Work.submit part))

/-- CANCEL. R276: at the commit of a step that includes the request, else at once. -/
def execCancel (part : Nat) (s : State) : Host.Outcome State Fault Refusal :=
  .next (s.run fun w => w.submission part 2 fun a rq w => w.transition part a rq [1, 2, 3, 4, 5] fun w =>
    if w.included rq then ([], w.modReq rq fun r => { r with cancelling := true }) else ([4], w.stopNow rq 7))

/-- PAUSE. R276. -/
def execPause (part : Nat) (s : State) : Host.Outcome State Fault Refusal :=
  .next (s.run fun w => w.submission part 3 fun a rq w => w.transition part a rq [1, 2, 3, 4] fun w =>
    if w.included rq then ([], w.modReq rq fun r => { r with pausing := true }) else ([5], w.stopNow rq 5))

/-- RESUME. R276. -/
def execResume (part : Nat) (s : State) : Host.Outcome State Fault Refusal :=
  .next (s.run fun w => w.submission part 4 fun a rq w => w.transition part a rq [5] fun w => ([], w.reqState rq (w.req rq).prior))

/-- RELEASE. R276, R279. -/
def execRelease (part : Nat) (s : State) : Host.Outcome State Fault Refusal :=
  .next (s.run fun w => w.submission part 5 fun a rq w => w.transition part a rq [6, 7] fun w =>
    if (w.req rq).releasing then ([], w) else ([], w.beginRelease rq))

/-- RING_SET. R279. -/
def execRingSet (part : Nat) (s : State) : Host.Outcome State Fault Refusal :=
  .next (s.run fun w => w.submission part 6 fun a _ w =>
    let id := w.le (a + 4) 2
    let off := w.le (a + 8) 8
    let lg := w.le (a + 16) 1
    let ring := id % 2 ^ 13
    match firstFail [
        (!w.ownsRing part ring || off % 64 != 0 || decide (off + 16 * 2 ^ min lg 40 > gib), .bound),
        (bits (w.le a 4) 30 21 != 0 || decide (id ≥ 2 ^ 13) || !w.slotZero a 6 8 || !w.slotZero a 17 128 || decide (lg < 4) || decide (12 < lg), .unknown),
        (w.dev.serve.reqs.any fun e => e.2.state != 0 && e.2.ring == ring, .busy)] with
    | some st => (st, [], w)
    | none => (.done, [], w.modRingTok ring fun _ => { isSet := true, off := off, lg := lg, head := 0, next := 0 }))

/-- GENERATION_RETIRE. R183; a release that waited goes on, and a request whose table is gone becomes FREE. -/
def execGenerationRetire (rq : Nat) (s : State) : Host.Outcome State Fault Refusal :=
  .next (s.run fun w =>
    if (w.tab rq).canRetire then
      let w := w.retireTab rq
      if (w.req rq).releasing then
        if (w.tab rq).reg then w.dropNow rq else w.freeReq rq
      else w
    else w)

/-- The common checks of RQT_DUMP. -/
def rqtDumpSpec : CmdSpec :=
  { types := [0x14], code := 0x72, who := .priv, resv := fun c => c.arg 0 < 2 ^ 13 && c.arg 1 < 2 ^ 14 && c.arg 3 < 2 ^ 16 }

/-- RQT_DUMP. R284. -/
def execRqtDump (q : Issue) (s : State) : Host.Outcome State Fault Refusal :=
  .next (s.run fun w => w.command q rqtDumpSpec fun c w =>
    let i := c.arg 0
    let n := c.arg 1
    let a := c.arg64 2
    w.checked c [(decide (i + n > 8192) || !w.t1Populated a (64 * n), .bound)] fun w =>
      ((List.range n).foldl (fun (w : Work) k => w.store (a + 64 * k) (w.req (i + k)).bytes) w).reply c .done)

/-! ### Tenant budgets (R292) -/

def Work.bucket (w : Work) (t : Nat) : Bucket := SMap.at {} w.dev.serve.buckets t
def Work.setBucket (t : Nat) (b : Bucket) (w : Work) : Work := w.serve fun x => { x with buckets := SMap.put {} x.buckets t b }

/-- A refill up to a stamp. -/
def Bucket.refill (b : Bucket) (now : Nat) : Bucket :=
  let n := 256 * b.rate * (now - b.last) + b.rem
  { b with level := min (256 * b.burst : Nat) (b.level + (n / 10 ^ 9 : Nat)), rem := n % 10 ^ 9, last := now }

/-- A tenant's bucket refilled; an unset one is left as it is. -/
def Work.refill (t : Nat) (w : Work) : Work := if w.bucket t = {} then w else w.setBucket t ((w.bucket t).refill w.now)

/-- A commit charges a tenant (R292). -/
def Work.charge (t ntok nprompt : Nat) (w : Work) : Work :=
  if w.bucket t = {} then w
  else
    let w := w.refill t
    let b := w.bucket t
    w.setBucket t { b with level := b.level - (256 * ntok + b.pweight * nprompt : Nat) }

/-- The common checks of the tenant commands; they are commands of HD0's page alone. -/
def tenSpec (code : Nat) (resv : Call → Bool) : CmdSpec := { types := [0x14], code := code, who := .priv, resv := fun c => c.page == dbPage && resv c }

/-- TEN_SET. R292. -/
def execTenSet (q : Issue) (s : State) : Host.Outcome State Fault Refusal :=
  .next (s.run fun w => w.command q (tenSpec 0x70 fun c => c.arg 0 < 2 ^ 12 && c.arg 1 < 2 ^ 24 && c.arg 2 < 2 ^ 24 && c.arg 3 < 2 ^ 17) fun c w =>
    (w.setBucket (c.arg 0) { level := (256 * c.arg 2 : Nat), rate := c.arg 1, burst := c.arg 2, pweight := c.arg 3 % 65536, limited := bit (c.arg 3) 16
                             rem := 0, last := w.now }).reply c .done)

/-- TEN_GET. R292: LEVEL after a refill (the manual lists a refill within TEN_GET). -/
def execTenGet (q : Issue) (s : State) : Host.Outcome State Fault Refusal :=
  .next (s.run fun w => w.command q (tenSpec 0x71 fun c => c.arg 0 < 2 ^ 12) fun c w =>
    let w := w.refill (c.arg 0)
    let l := ofSigned 64 (w.bucket (c.arg 0)).level
    ((w.setArg c.page 1 (l % 2 ^ 32)).setArg c.page 2 (l / 2 ^ 32)).reply c .done)

/-! ### Batch formation (R286, R313) -/

/-- Order of formation: class, then deadline (0 last) or the stamp of the last inclusion, then index. -/
def formKey (e : Nat × Req) : Nat × Nat × Nat :=
  (e.2.pclass, (if e.2.pclass = 1 then (if e.2.deadline = 0 then 2 ^ 64 else e.2.deadline) else e.2.lastIncl), e.1)
def keyLt (a b : Nat × Nat × Nat) : Bool :=
  decide (a.1 < b.1) || (a.1 == b.1 && (decide (a.2.1 < b.2.1) || (a.2.1 == b.2.1 && decide (a.2.2 < b.2.2))))
def insByKey (e : Nat × Req) : List (Nat × Req) → List (Nat × Req)
  | [] => [e]
  | x :: l => if keyLt (formKey e) (formKey x) then e :: x :: l else x :: insByKey e l

/-- Tokens for which a request's inclusion needs room (R286). -/
def Req.tokens (r : Req) : Nat := if r.state = 4 then r.nnode else 1
/-- Event slots that its commit may need: a second one where DL_MISS may join (DEDUCED, log entry 45). -/
def Req.events (r : Req) : Nat := if r.deadline ≠ 0 ∧ !r.missed then 2 else 1

/-- Token slots of a ring that are given and not spoken for by formed batches or waiting publications. -/
def Work.tokRoom (w : Work) (ring : Nat) : Nat :=
  let r := w.tokRing ring
  let n := (r.head + 8192 - r.next) % 8192
  let formed := (w.dev.serve.batches.map fun b => (b.2.ents.map fun e => if (w.req e.1).ring = ring then (w.req e.1).tokens else 0).foldl (· + ·) 0).foldl (· + ·) 0
  let waiting := (w.dev.serve.publish.map fun x => match x.2 with
    | none => 0
    | some y => (y.reqs.map fun q => if (w.req q.rq).ring = ring then q.slots.length else 0).foldl (· + ·) 0).foldl (· + ·) 0
  if r.isSet ∧ n ≤ 2 ^ r.lg then n - formed - waiting else 0

/-- The generation whose PAGED bounds the staging slots in use, and that PAGED (R187). -/
def Work.pagedMin (w : Work) (t : Tab) : Nat := w.tPaged t (if t.oldOpen then (t.gen + 1) % 2 else t.gen % 2)

/-- A request is in cache wait: its staging is full of committed tokens and it waits for a page (R188). -/
def Work.cacheWait (w : Work) (rq : Nat) : Bool :=
  let t := w.tab rq
  t.reg && t.wait != 0 && decide ((w.req rq).clen - w.tPaged t (t.gen % 2) ≥ 2 ^ w.tMaxk t)

/-- One candidate of a formation: skipped, passed over, or taken. `left` is what MAXPTOK still allows. -/
def Work.formOne (c rq : Nat) (left : Nat) (w : Work) : Nat × Work :=
  let r := w.req rq
  let pre := r.state == 1 || r.state == 2
  let npre := min (r.prompt - r.clen) left
  if (pre && npre == 0) || r.cancelling || r.pausing then (left, w)
  else if (w.bucket r.tenant).limited && decide ((w.bucket r.tenant).level ≤ 0) then (left, w.count (rqHub rq) 4 1)
  else if w.tokRoom r.ring < r.tokens then (left, w.count (rqHub rq) 5 1)
  else if w.evFree r.part < r.events then (left, w)
  else if w.cacheWait rq then (left, (w.count (tabPage rq) 5 1).raise (tabPage rq) 17)
  else
    let t := w.tab rq
    let room := !t.reg || decide (r.clen + r.nnode - w.pagedMin t ≤ 2 ^ w.tMaxk t)
    let w := if r.state = 4 ∧ !room then w.count (tabPage rq) 7 1 else w
    let kind := if pre then 0 else if r.state = 4 then (if room then 2 else 3) else 1
    let npos := if pre then npre else if kind = 2 then r.nnode else 1
    let w := w.serve fun x => { x with batches := SMap.mod {} x.batches c fun b => { b with ents := b.ents ++ [(rq, kind, npos)], resv := b.resv + r.events } }
    let w := (w.modHwin r.part fun x => { x with resv := x.resv + r.events }).showWin r.part
    (if pre then left - npre else left, w.modReq rq fun r => { r with lastIncl := w.now })

/-- Candidates in order until MAXSEQ are taken. -/
def Work.formAll (c maxseq : Nat) : List Nat → Nat → Work → Work
  | [], _, w => w
  | rq :: l, left, w =>
    if (w.batch c).ents.length ≥ maxseq then w
    else let (left, w) := w.formOne c rq left; Work.formAll c maxseq l left w

/-- A batch entry as formed (R286). -/
def Work.batchBytes (w : Work) (e : Nat × Nat × Nat) : List Byte :=
  let r := w.req e.1
  natLE 2 (e.1 + e.2.1 * 2 ^ 13) ++ [0, 0] ++ natLE 4 e.2.2 ++ natLE 2 (r.adapter + if r.aden then 512 else 0) ++ [0, 0, 0, 0, 0, 0]

/-- The common checks of SRV_FORM. -/
def srvFormSpec : CmdSpec :=
  { types := [4], code := 0x34, states := [.running], resv := fun c => c.arg 1 < 2 ^ 16 && c.arg 2 < 2 ^ 12 && c.arg 3 < 2 ^ 24 }

/-- SRV_FORM. R286, R313. -/
def execSrvForm (q : Issue) (s : State) : Host.Outcome State Fault Refusal :=
  .next (s.run fun w => w.command q srvFormSpec fun c w =>
    let x := (w.page c.page).ctx.getD 0
    let part := (w.ctx x).part
    let a := c.arg64 0
    let maxseq := c.arg 2
    w.checked c [((w.batch x).formed || w.role part == 2, .state), (maxseq == 0 || decide (2048 < maxseq), .shape),
        (!w.inT1 part a (16 + 16 * maxseq), .bound)] fun w =>
      let cands := w.dev.serve.reqs.filter fun e => e.2.ctx == x && e.2.part == part && decide (1 ≤ e.2.state) && decide (e.2.state ≤ 4) && !e.2.held &&
        (w.role part != 0 || decide (e.2.clen < e.2.prompt))
      let w := cands.foldl (fun w e => w.refill e.2.tenant) w
      let order := (cands.foldl (fun l e => insByKey e l) []).map (·.1)
      let w := w.serve fun y => { y with batches := SMap.put {} y.batches x { formed := true, base := a, ents := [], resv := 0 } }
      let w := Work.formAll x maxseq order (c.arg 3) w
      let es := (w.batch x).ents
      let due := es.filterMap fun e => if (w.req e.1).deadline = 0 then none else some (w.req e.1).deadline
      let w := w.modCtx x fun y => { y with batchDeadline := BitVec.ofNat 64 (match due with | [] => 0 | d :: l => l.foldl min d) }
      let w := w.store a (natLE 4 es.length ++ List.replicate 12 0 ++ (es.map w.batchBytes).flatten)
      w.reply c .done)

/-- A formed batch dropped without commit: its reservations are returned. -/
def Work.dropBatch (c : Nat) (w : Work) : Work :=
  let b := w.batch c
  let part := (w.ctx c).part
  let w := (w.modHwin part fun x => { x with resv := x.resv - b.resv }).showWin part
  w.serve fun y => { y with batches := SMap.drop y.batches c }

/-! ### Migration (R293) -/

/-- The common checks of RQT_MIGRATE. -/
def rqtMigrateSpec : CmdSpec :=
  { types := [0x14], code := 0x74, who := .priv
    resv := fun c => c.page == dbPage && bits (c.arg 0) 15 13 == 0 && bits (c.arg 0) 31 28 == 0 && bits (c.arg 1) 7 6 == 0 && c.arg 1 < 2 ^ 16 &&
      bits (c.arg 2) 15 13 == 0 && c.arg 2 < 2 ^ 29 && c.arg 4 < 2 ^ 16 && c.arg 5 < 2 ^ 16 }

/-- RQT_MIGRATE. R293: what this package can judge alone, then the hold. -/
def execRqtMigrate (q : Issue) (s : State) : Host.Outcome State Fault Refusal :=
  .next (s.run fun w => w.command q rqtMigrateSpec fun c w =>
    let part := bits (c.arg 1) 5 0
    let x := bits (c.arg 1) 15 8
    let idx := bits (c.arg 2) 12 0
    let ring := bits (c.arg 2) 28 16
    let a := c.arg64 3
    let tags := (List.range 4).map fun j => bits (c.arg 5) (4 * j + 3) (4 * j)
    let n := 2 ^ (w.le (a + 4) 1 % 4)
    let w' := w.accept c
    match firstFail [
        (!w.ownsReq part idx || !w.ownsRing part ring || !(w.tokRing ring).isSet || (w.ctx x).state == .none || (w.ctx x).part != part ||
          a % 128 != 0 || !w.inT1 part a 128 || !((tags.take n).all fun g => w.regValid g && w.regPart g == part), .bound),
        ((w.req idx).state != 0 || (w.req idx).held || w.role part != 1, .state)] with
    | some st => w'.settle c.page st
    | none =>
      (w'.serve fun y => { y with migration := some { srcIdx := bits (c.arg 0) 12 0, srcPkg := bits (c.arg 0) 27 16, part := part, ctx := x, idx := idx
                                                      ring := ring, table := a, tags := tags, entry := none } }).send
        (.migrate 0 (bits (c.arg 0) 27 16) (bits (c.arg 0) 12 0) part))

/-- MIGRATE_HOLD. R293: at once, or at the commit of the step that includes the request. -/
def execMigrateHold (rq srcPkg part : Nat) (s : State) : Host.Outcome State Fault Refusal :=
  .next (s.run fun w =>
    let r := w.req rq
    if r.part ≠ part ∨ (r.state ≠ 3 ∧ r.state ≠ 4) ∨ r.toPkg ≠ 0 then w.send (.migrateReply srcPkg false (w.migEntry rq) [])
    else if w.included rq then w.modReq rq fun r => { r with toPkg := srcPkg + 1 }
    else w.startMigrate rq srcPkg)

/-- A migration ends without success: the source is told, and the command ends with a status. -/
def Work.failMigration (m : Migration) (st : Status) (tell : Bool) (w : Work) : Work :=
  let w := w.serve fun y => { y with migration := none }
  let w := if tell then w.send (.migrate 2 m.srcPkg m.srcIdx m.part) else w
  w.settle dbPage st

/-- MIGRATE_REPLY. R293: the checks that need the source's answer, then the admission. An answer without an entry says that the source
cannot be reached. -/
def execMigrateReply (ok : Bool) (entry header : List Byte) (s : State) : Host.Outcome State Fault Refusal :=
  .next (s.run fun w =>
    match w.dev.serve.migration with
    | none => w
    | some m =>
      if m.entry.isSome then w
      else if entry.isEmpty then w.failMigration m .fault false
      else if !ok then w.failMigration m .state false
      else
        let f := fun off n => leNat ((entry.drop off).take n)
        let h := fun off n => leNat ((header.drop off).take n)
        let r := { reqOf f with state := f 0 4 % 16, pclass := bits (f 0 4) 5 4, part := m.part, tenant := bits (f 0 4) 23 12, ctx := m.ctx, clen := f 4 4
                                usertag := f 64 8, ring := m.ring, ptaddr := m.table }
        let planes := 2 ^ (h 4 1 % 4)
        if !w.resident m.part r.tenant r then w.failMigration m .bound true
        else if w.le (m.table + 4) 1 % 4 ≠ h 4 1 % 4 ∨ !((List.range planes).all fun j => w.tshift (m.tags.getD j 0) == h (128 + j) 1) then
          w.failMigration m .shape true
        else
          let w1 := w.storeLE (m.table + 22) 2 ((List.range 4).foldl (fun v j => v + m.tags.getD j 0 * 16 ^ j) 0)
          match w1.admitTable m.idx m.part m.ctx m.table 0 0 (r.clen + min (w.le (m.table + 16) 4 % 2 ^ 25) (r.limit - r.clen)) with
          | none => (w.count (tabPage m.idx) 2 1).failMigration m .admission true
          | some w2 => w2.serve fun y => { y with migration := some { m with entry := some r } })

/-- Bytes that a table's rows and staging buffers hold. -/
def Work.inPages (w : Work) (t : Tab) (a : Nat) : Bool :=
  let b := t.shadow
  ((List.range (w.tRows t b)).any fun i => (List.range (w.tPlanes t)).any fun j =>
      let e := w.tEntry t b i j
      decide (entryAddr e ≤ a) && decide (a < entryAddr e + w.pageBytes (bits e 55 52) (bits e 51 48))) ||
    (List.range (w.tPlanes t)).any fun j => decide (w.tStage t j ≤ a) && decide (a < w.tStage t j + w.pageBytes (w.tTag t j) (w.tMaxk t))

/-- Everything that bank b of a table names is returned, and the table is gone. -/
def Work.dropTable (rq b : Nat) (w : Work) : Work :=
  let t := w.tab rq
  let rows := ((List.range (w.tRows t b)).map fun i => (List.range (w.tPlanes t)).map fun j => entryRef (w.tEntry t b i j)).flatten
  let stages := (List.range (w.tPlanes t)).map fun j => (⟨w.tTag t j, w.tStage t j, w.tMaxk t⟩ : PageRef)
  let w := (rows ++ stages ++ t.split).foldl (fun w r => w.freeRef r) (Work.endWait rq w)
  (w.pool fun p => { p with tabs := SMap.drop p.tabs rq }).showTabs rq

/-- Everything an unpublished admission took is returned. -/
def Work.dropAdmission (rq : Nat) (w : Work) : Work := w.dropTable rq (w.tab rq).shadow

/-- MIGRATE_PUBLISH. R293: the bytes read go into the new pages, and entry and generation are published at one stamp. -/
def execMigratePublish (ok : Bool) (data : List (Nat × Byte)) (s : State) : Host.Outcome State Fault Refusal :=
  .next (s.run fun w =>
    match w.dev.serve.migration with
    | none => w
    | some m =>
      match m.entry with
      | none => w
      | some r =>
        if !ok then (w.dropAdmission m.idx).failMigration m .fault true
        else
          let t := w.tab m.idx
          let w := (data.filter fun e => w.inPages t (if e.1 < 2 ^ 100 then e.1 else (e.1 - 2 ^ 100) * 64)).foldl (fun w e => w.wrB e.1 e.2) w
          let w := w.storeLE (t.addr + 32 + 32 * t.shadow) 4 r.clen
          let w := (w.modTab m.idx fun t => { t with log := t.log ++ [8192] }).publishTab m.idx
          let w := (w.modReq m.idx fun _ => r).showUsed m.idx
          let w := w.reqEvent m.idx 8 0
          let w := (w.serve fun y => { y with migration := none }).send (.migrate 1 m.srcPkg m.srcIdx m.part)
          w.settle dbPage .done)

/-- MIGRATE_RELEASE. R293: the source drops the request's pages, or takes it back. -/
def execMigrateRelease (rq : Nat) (ok : Bool) (s : State) : Host.Outcome State Fault Refusal :=
  .next (s.run fun w =>
    let r := w.req rq
    if r.state ≠ 8 ∨ r.releasing then w
    else
      let w := w.walkerOut rq (w.tab rq).gen
      if ok then w.beginRelease rq else (w.modReq rq fun r => { r with toPkg := 0 }).reqState rq r.before)

end Sys2Proof.Machine
end

