-- ==== Sys2Proof/Machine/Residency.lean ====
section
/-!
DEFINITION. Residency.lean: model images, loads, replacements, opens, adapters (R295–R315).
-/
namespace Sys2Proof.Machine

def Work.mdl (f : Residency → Residency) (w : Work) : Work := w.d fun d => { d with mdl := f d.mdl }
def Work.model (w : Work) (m : Nat) : Model := SMap.at {} w.dev.mdl.models m
def Work.modModel (m : Nat) (f : Model → Model) (w : Work) : Work := w.mdl fun x => { x with models := SMap.mod {} x.models m f }
def Work.adpSlot (w : Work) (i : Nat) : Option Adapter := SMap.at none w.dev.mdl.slots i

/-- HD0's LDR page, which keeps the residency table. -/
def ldr0 : Nat := ldrPage 0

/-- The outstanding command of a page as a call. -/
def Work.outCall (w : Work) (p : Nat) : Option Call :=
  (w.page p).outst.map fun o => { page := p, code := o.code, caller := o.caller, args := o.args, tag := o.tag }

/-! ### Images (R295–R298) -/

/-- A field of an image held in tier 2. -/
structure Image where
  base : Nat
  nlayer : Nat
  nshard : Nat
  nadd : Nat
  map : Nat
  dir : Nat
  len : Nat

/-- The header of an image. -/
def Work.image (w : Work) (a : Nat) : Image :=
  { base := a, nlayer := w.le (a + 6) 2, nshard := w.le (a + 8) 2, nadd := w.le (a + 10) 2, len := w.le (a + 16) 8, map := w.le (a + 24) 8, dir := w.le (a + 32) 8 }

/-- [a, a + n) lies in populated tier 2. -/
def Work.t2Populated (w : Work) (a n : Nat) : Bool := decide (t2Base ≤ a) && decide (a + n ≤ t2Base + w.t2Cap * gib)

/-- Header, shard map and additions directory of an image, as ranges. -/
def Image.parts (i : Image) : List (Nat × Nat) := [(i.base, 64), (i.base + i.map, 32 * i.nshard), (i.base + i.dir, 32 * i.nadd)]

/-- KEY of package `pkg` under an origin: field by field, none where a difference is below zero (R296). -/
def pkgKey (pkg origin : Nat) : Option Nat :=
  let d := fun hi lo => (bits pkg hi lo, bits origin hi lo)
  if [d 11 8, d 7 4, d 3 0].all fun x => decide (x.2 ≤ x.1) then
    some ((bits pkg 11 8 - bits origin 11 8) * 256 + (bits pkg 7 4 - bits origin 7 4) * 16 + (bits pkg 3 0 - bits origin 3 0))
  else none

/-- The shard-map entry of a key: offset, length, CRC. -/
def Work.shard (w : Work) (i : Image) (key : Nat) : Option (Nat × Nat × Nat) :=
  ((List.range i.nshard).map fun n => i.base + i.map + 32 * n).findSome? fun e =>
    if w.le e 2 = key then some (w.le (e + 8) 8, w.le (e + 16) 8, w.le (e + 4) 4) else none

/-- Layer records of a shard: PHASE, GROUP, offset in the shard, length in bytes (Table 17.3). -/
def Work.layersOf (w : Work) (i : Image) (off : Nat) : List (Nat × Nat × Nat × Nat) :=
  (List.range i.nlayer).map fun l =>
    let a := i.base + off + 16 * l
    (w.le (a + 12) 1, w.le (a + 13) 1, w.le a 8, 64 * w.le (a + 8) 4)

/-- Adjacent elements satisfy a relation. -/
def chainOk {α : Type} (f : α → α → Bool) : List α → Bool
  | a :: b :: l => f a b && chainOk f (b :: l)
  | _ => true

/-- An image is well formed (R295–R298); `key` picks the shard whose layer records are judged. -/
def Work.imageOk (w : Work) (i : Image) (key : Option Nat) : Bool :=
  let a := i.base
  let entries := (List.range i.nshard).map fun n => a + i.map + 32 * n
  let adds := (List.range i.nadd).map fun n => a + i.dir + 32 * n
  let bytes := w.rdN a 12 ++ [0, 0, 0, 0] ++ w.rdN (a + 16) 48 ++ w.rdN (a + i.map) (32 * i.nshard) ++ w.rdN (a + i.dir) (32 * i.nadd)
  w.le a 4 == 0x4D444C57 && w.le (a + 4) 2 == 1 && decide (1 ≤ i.nlayer) && decide (i.nlayer ≤ 1024) && decide (1 ≤ i.nshard) && decide (i.nshard ≤ 4096) &&
    decide (i.len < 2 ^ 48) && i.map % 64 == 0 && decide (i.map < 2 ^ 48) && i.dir % 64 == 0 && decide (i.dir < 2 ^ 48) && w.le (a + 48) 16 == 0 &&
    w.le (a + 12) 4 == crc32c bytes &&
    (entries.all fun e => w.le e 2 < 2 ^ 12 && w.le (e + 2) 2 == 0 && w.le (e + 8) 8 % 4096 == 0 && w.le (e + 16) 8 % 4096 == 0 &&
      w.le (e + 8) 8 + w.le (e + 16) 8 ≤ i.len && w.le (e + 24) 8 == 0) &&
    chainOk (fun x y => w.le x 2 < w.le y 2) entries &&
    (adds.all fun e => w.le e 2 < 2 ^ 12 && (w.le (e + 2) 1 == 1 || w.le (e + 2) 1 == 2) && w.le (e + 3) 1 == 0 && w.le (e + 4) 2 < 2 ^ 12 &&
      w.le (e + 6) 2 < 2 ^ 10 && w.le (e + 8) 8 % 64 == 0 && w.le (e + 8) 8 + 64 * w.le (e + 16) 4 ≤ i.len && w.le (e + 27) 1 == 0 && w.le (e + 24) 2 < 512 &&
      (w.le (e + 2) 1 != 2 || (w.le (e + 6) 2 < i.nlayer && w.le (e + 20) 4 % 64 == 0 && w.le (e + 26) 1 != 0))) &&
    (match key.bind (w.shard i) with
      | none => true
      | some (off, len, _) =>
        let ls := w.layersOf i off
        ((List.range i.nlayer).all fun l => w.le (a + off + 16 * l) 8 < 2 ^ 40 && w.le (a + off + 16 * l + 14) 2 == 0) &&
          (ls.all fun x => decide (1 ≤ x.1) && decide (x.1 ≤ 254) && decide (x.2.1 < 64) && x.2.2.1 % 64 == 0 && decide (x.2.2.1 + x.2.2.2 ≤ len)) &&
          chainOk (fun x y => decide (x.1 < y.1) && decide (x.2.1 ≤ y.2.1)) ls)

/-- This package's key under an origin. -/
def Work.myKey (w : Work) (origin : Nat) : Option Nat := pkgKey w.ownPkg origin

/-! ### The layer map (R301) -/

/-- The address of entry l of bank b of a model's layer map. -/
def Model.entryAt (e : Model) (b l : Nat) : Nat := e.map + 8 * (b * e.nlayer + l)
/-- Layer l's data as a bank names it. -/
def Work.lmap (w : Work) (e : Model) (b l : Nat) : Nat := w.le (e.entryAt b l) 8 % 2 ^ 48
/-- Bytes that layers take from the first of them to the last. -/
def span (ls : List (Nat × Nat × Nat × Nat)) : Nat × Nat :=
  let lo := ls.foldl (fun a x => min a x.2.2.1) (2 ^ 48)
  (lo, ls.foldl (fun a x => max a (x.2.2.1 + x.2.2.2)) lo - lo)

/-- LDR_STS of HD0. -/
def Work.ldrSts (active mode layer model : Nat) (w : Work) : Work :=
  (((w.set ldr0 R.LDR_STS_ACTIVE active).set ldr0 R.LDR_STS_MODE mode).set ldr0 R.LDR_STS_LAYER layer).set ldr0 R.LDR_STS_MODEL model

/-- Bytes of [a, a + n) that lie in quadrant q of tier 1. -/
def inQuad (q a n : Nat) : Nat := min (a + n) ((q + 1) * 240 * gib) - max a (q * 240 * gib)

/-- Image data copied into tier 1 by the loaders of the hubs it goes to (R301). -/
def Work.loadCopy (src dst n : Nat) (w : Work) : Work :=
  let w := w.copyLines src dst (n / 64)
  let w := (List.range 4).foldl (fun (w : Work) q => if inQuad q dst n = 0 then w else w.count (ldrPage q) 1 (inQuad q dst n)) w
  w.set ldr0 R.LDR_PROG_PROG (w.get ldr0 R.LDR_PROG_PROG + ceilDiv n 4096)

/-- A load, store or replacement ends (R308): status, event, activity over. -/
def Work.endLoad (m : Nat) (st : Status) (layer : Nat) (w : Work) : Work :=
  let w := if st = .fault then (w.ldrSts 0 (w.get ldr0 R.LDR_STS_MODE) layer m).raise ldr0 18 else w.ldrSts 0 0 0 m
  (w.finishAct 6 0).settle ldr0 st

/-- The checks of R301 for an image and the area that takes its copy, and after them that of R320: no granule named is ZEROING. `need` is the number of bytes the area must offer, none where the
mode uses no area. -/
def Work.imageFails (w : Work) (part image area : Nat) (map : Option Nat) (need : Image → Nat → Nat) (useArea : Bool) (key : Option Nat) : Option Status :=
  let i := w.image image
  let mapOk := match map with | none => true | some a => a % 64 == 0 && w.inT1 part a (16 * max 1 (min i.nlayer 1024))
  firstFail [
    ((useArea && (area % 4096 != 0 || !w.inT1 part area 4096)) || !mapOk || image % 4096 != 0 || !w.t2Populated image 64 ||
      !(i.parts.all fun p => w.t2Populated p.1 p.2) || !w.t2Populated image i.len, .bound),
    (i.parts.any fun p => w.poisoned p.1 p.2, .poison),
    (!w.imageOk i key, .unknown),
    (match key.bind (w.shard i) with
      | none => true
      | some (off, len, _) => useArea && !w.inT1 part area (need { i with base := image + off } len), .shape),
    ((useArea && w.zeroingIn area (max 1 (((key.bind (w.shard i)).map fun s => s.2.1).getD 1))) || w.zeroingIn image (max 1 i.len) ||
      map.any fun a => w.zeroingIn a (16 * i.nlayer), .busy)]

/-- Header, shard map and directory as the judging of an image reads them: an image that lies outside tier 2 is not read (R156). -/
def Work.readImage (image : Nat) (found : Option Status) (w : Work) : Work :=
  if found = some .bound then w else (w.image image).parts.foldl (fun (w : Work) p => w.readLines p.1 p.2) w

/-- A shard's CRC as it stands in tier 2. -/
def Work.shardOk (w : Work) (i : Image) (s : Nat × Nat × Nat) : Bool := crc32c (w.rdN (i.base + s.1) s.2.1) == s.2.2

/-- MDL_LOAD begins (R301): LOADING. -/
def Work.loadStart (c : Call) (w : Work) : Work :=
  let m := c.arg 0 % 4096
  ((w.modModel m fun _ => { state := 1, part := bits (c.arg 0) 17 12, image := c.arg64 1, origin := c.arg 3, area := c.arg64 4, map := c.arg64 6 }).ldrSts 1 0 0 m).set
    ldr0 R.LDR_PROG_PROG 0

/-- MDL_LOAD ends: the checks, the copy, both banks (R301, R308). -/
def Work.loadEnd (c : Call) (w : Work) : Work :=
  let m := c.arg 0 % 4096
  let e := w.model m
  let key := w.myKey e.origin
  let i := w.image e.image
  let gone := fun (w : Work) => w.modModel m fun _ => {}
  let found := w.imageFails e.part e.image e.area (some e.map) (fun _ len => len) true key
  let w := w.readImage e.image found
  match found with
  | some st => (gone w).endLoad m st 0
  | none =>
    match key.bind (w.shard i) with
    | none => (gone w).endLoad m .shape 0
    | some s =>
      if w.srcFailed (i.base + s.1) s.2.1 then (gone w).endLoad m .fault 0
      else
        let ok := w.shardOk i s
        let ls := w.layersOf i s.1
        let w := w.loadCopy (i.base + s.1) e.area s.2.1
        if !ok then ((gone w).count ldr0 6 1).endLoad m .fault 0
        else
          let e := { e with state := 2, nlayer := i.nlayer, sw := 0, layers := ls }
          let w := (List.range i.nlayer).foldl (fun (w : Work) l =>
            let a := e.area + (ls.getD l (0, 0, 0, 0)).2.2.1
            (w.storeLE (e.entryAt 0 l) 8 a).storeLE (e.entryAt 1 l) 8 a) w
          ((w.modModel m fun _ => e).count ldr0 0 1).endLoad m .done 0

/-- The common checks of the loader's commands: HD0's page where `hd0`. -/
def ldrSpec (code : Nat) (hd0 : Bool) (resv : Call → Bool) : CmdSpec :=
  { types := [0x13], code := code, who := .priv, states := [.idle, .bound, .running, .quiescing, .quiesced]
    resv := fun c => (!hd0 || c.page == ldr0) && resv c }

/-- A loading activity asks Campion: started, or held PENDING (R299, R380). -/
def Work.loading (c : Call) (start : Call → Work → Work) (w : Work) : Work :=
  match w.request 6 0 (c.page + 1) with
  | (true, w) => start c (w.accept c)
  | (false, w) => w.hold c

/-- MDL_LOAD. R301, R300. -/
def execMdlLoad (q : Issue) (s : State) : Host.Outcome State Fault Refusal :=
  .next (s.run fun w => w.command q (ldrSpec 0x81 true fun c => c.arg 0 < 2 ^ 18 && c.arg 2 < 2 ^ 16 && c.arg 3 < 2 ^ 12 && c.arg 5 < 2 ^ 16 && c.arg 7 < 2 ^ 16) fun c w =>
    w.checked c [((w.model (c.arg 0 % 4096)).state != 0, .state)] fun w => w.loading c Work.loadStart)

/-! ### Storing images (R299) -/

/-- The slices that a tier-3 range touches are valid and reach far enough (R153). -/
def Work.t3Valid (w : Work) (a n : Nat) : Bool :=
  decide (t3Base ≤ a) && decide (a + n ≤ t3End) && (n == 0 || (List.range ((a + n - 1 - t3Base) / 2 ^ 39 - (a - t3Base) / 2 ^ 39 + 1)).all fun k =>
    let i := (a - t3Base) / 2 ^ 39 + k
    let lo := max a (t3Base + i * 2 ^ 39)
    let hi := min (a + n) (t3Base + (i + 1) * 2 ^ 39)
    w.t3Ok (w.get (xltPage 0) (R.XLT_T3MAP_LO_PARTITION.i i)) lo (hi - lo))

/-- The images that model entries name overlap a tier-2 range. -/
def Work.imageIn (w : Work) (a n : Nat) : Bool :=
  w.dev.mdl.models.any fun e => e.2.state != 0 &&
    (overlaps a n e.2.image (w.image e.2.image).len || match e.2.repl with | some r => overlaps a n r.image (w.image r.image).len | none => false)

/-- A line of the store's source asked of the host, with the requester ID of its slice's partition; one that the map refuses by now, or for which there is no
link, has failed (R153, R154). -/
def Work.storeAsk (x : Nat) (w : Work) : Work :=
  let part := w.get (xltPage 0) (R.XLT_T3MAP_LO_PARTITION.i ((x - t3Base) / 2 ^ 39))
  let can := w.dev.host.link && w.t3Ok part x 64
  let w := w.tiers fun t => { t with lines := SMap.mod [] t.lines ldr0 (· ++ [(x, if can then 0 else 2)]) }
  if can then w.askHost part x { page := ldr0, idx := x, isNext := false, addr := 0, unit := true } else w

/-- The store starts: it reads the host's memory. -/
def Work.storeStart (c : Call) (w : Work) : Work :=
  (linesIn (c.arg64 0) (c.arg 4 * 4096)).foldl (fun (w : Work) x => w.storeAsk x) ((w.ldrSts 1 0 0 0).set ldr0 R.LDR_PROG_PROG 0)

/-- Lines carried from host memory into tier 2, tags with them (R156). -/
def Work.storeLines (src dst : Nat) : Nat → Work → Work
  | 0, w => w
  | n + 1, w =>
    let h := hostA (w.hostOf src)
    let bad := w.poisonAt h
    let w := w.store dst (w.rdN h 64)
    Work.storeLines (src + 64) (dst + 64) n (if bad then w.setPoison dst true else w)

/-- The store ends once every line has come, or with FAULT once one has failed, the lines before it being written (R299). -/
def Work.storeEnd (c : Call) (w : Work) : Work :=
  let l := linesIn (c.arg64 0) (c.arg 4 * 4096)
  let got := l.takeWhile fun x => w.t3Line ldr0 x == some 1
  if got.length < l.length && l.all fun x => w.t3Line ldr0 x == some 0 || w.t3Line ldr0 x == some 1 then w
  else
    let w := Work.storeLines (c.arg64 0) (c.arg64 2) got.length w
    let w := w.tiers fun t => { t with lines := SMap.drop t.lines ldr0 }
    ((w.count ldr0 2 (64 * got.length)).set ldr0 R.LDR_PROG_PROG (got.length / 64)).endLoad 0 (if got.length = l.length then .done else .fault) 0

/-- LDR_STORE. R299. -/
def execLdrStore (q : Issue) (s : State) : Host.Outcome State Fault Refusal :=
  .next (s.run fun w => w.command q (ldrSpec 0x80 true fun c => c.arg 1 < 2 ^ 16 && c.arg 3 < 2 ^ 16 && c.arg 4 < 2 ^ 31) fun c w =>
    let src := c.arg64 0
    let dst := c.arg64 2
    let n := c.arg 4 * 4096
    w.checked c [
      (src % 4096 != 0 || dst % 4096 != 0 || !w.t3Valid src n || !w.t2Populated dst n ||
        !granulesAll (dst - t2Base) n fun g => (w.owner kT2 g).isNone, .bound),
      (w.imageIn dst n, .busy),
      (c.arg 4 == 0 || decide (2 ^ 30 < c.arg 4), .shape)] fun w => w.loading c Work.storeStart)

/-! ### Queries and opens (R300, R302) -/

/-- MDL_QUERY. R300. -/
def execMdlQuery (q : Issue) (s : State) : Host.Outcome State Fault Refusal :=
  .next (s.run fun w => w.command q (ldrSpec 0x86 true fun c => c.arg 0 < 2 ^ 12) fun c w =>
    let e := w.model (c.arg 0)
    let mode := match e.repl with | some r => r.mode | none => 0
    let cur := (e.opens.filter fun o => o.2 == e.sw).length
    let vals := [e.state + mode * 2 ^ 3 + e.part * 2 ^ 5 + e.nlayer * 2 ^ 11, e.sw, cur, e.opens.length - cur, e.image % 2 ^ 32, e.image / 2 ^ 32,
      e.map % 2 ^ 32, e.map / 2 ^ 32, e.free % 2 ^ 32, e.free / 2 ^ 32, e.origin]
    ((List.range 11).foldl (fun (w : Work) n => w.setArg c.page (n + 1) (vals.getD n 0)) w).reply c .done)

/-- MDL_OPEN. R302. -/
def execMdlOpen (q : Issue) (s : State) : Host.Outcome State Fault Refusal :=
  .next (s.run fun w => w.command q { types := [4], code := 0x38, states := [.running], resv := fun c => c.arg 0 < 2 ^ 12 } fun c w =>
    let x := (w.page c.page).ctx.getD 0
    let m := c.arg 0
    let e := w.model m
    w.checked c [(e.state != 0 && e.part != (w.ctx x).part, .bound), (e.state != 2 && e.state != 3, .state)] fun w =>
      let (sw, w) := match e.opens.find? fun o => o.1 == x with
        | some o => (o.2, w)
        | none => (e.sw, w.modModel m fun e => { e with opens := e.opens ++ [(x, e.sw)] })
      let a := e.entryAt (sw % 2) 0
      (((w.setArg c.page 1 (a % 2 ^ 32)).setArg c.page 2 (a / 2 ^ 32)).setArg c.page 3 sw).reply c .done)

/-- The opens of a context are released: at its commit, an abandonment, its teardown (R302). -/
def Work.releaseOpens (c : Nat) (w : Work) : Work :=
  w.mdl fun x => { x with models := x.models.map fun e => (e.1, { e.2 with opens := e.2.opens.filter fun o => o.1 != c }) }

/-! ### Replacement (R303–R307) -/

/-- A switch (R303). -/
def Work.switchModel (m : Nat) (w : Work) : Work :=
  ((w.modModel m fun e => { e with sw := e.sw + 1, repl := e.repl.map fun r => { r with waiting := true } }).count ldr0 3 1).raise ldr0 16

/-- The shadow bank's entries of some layers. -/
def Work.shadowMap (e : Model) (ls : List Nat) (addr : Nat → Nat) (w : Work) : Work :=
  ls.foldl (fun (w : Work) l => w.storeLE (e.entryAt ((e.sw + 1) % 2) l) 8 (addr l)) w

/-- Layers of a group. -/
def groupLayers (ls : List (Nat × Nat × Nat × Nat)) (g : Nat) : List Nat := (List.range ls.length).filter fun l => (ls.getD l (0, 0, 0, 0)).2.1 == g

/-- The first group at or above `g`. -/
def nextGroup (ls : List (Nat × Nat × Nat × Nat)) (g : Nat) : Option Nat := (List.range 64).find? fun k => decide (g ≤ k) && !(groupLayers ls k).isEmpty

/-- The largest group span of an image's shard. -/
def maxSpan (ls : List (Nat × Nat × Nat × Nat)) : Nat :=
  (List.range 64).foldl (fun a g => max a (span ((groupLayers ls g).map fun l => ls.getD l (0, 0, 0, 0))).2) 0

/-- The replacement's new shard and its layers. -/
def Work.newShard (w : Work) (e : Model) (r : Repl) : Option ((Nat × Nat × Nat) × List (Nat × Nat × Nat × Nat)) :=
  (w.myKey e.origin).bind fun k => (w.shard (w.image r.image) k).map fun s => (s, w.layersOf (w.image r.image) s.1)

/-- A replacement ends; the model is RESIDENT again. -/
def Work.endReplace (m : Nat) (st : Status) (layer : Nat) (w : Work) : Work :=
  (w.modModel m fun e => { e with state := 2, repl := none }).endLoad m st layer

/-- MDL_REPLACE begins once admitted (R304, R305): REPLACING, the checks; DOUBLE copies the shard and switches. The manual gives no status for layers or
groups that do not fit the resident image: SHAPE (DESIGN CHOICE, log entry 56). -/
def Work.replStart (c : Call) (w : Work) : Work :=
  let m := c.arg 0 % 4096
  let mode := bits (c.arg 0) 19 18
  let e := w.model m
  let image := c.arg64 1
  let area := c.arg64 4
  let i := w.image image
  let key := w.myKey e.origin
  let r : Repl := { mode := mode, image := image, area := area, next := 0, waiting := false }
  let need := fun (j : Image) len => if mode = 2 then maxSpan (w.layersOf { j with base := j.base } 0) else len
  let w := ((w.modModel m fun e => { e with state := 3, repl := some r }).ldrSts 1 mode 0 m).set ldr0 R.LDR_PROG_PROG 0
  let found := w.imageFails e.part image area none need (mode != 1) key
  let w := w.readImage image found
  match found with
  | some st => w.endReplace m st 0
  | none =>
    match w.newShard e r with
    | none => w.endReplace m .shape 0
    | some (s, ls) =>
      let fits := i.nlayer == e.nlayer &&
        (mode != 1 || (List.range ls.length).all fun l => decide ((ls.getD l (0, 0, 0, 0)).2.2.2 ≤ (e.layers.getD l (0, 0, 0, 0)).2.2.2)) &&
        (mode != 2 || (ls.map (·.2.1)) == e.layers.map (·.2.1))
      if !fits then w.endReplace m .shape 0
      else if mode = 0 then
        if w.srcFailed (i.base + s.1) s.2.1 then w.endReplace m .fault 0
        else
          let ok := w.shardOk i s
          let w := w.loadCopy (i.base + s.1) area s.2.1
          if !ok then (w.count ldr0 6 1).endReplace m .fault 0
          else (w.shadowMap e (List.range e.nlayer) fun l => area + (ls.getD l (0, 0, 0, 0)).2.2.1).switchModel m
      else w.modModel m fun e => { e with repl := some { r with next := if mode = 2 then (nextGroup ls 0).getD 0 else 0 } }

/-- MDL_REPLACE. R304. -/
def execMdlReplace (q : Issue) (s : State) : Host.Outcome State Fault Refusal :=
  .next (s.run fun w => w.command q (ldrSpec 0x82 true fun c => bits (c.arg 0) 17 12 == 0 && c.arg 0 < 2 ^ 20 && bits (c.arg 0) 19 18 != 3 && c.arg 2 < 2 ^ 16 &&
      c.arg 5 < 2 ^ 16 && (bits (c.arg 0) 19 18 != 1 || c.arg64 4 == 0)) fun c w =>
    w.checked c [((w.model (c.arg 0 % 4096)).state != 2, .state)] fun w => w.loading c Work.replStart)

/-- After something that held them has gone, the waits of every context are judged again. -/
def Work.rejudge (w : Work) : Work := (SMap.keys w.dev.ctxs).foldl (fun (w : Work) c => w.pfRelease c) w

/-- MDL_INPLACE_LAYER. R306: no context that has the model open is inside the layer. -/
def execMdlInplaceLayer (model layer : Nat) (s : State) : Host.Outcome State Fault Refusal :=
  .next (s.run fun w =>
    let e := w.model model
    match e.repl with
    | none => w
    | some r =>
      match w.newShard e r with
      | none => w
      | some (sh, ls) =>
        let lo := (e.layers.getD layer (0, 0, 0, 0)).1
        let hi := if layer + 1 = e.nlayer then 255 else (e.layers.getD (layer + 1) (0, 0, 0, 0)).1
        let inside := e.opens.any fun o => decide (lo ≤ w.phase o.1) && decide (w.phase o.1 < hi)
        if r.mode ≠ 1 ∨ r.next ≠ layer ∨ inside then w
        else
          let x := ls.getD layer (0, 0, 0, 0)
          let src := r.image + sh.1 + x.2.2.1
          if w.srcFailed src x.2.2.2 then (w.endReplace model .fault layer).rejudge
          else
            let w := (w.loadCopy src (w.lmap e (e.sw % 2) layer) x.2.2.2).ldrSts 1 1 layer model
            let w := w.modModel model fun e => { e with repl := some { r with next := layer + 1 } }
            if layer + 1 < e.nlayer then w.rejudge
            else if !w.shardOk (w.image r.image) sh then ((w.count ldr0 6 1).endReplace model .fault layer).rejudge
            else ((w.modModel model fun e => { e with image := r.image
                                                      layers := List.zipWith (fun o n => (n.1, n.2.1, o.2.2.1, n.2.2.2)) e.layers ls }).endReplace model .done 0).rejudge)

/-- MDL_ROLLING_GROUP. R307: the next group is copied into the spare area and switched to. -/
def execMdlRollingGroup (model group : Nat) (s : State) : Host.Outcome State Fault Refusal :=
  .next (s.run fun w =>
    let e := w.model model
    match e.repl with
    | none => w
    | some r =>
      match w.newShard e r with
      | none => w
      | some (sh, ls) =>
        if r.mode ≠ 2 ∨ r.waiting ∨ r.next ≠ group then w
        else
          let g := groupLayers ls group
          let sp := span (g.map fun l => ls.getD l (0, 0, 0, 0))
          let src := r.image + sh.1 + sp.1
          if w.srcFailed src sp.2 then w.endReplace model .fault (g.headD 0)
          else if (nextGroup ls (group + 1)).isNone ∧ !w.shardOk (w.image r.image) sh then (w.count ldr0 6 1).endReplace model .fault (g.headD 0)
          else
            let w := (w.loadCopy src r.area sp.2).ldrSts 1 2 (g.headD 0) model
            let w := (r.adds.filter fun x => g.contains x.1).foldl (fun (w : Work) x =>
              w.loadCopy x.2.2.1 (r.area + (ls.getD x.1 (0, 0, 0, 0)).2.2.1 - sp.1 + x.2.1) x.2.2.2) w
            (w.shadowMap e g fun l => r.area + (ls.getD l (0, 0, 0, 0)).2.2.1 - sp.1).switchModel model)

/-- A model that was being unloaded has no opens left (R312). -/
def Work.unloaded (m : Nat) (w : Work) : Work :=
  let w := w.modModel m fun e => { map := e.map, free := e.area }
  let w := w.mdl fun x => { x with slots := x.slots.filter fun s => match s.2 with | some a => a.model != m | none => false }
  (w.raise ldr0 17).settle ldr0 .done

/-- MDL_RETIRE. R303, R305, R307, R312. -/
def execMdlRetire (model : Nat) (s : State) : Host.Outcome State Fault Refusal :=
  .next (s.run fun w =>
    let e := w.model model
    if e.state = 4 then (if e.opens.isEmpty then w.unloaded model else w)
    else match e.repl with
      | none => w
      | some r =>
        if !r.waiting ∨ e.opens.any (fun o => decide (o.2 < e.sw)) then w
        else
          match w.newShard e r with
          | none => w
          | some (_, ls) =>
            let old := (e.sw + 1) % 2
            let changed := if r.mode = 2 then groupLayers ls r.next else List.range e.nlayer
            -- the span that the old bank named and no bank names any longer
            let freed := if r.mode = 0 then e.area else changed.foldl (fun a l => min a (w.lmap e old l)) (2 ^ 48)
            let w := changed.foldl (fun (w : Work) l => w.storeLE (e.entryAt old l) 8 (w.lmap e (e.sw % 2) l)) w
            let w := (w.modModel model fun e => { e with free := freed }).raise ldr0 17
            match r.mode, nextGroup ls (r.next + 1) with
            | 2, some g => w.modModel model fun e => { e with repl := some { r with area := freed, next := g, waiting := false } }
            | _, _ =>
              let w := w.modModel model fun e => { e with image := r.image, layers := ls, area := if r.mode = 0 then r.area else e.area }
              (w.endReplace model .done 0).rejudge)

/-- A request that is not FREE names a model (R311). -/
def Work.modelNamed (w : Work) (m : Nat) : Bool :=
  w.dev.serve.reqs.any fun e => e.2.state != 0 && (e.2.model == m || e.2.draft == m)

/-- MDL_UNLOAD. R312. -/
def execMdlUnload (q : Issue) (s : State) : Host.Outcome State Fault Refusal :=
  .next (s.run fun w => w.command q (ldrSpec 0x83 true fun c => c.arg 0 < 2 ^ 12) fun c w =>
    w.checked c [((w.model (c.arg 0)).state != 2, .state), (w.modelNamed (c.arg 0), .busy)] fun w =>
      (w.accept c).modModel (c.arg 0) fun e => { e with state := 4 })

/-! ### Adapters and private experts (R309, R310) -/

/-- A request that is not FREE applies an adapter slot. -/
def Work.slotNamed (w : Work) (i : Nat) : Bool := w.dev.serve.reqs.any fun e => e.2.state != 0 && e.2.aden && e.2.adapter == i

/-- A private expert placed during a ROLLING replacement goes into its layer's new copy too, when that is made (R310). A DOUBLE makes its whole copy in one act, so
the bank in force names the new copy as soon as there is one. -/
def Work.alsoNew (m layer off src n : Nat) (w : Work) : Work :=
  w.modModel m fun e => match e.repl with
    | none => e
    | some r =>
      let g := (e.layers.getD layer (0, 0, 0, 0)).2.1
      if r.mode = 2 ∧ (r.next < g ∨ (r.next = g ∧ !r.waiting)) then { e with repl := some { r with adds := r.adds ++ [(layer, off, src, n)] } } else e

/-- The bytes of an addition put in their place, or the status that refuses it (R309, R310, R308). The manual gives no status for an index beyond NADD or another
package's key: SHAPE (DESIGN CHOICE, log entry 56). -/
def Work.addition (m slot idx dst : Nat) (w : Work) : Status × Work :=
  let e := w.model m
  let i := w.image e.image
  let a := i.base + i.dir + 32 * idx
  let kind := w.le (a + 2) 1
  let src := i.base + w.le (a + 8) 8
  let n := 64 * w.le (a + 16) 4
  let layer := w.le (a + 6) 2
  let target := if kind = 2 then w.lmap e (e.sw % 2) layer + w.le (a + 20) 4 else dst
  let absent := decide (i.nadd ≤ idx)
  let found := firstFail [
    (absent, .shape), (w.poisoned a 32, .poison), (kind == 1 && (dst % 64 != 0 || !w.inT1 e.part dst n), .bound),
    (some (w.le a 2) != w.myKey e.origin, .shape), (w.srcFailed src n, .fault)]
  let w := if absent then w else w.readLines a 32
  match found with
  | some st => (st, if st = .fault then w.raise ldr0 18 else w)
  | none =>
    let ok := crc32c (w.rdN src n) == w.le (a + 28) 4
    if !ok then (.fault, (w.count ldr0 6 1).raise ldr0 18)
    else
      let w := (w.loadCopy src target n).count ldr0 5 1
      if kind = 2 then (.done, w.alsoNew m layer (w.le (a + 20) 4) src n)
      else
        let map := w.get ldr0 R.LDR_ADMAP_LO_ADMAP_LO * 64 + 2 ^ 32 * w.get ldr0 R.LDR_ADMAP_HI_ADMAP_HI
        let w := w.mdl fun x => { x with slots := SMap.put none x.slots slot (some { model := m, tenant := w.le (a + 4) 2, addr := dst }) }
        (.done, w.storeLE (map + 8 * slot) 8 dst)

/-- ADP_LOAD. R309, R310. -/
def execAdpLoad (q : Issue) (s : State) : Host.Outcome State Fault Refusal :=
  .next (s.run fun w => w.command q (ldrSpec 0x84 false fun c => c.arg 0 < 2 ^ 21 && c.arg 1 < 2 ^ 16 && c.arg 3 < 2 ^ 16) fun c w =>
    let slot := c.arg 0 % 512
    let m := bits (c.arg 0) 20 9
    w.checked c [((w.model m).state != 2 && (w.model m).state != 3, .state), (w.slotNamed slot, .busy)] fun w =>
      let (st, w) := (w.accept c).addition m slot (c.arg 1) (c.arg64 2)
      w.settle c.page st)

/-- ADP_DROP. R309. -/
def execAdpDrop (q : Issue) (s : State) : Host.Outcome State Fault Refusal :=
  .next (s.run fun w => w.command q (ldrSpec 0x85 false fun c => c.arg 0 < 2 ^ 9) fun c w =>
    w.checked c [(w.slotNamed (c.arg 0), .busy)] fun w =>
      (w.mdl fun x => { x with slots := SMap.put none x.slots (c.arg 0) none }).reply c .done)

/-- What an outstanding load or store still has to do when it completes. -/
def Work.finishLoads (w : Work) : Work :=
  match w.outCall ldr0, (w.page ldr0).outst with
  | some c, some o =>
    if o.final.isSome || !(w.dev.flt.running.any fun a => a.act == 6 && a.page == ldr0 + 1) then w
    else if c.code = 0x80 then w.storeEnd c
    else if c.code = 0x81 then w.loadEnd c
    else w
  | _, _ => w

end Sys2Proof.Machine
end

