-- ==== Sys2Proof/Machine/Gymbiust.lean ====
section
/-!
DEFINITION. Gymbiust.lean: GYL link states, link-level retry, forwarding, accesses of other packages and their responses (R336–R353).
-/
namespace Sys2Proof.Machine

/-! ### Link states (Table 19.2) -/

/-- A response to a message (R344, R346), issued here. -/
def Work.respond (m : Msg) (kind st : Nat) (data : List Byte) (w : Work) : Work :=
  w.gyl fun g => { g with issued := g.issued ++ [{ kind := kind, vc := 1, srcPkg := w.ownPkg, dstPkg := m.srcPkg, part := m.part, tag := m.tag
                                                   addr := 0, len := data.length, lvl := 0, status := st, op := 0, data := data }] }

/-- A message that cannot go on (R346): refused here where it was issued here, else answered NACK; a NACK itself ends. -/
def Work.cannotSend (n : Nat) (m : Msg) (st : Nat) (w : Work) : Work :=
  let w := w.count (portPage n) 7 1
  if m.kind = 6 then w
  else if m.srcPkg = w.ownPkg then w.nacked m.tag st
  else w.respond m 6 st []

/-- A port leaves service for good: messages that wait end, nothing is held any more. -/
def Work.portDown (n st : Nat) (w : Work) : Work :=
  let l := (w.port n).wait
  let w := (w.modPort n fun g => { g with wait := [], replay := [], next := 0, expect := 0, naks := 0, failed := 0, later := [], scan := none }).showReplay n
  let w := (w.setLstate n st).setLanes n 0
  l.foldl (fun (w : Work) m => w.cannotSend n m 0x20) w

/-- A port fails, with EV_LINK_DOWN where it was UP (R350, R352). -/
def Work.portFail (n : Nat) (w : Work) : Work :=
  let up := w.lstate n == 2
  let w := w.portDown n 4
  if up then w.raise (portPage n) 17 else w

/-- The port is UP with these lanes: what is held is replayed, what waits is sent. -/
def Work.laneSet (n m : Nat) (w : Work) : Work := (((w.setLstate n 2).setLanes n m).replayAll n).flushPort n

/-- The port comes UP with the lanes that a legal width keeps. -/
def Work.portUp (n m : Nat) (w : Work) : Work := w.laneSet n (legalLanes m)

/-- The peer that training has found is the one the port must face (R339). -/
def Work.peerOk (w : Work) (n : Nat) (q : PeerInfo) : Bool :=
  let h := n / 2
  let own := w.ownPkg
  let both := q.idvalid && w.get (xltPage 0) R.XLT_PKGID_IDVALID == 1
  if n % 2 = 0 then
    let dx := if h = 1 then own + 16 else if h = 3 then own - 16 else if h = 0 then own - 1 else own + 1
    let inMesh := match h with
      | 0 => pkgY own != 0
      | 1 => pkgX own != 15
      | 2 => pkgY own != 15
      | _ => pkgX own != 0
    q.port == 0 && q.hub == (h + 2) % 4 && (!both || (inMesh && q.pkg == dx))
  else q.port == 1 && (!both || pkgBoard q.pkg != pkgBoard own)

/-- An access to GYL_CTL by a caller. -/
def Work.linkAccess (by_ : Caller) (n : Nat) (f : Work → Work) (w : Work) : Work := if n < 8 then w.access by_ (portPage n) f else w

/-- LINKEN written 1: a DISABLED port starts training (R338). -/
def Work.linkOn (n : Nat) (w : Work) : Work :=
  let w := w.set (portPage n) R.GYL_CTL_LINKEN 1
  if w.lstate n = 0 then w.setLstate n 1 else w

/-- An activity or a command of the port ends with it. -/
def Work.portCmdEnd (n : Nat) (st : Status) (w : Work) : Work :=
  let w := (w.finishAct 3 n).finishAct 4 n
  match (w.page (portPage n)).outst with
  | some o => if o.code = 0xB0 ∨ o.code = 0xB1 then w.complete (portPage n) st else w
  | none => w

/-- LINKEN written 0: DISABLED from any state (R338). -/
def Work.linkOff (n : Nat) (w : Work) : Work :=
  let p := portPage n
  let up := w.lstate n == 2
  let w := ((w.set p R.GYL_CTL_LINKEN 0).set p R.GYL_STS_PEERVALID 0).portDown n 0
  let w := if up then w.raise p 17 else w
  w.portCmdEnd n .fault

/-- GYL_LINK_ENABLE. R338. -/
def execGylLinkEnable (by_ : Caller) (hub inst : Nat) (s : State) : Host.Outcome State Fault Refusal :=
  .next (s.run fun w => if inst < 2 then w.linkAccess by_ (2 * hub + inst) fun w => w.linkOn (2 * hub + inst) else w)

/-- GYL_LINK_DISABLE. R338. -/
def execGylLinkDisable (by_ : Caller) (hub inst : Nat) (s : State) : Host.Outcome State Fault Refusal :=
  .next (s.run fun w => if inst < 2 then w.linkAccess by_ (2 * hub + inst) fun w => w.linkOff (2 * hub + inst) else w)

/-- GYL_TRAIN_DONE. R337–R339, R411: the port goes UP at the width the lanes allow once the peer check passes; else it fails. -/
def execGylTrainDone (hub inst lanes : Nat) (peer : PeerInfo) (s : State) : Host.Outcome State Fault Refusal :=
  .next (s.run fun w =>
    let n := 2 * hub + inst
    let p := portPage n
    if 4 ≤ hub ∨ 2 ≤ inst ∨ w.lstate n ≠ 1 then w
    else
      let m := lanes % 2 ^ portLanes n
      let w := ((w.set p R.GYL_STS_PEER peer.pkg).set p R.GYL_STS_PEERPORT (if peer.port = 1 then 4 else peer.hub)).set p R.GYL_STS_PEERVALID 1
      if popcount 40 m < 4 then (w.portFail n).earlyFail.portCmdEnd n .fault
      else if !w.peerOk n peer then ((w.portFail n).logOpen p none none 0xA2 0).earlyFail.portCmdEnd n .fault
      else ((w.portUp n m).raise p 16).portCmdEnd n .done)

/-- GYL_TRAIN_TIMEOUT. R338. -/
def execGylTrainTimeout (hub inst : Nat) (s : State) : Host.Outcome State Fault Refusal :=
  .next (s.run fun w =>
    let n := 2 * hub + inst
    if 4 ≤ hub ∨ 2 ≤ inst ∨ w.lstate n ≠ 1 then w
    else ((w.portFail n).logOpen (portPage n) none none 0xA1 0).earlyFail.portCmdEnd n .fault)

/-- A port retrains (R338): what waits for it is a stall (R346). -/
def Work.retrainStart (n : Nat) (w : Work) : Work := (w.setLstate n 3).stallPort n

/-- A retrain that starts at once (R338): the arbiter records it as running. -/
def Work.retrainNow (n : Nat) (w : Work) : Work := (w.retrainStart n).startNow 3 n

/-- GYL_FEC_LOCK_LOSS. R338. -/
def execGylFecLockLoss (hub inst : Nat) (s : State) : Host.Outcome State Fault Refusal :=
  .next (s.run fun w =>
    let n := 2 * hub + inst
    if 4 ≤ hub ∨ 2 ≤ inst ∨ w.lstate n ≠ 2 then w else w.retrainNow n)

/-- Flits released up to an acknowledged sequence number. -/
def ackUpTo (ack : Nat) (l : List Flit) : List Flit := l.filter fun f => decide ((ack + 65536 - f.seq) % 65536 ≥ 32768)

/-- GYL_FLIT_RX. R341: the acknowledgement it carries, its own acceptance or the NAK that answers it, and the replay a NAK asks for. The messages
of an accepted flit are then the matter of GYL_FORWARD and of the rows of their kinds. A bad CRC is how a codeword shows that the FEC cannot correct. -/
def execGylFlitRx (hub inst : Nat) (flit : Flit) (s : State) : Host.Outcome State Fault Refusal :=
  .next (s.run fun w =>
    let n := 2 * hub + inst
    let p := portPage n
    if 4 ≤ hub ∨ 2 ≤ inst ∨ w.lstate n ≠ 2 then w
    else
      let g := w.port n
      if !flit.crcOk then ((w.count p 2 1).count p 5 1).send (.ack n true ((g.expect + 65535) % 65536))
      else
        let left := ackUpTo flit.ack g.replay
        let fresh := decide (left.length < g.replay.length)
        let w := (w.modPort n fun g => { g with replay := left, naks := (if fresh then 0 else g.naks) + (if flit.nak then 1 else 0) }).showReplay n
        let w := if flit.nak then w.replayAll n else w.flushPort n
        let w := if (w.port n).naks ≥ 16 then (w.modPort n fun g => { g with naks := 0 }).retrainNow n else w
        if flit.idle then w
        else if flit.seq = g.expect then
          ((w.modPort n fun g => { g with expect := (g.expect + 1) % 65536 }).count p 1 1).send (.ack n false flit.seq)
        else w.send (.ack n true ((g.expect + 65535) % 65536)))

/-- GYL_ACK_TIMEOUT. R341. -/
def execGylAckTimeout (hub inst : Nat) (s : State) : Host.Outcome State Fault Refusal :=
  .next (s.run fun w =>
    let n := 2 * hub + inst
    if 4 ≤ hub ∨ 2 ≤ inst ∨ w.lstate n ≠ 2 ∨ (w.port n).replay.isEmpty then w else w.retrainNow n)

def retrainSpec : CmdSpec := { types := [0x16], code := 0xB1 }

/-- The port of a GYL page. -/
def portOf (p : Nat) : Nat := 2 * (dieOf p - 16) + (blockOf p).2

/-- GYL_RETRAIN. R338, R352: once admitted the port retrains; the command completes with the retrain. -/
def execGylRetrain (q : Issue) (s : State) : Host.Outcome State Fault Refusal :=
  .next (s.run fun w => w.command q retrainSpec fun c w =>
    let n := portOf c.page
    w.checked c [(w.lstate n != 2, .state)] fun w =>
      let (go, w) := w.request 3 n (c.page + 1)
      if go then (w.accept c).retrainStart n else w.hold c)

/-- GYL_RETRAIN_DONE. R338, R341: the port is UP with these lanes and replays what it holds; fewer than 4 lanes fail it. -/
def execGylRetrainDone (hub inst lanes : Nat) (s : State) : Host.Outcome State Fault Refusal :=
  .next (s.run fun w =>
    let n := 2 * hub + inst
    let m := lanes % 2 ^ portLanes n
    if 4 ≤ hub ∨ 2 ≤ inst ∨ w.lstate n ≠ 3 then w
    else if popcount 40 m < 4 then (w.portFail n).portCmdEnd n .fault
    else ((w.modPort n fun g => { g with failed := 0, later := [], naks := 0 }).portUp n m).portCmdEnd n .done)

/-- GYL_RETRAIN_TIMEOUT. R338. -/
def execGylRetrainTimeout (hub inst : Nat) (s : State) : Host.Outcome State Fault Refusal :=
  .next (s.run fun w =>
    let n := 2 * hub + inst
    if 4 ≤ hub ∨ 2 ≤ inst ∨ w.lstate n ≠ 3 then w else (w.portFail n).portCmdEnd n .fault)

def scanSpec : CmdSpec :=
  { types := [0x16], code := 0xB0, who := .priv
    resv := fun c => c.arg 0 < 2 && c.addrOk 1 && bits (c.arg 3) 31 10 == 0 && decide (1 ≤ c.arg 3) && decide (c.arg 3 ≤ 1000) && (blockOf c.page).2 == 1 }

/-- A pattern scan starts: the port leaves service (R351). -/
def Work.scanStart (n : Nat) (w : Work) : Work :=
  let up := w.lstate n == 2
  let w := (w.setLstate n 5).stallPort n
  if up then w.raise (portPage n) 17 else w

/-- GYL_SCAN. R351. -/
def execGylScan (q : Issue) (s : State) : Host.Outcome State Fault Refusal :=
  .next (s.run fun w => w.command q scanSpec fun c w =>
    let n := portOf c.page
    let st := w.lstate n
    let a := c.arg64 1
    w.checked c [(!(st == 2 || (st == 4 && c.arg 0 == 1)), .state), (a % 64 != 0 || !w.t1Populated a 256, .bound)] fun w =>
      let w := w.modPort n fun g => { g with scan := some (c.arg 0, a, c.arg 3) }
      if c.arg 0 = 0 then w.accept c
      else
        let (go, w) := w.request 3 n (c.page + 1)
        if go then (w.accept c).scanStart n else w.hold c)

/-- GYL_SCAN_END. R351: the measured lane entries are written; a pattern scan goes on to training. -/
def execGylScanEnd (hub inst : Nat) (rec : List Byte) (s : State) : Host.Outcome State Fault Refusal :=
  .next (s.run fun w =>
    let n := 2 * hub + inst
    let p := portPage n
    match (w.port n).scan with
    | some (mode, a, _) =>
      if 4 ≤ hub ∨ 2 ≤ inst ∨ (mode = 1 ∧ w.lstate n ≠ 5) then w
      else
        let w := w.store a ((rec ++ List.replicate 256 0).take 256)
        let w := (w.modPort n fun g => { g with scan := none }).raise p 19
        let w := w.complete p .done
        if mode = 1 then (w.setLstate n 1).finishAct 3 n else w
    | none => w)

/-- A failed lane of an UP port wants its removal; where fewer than 4 lanes would be left the port fails (R350). A removal goes before a retrain that is still
held; a lane that fails during a removal waits for one of its own (Table 19.7). -/
def Work.laneFails (n lane : Nat) (w : Work) : Work :=
  let g := w.port n
  let m := w.lanes n
  if !bit m lane ∨ bit g.failed lane ∨ w.lstate n ≠ 2 then w
  else if g.failed ≠ 0 then if lane ∈ g.later then w else w.modPort n fun g => { g with later := g.later ++ [lane] }
  else if popcount 40 (m - (m &&& 2 ^ lane)) < 4 then (w.portFail n).portCmdEnd n .fault
  else
    let w := (w.modPort n fun g => { g with failed := 2 ^ lane }).stallPort n
    if w.runs 3 n ∨ w.runs 4 n then (w.request 4 n 0).2 else w.startAct { act := 4, scope := n, stamp := w.now, page := 0 }

/-- GYL_LANE_FAIL. R350. -/
def execGylLaneFail (hub inst lane : Nat) (s : State) : Host.Outcome State Fault Refusal :=
  .next (s.run fun w => if 4 ≤ hub ∨ 2 ≤ inst then w else w.laneFails (2 * hub + inst) lane)

/-- GYL_LANE_REMOVAL. R350: both ends are at the next lower legal width; flits in flight are replayed. Lanes that have failed meanwhile are removed next. -/
def execGylLaneRemoval (hub inst : Nat) (s : State) : Host.Outcome State Fault Refusal :=
  .next (s.run fun w =>
    let n := 2 * hub + inst
    let p := portPage n
    let g := w.port n
    if 4 ≤ hub ∨ 2 ≤ inst ∨ g.failed = 0 ∨ !w.runs 4 n ∨ w.lstate n ≠ 2 then w
    else
      let old := w.lanes n
      let m := keptLanes (old - (old &&& g.failed)) (laneMask g.later)
      let w := (w.modPort n fun g => { g with failed := 0, later := [] }).count p 6 (popcount 40 old - popcount 40 m)
      let w := ((w.laneSet n m).raise p 18).finishAct 4 n
      g.later.foldl (fun (w : Work) lane => w.laneFails n lane) w)

/-! ### Messages (R344–R346) -/

/-- A message taken from die `d`, where it is known, to its next port: sent, made to wait, or turned away. Without a way over the links to the port's hub
it cannot go on either (R13, R346). -/
def Work.forward (n : Nat) (d : Option Nat) (m : Msg) (w : Work) : Work :=
  match w.hop m.dstPkg m.lvl with
  | .here => w
  | .misrouted => (w.count (xltPage 0) 1 1).cannotSend n m 0x20
  | .noRoute => w.cannotSend n m (if m.srcPkg = w.ownPkg then 0x14 else 0x20)
  | .port k lvl =>
    let st := w.lstate k
    let w := d.elim w fun d => w.carry d (16 + k / 2) m.data.length
    if st = 0 ∨ st = 4 ∨ w.cut then { w with cut := false }.cannotSend k m 0x20
    else
      let w := if w.portWaits k ∧ m.srcPkg = w.ownPkg then w.linkStall m.tag true else w
      w.portSend k { m with lvl := lvl }

/-- The die from which a message issued here comes: that of the unit whose access it is; a response's is not told (log entry 23). -/
def Work.msgDie (w : Work) (m : Msg) : Option Nat :=
  if m.vc = 0 then (w.dev.gyl.pend.find? fun t => t.tag = m.tag).map fun t => dieOf t.page else none

/-- GYL_FORWARD. R345, R346: a message that came in on a port (instance 0 or 1) and is not for this package, or the message issued here (instance 2),
goes on. -/
def execGylForward (hub inst : Nat) (m : Msg) (s : State) : Host.Outcome State Fault Refusal :=
  .next (s.run fun w =>
    if inst = 2 then
      if w.dev.gyl.issued.contains m then (w.gyl fun g => { g with issued := g.issued.erase m }).forward 0 (w.msgDie m) m else w
    else if 4 ≤ hub ∨ 2 < inst then w
    else w.forward (2 * hub + inst) (some (16 + hub)) m)

/-- The length and place of an RD or a WR are as R342 asks. -/
def msgOk (m : Msg) : Bool := decide (4 ≤ m.len) && decide (m.len ≤ 4096) && m.len % 4 == 0 && m.addr / 4096 == (m.addr + m.len - 1) / 4096

/-- The hub whose mesh port a message of another package of this board comes in on: the last hop of dimension order (R345). From another board the manual
leaves the port to the route tables of packages on the way (log entry 23). -/
def Work.arrivalHub (w : Work) (src : Nat) : Option Nat :=
  let own := w.ownPkg
  if src = own ∨ pkgBoard src ≠ pkgBoard own then none
  else some (if pkgY src < pkgY own then 0 else if pkgY own < pkgY src then 2 else if pkgX src < pkgX own then 3 else 1)

/-- What a message that has come in does: its accesses take the links from the hub it came in on (R12); without a way it is answered NACK (R13, R346). -/
def Work.arrived (m : Msg) (f : Work → Work) (w : Work) : Work :=
  let w' := f { w with at_ := (w.arrivalHub m.srcPkg).map fun h => gylPage h 0 }
  if w'.cut then w.respond m 6 0x20 [] else w'

/-- Data that a message brings taken to a die. -/
def Work.bring (d n : Nat) (w : Work) : Work := w.at_.elim w fun p => w.carry (dieOf p) d n

/-- GYL_RD. R342, R146: memory of this package read under the partition of the header. -/
def execGylRd (m : Msg) (s : State) : Host.Outcome State Fault Refusal :=
  .next (s.run fun w =>
    if m.kind ≠ 1 ∨ m.dstPkg ≠ w.ownPkg then w
    else if !msgOk m then w.respond m 6 0x1F []
    else if !w.readable m.part m.addr m.len then w.respond m 6 0x14 []
    else w.arrived m fun w =>
      let src := if t3Base ≤ m.addr then hostA (w.hostOf m.addr) else m.addr
      let w := w.readAny m.addr m.len
      w.respond m 3 (if w.poisoned src m.len then 0x1E else 0) (w.rdN src m.len))

/-- A mirror record arrives (R378): the entry of its index, where it is not in use, is held for the partition; one of a FREE entry ends the hold. -/
def Work.mirrorArrives (part a : Nat) (w : Work) : Work :=
  (List.range 4).foldl (fun (w : Work) h =>
    let base := w.get (rqtPage h) R.RQT_MIRBASE_LO_MB_LO * 2048 + 2 ^ 32 * w.get (rqtPage h) R.RQT_MIRBASE_HI_MB_HI
    if base ≠ 0 ∧ base ≤ a ∧ a < base + 2048 * 2048 ∧ (a - base) % 2048 = 0 ∧ (w.req (2048 * h + (a - base) / 2048)).state = 0 then
      w.modReq (2048 * h + (a - base) / 2048) fun r => if w.le a 1 % 16 = 0 then {} else { r with held := true, part := part }
    else w) w

/-- The sender of a message to a window, as the window judges it (R134). -/
def msgAcct (m : Msg) (d mc i : Nat) : Account :=
  { pkg := m.srcPkg, die := 0, ctx := 0, part := m.part, tpkg := m.dstPkg, tdie := d, tmc := mc, twin := i }

/-- GYL_WR. R344, R137, R139: data written under the partition of the header, in tier 1 or in a window that admits the sender, and answered WRACK. -/
def execGylWr (m : Msg) (s : State) : Host.Outcome State Fault Refusal :=
  .next (s.run fun w =>
    if m.kind ≠ 2 ∨ m.dstPkg ≠ w.ownPkg then w
    else if !msgOk m ∨ m.data.length ≠ m.len then w.respond m 6 0x1F []
    else match remoteParts m.addr with
    | some (_, d, mc, i, off) =>
      let p := mcPage d mc
      let test := w.openElsewhere p i
      let v := w.savedView p test
      if w.fenced d then w.respond m 6 0x20 []
      else if d < 16 ∧ v.winState p i = 1 ∧ v.admits p i (msgAcct m d mc i) ∧ off + m.len ≤ v.get p (R.MC_WGEOM_SIZEU.i i) * 4096 then
        w.arrived m fun w => (w.forSaved p test fun w => (w.bring d m.len).windowWrite p i off m.data).respond m 4 0 []
      else w.respond m 6 0x14 []
    | none =>
      if !w.inT1 m.part m.addr m.len then w.respond m 6 0x14 []
      else w.arrived m fun w =>
        let w := w.store m.addr m.data
        let w := if m.status = 0x1E then w.tagRange m.addr m.len true else w
        (w.mirrorArrives m.part m.addr).respond m 4 0 [])

/-- GYL_ATOM. R342: the 64-bit word takes what the operation makes of it, which the manual does not state; the answer carries the word before. -/
def execGylAtom (m : Msg) (s : State) : Host.Outcome State Fault Refusal :=
  .next (s.run fun w =>
    if m.kind ≠ 7 ∨ m.dstPkg ≠ w.ownPkg then w
    else if m.addr % 8 ≠ 0 ∨ m.data.length ≠ 8 then w.respond m 6 0x1F []
    else if !w.inT1 m.part m.addr 8 then w.respond m 6 0x14 []
    else w.arrived m fun w =>
      let old := w.rdN m.addr 8
      let w := w.readLines m.addr 8
      let bad := w.poisoned m.addr 8
      let (v, w) := w.fresh
      (w.storeLE m.addr 8 v.toNat).respond m 3 (if bad then 0x1E else 0) old)

/-- GYL_RDRSP. R342: read data delivered to the place the issuing unit asked for, poison with it. -/
def execGylRdrsp (m : Msg) (s : State) : Host.Outcome State Fault Refusal :=
  .next (s.run fun w =>
    if m.kind ≠ 3 ∨ m.dstPkg ≠ w.ownPkg then w
    else match w.dev.gyl.pend.find? fun t => t.tag = m.tag with
      | none => w
      | some t =>
        let w := { w.gyl (fun g => { g with pend := g.pend.erase t }) with at_ := (w.arrivalHub m.srcPkg).map fun h => gylPage h 0 }
        if t.kind = 1 ∨ t.kind = 4 then
          let w := w.store t.dst m.data
          (if m.status = 0x1E then w.tagRange t.dst m.data.length true else w).cutFault (some t.ctx) t.page
        else w)

/-- GYL_WRACK. R344: the write has been accepted. -/
def execGylWrack (m : Msg) (s : State) : Host.Outcome State Fault Refusal :=
  .next (s.run fun w =>
    if m.kind ≠ 4 ∨ m.dstPkg ≠ w.ownPkg then w
    else match w.dev.gyl.pend.find? fun t => t.tag = m.tag with
      | none => w
      | some t => w.gyl fun g => { g with pend := g.pend.erase t })

/-- GYL_NACK. R346, R377. -/
def execGylNack (m : Msg) (s : State) : Host.Outcome State Fault Refusal :=
  .next (s.run fun w => if m.kind ≠ 6 ∨ m.dstPkg ≠ w.ownPkg then w else w.nacked m.tag m.status)

/-- The accesses of a context that wait are forgotten. -/
def Work.gylDrop (c : Nat) (w : Work) : Work := w.gyl fun g => { g with pend := g.pend.filter fun t => t.ctx != c }

end Sys2Proof.Machine
end

