-- ==== Sys2Proof/Machine/Hawkmoth.lean ====
section
/-!
DEFINITION. Hawkmoth.lean: attention jobs, their tasks, the online softmax, the merge, and the backward pass (R192–R214).
-/
namespace Sys2Proof.Machine

def Work.hwk (f : Hawkmoth → Hawkmoth) (w : Work) : Work := w.d fun d => { d with hwk := f d.hwk }
def engKey (d e : Nat) : Nat := d * 8 + e
def Work.eng (w : Work) (k : Nat) : HwkEng := SMap.at {} w.dev.hwk.engs k
def Work.modEng (k : Nat) (f : HwkEng → HwkEng) (w : Work) : Work := w.hwk fun h => { h with engs := SMap.mod {} h.engs k f }
/-- The list that an HWK page has outstanding. -/
def Work.hlist (w : Work) (p : Nat) : Option HwkList := SMap.at none w.dev.hwk.lists p
def Work.modHlist (p : Nat) (f : HwkList → HwkList) (w : Work) : Work :=
  w.hwk fun h => { h with lists := SMap.mod none h.lists p fun l => l.map f }

/-! ### Job descriptors (Table 11.2) -/

/-- A job descriptor: its 128 bytes as a number. -/
structure HwkJob where
  x : Nat

def HwkJob.rq (j : HwkJob) : Nat := bits j.x 12 0
def HwkJob.plane (j : HwkJob) : Nat := bits j.x 14 13
def HwkJob.paged (j : HwkJob) : Bool := !bit j.x 15
def HwkJob.kvfmt (j : HwkJob) : Nat := bits j.x 19 16
def HwkJob.qfmt (j : HwkJob) : Nat := bits j.x 23 20
def HwkJob.dcode (j : HwkJob) : Nat := bits j.x 26 24
def HwkJob.g (j : HwkJob) : Nat := bits j.x 30 27 + 1
def HwkJob.bwd (j : HwkJob) : Bool := bit j.x 31
def HwkJob.layer (j : HwkJob) : Nat := bits j.x 39 32
def HwkJob.head (j : HwkJob) : Nat := bits j.x 47 40
def HwkJob.hkv (j : HwkJob) : Nat := bits j.x 55 48
def HwkJob.causal (j : HwkJob) : Bool := bit j.x 56
def HwkJob.winen (j : HwkJob) : Bool := bit j.x 57
def HwkJob.seg (j : HwkJob) : Bool := bit j.x 58
def HwkJob.tree (j : HwkJob) : Bool := bit j.x 59
def HwkJob.oconv (j : HwkJob) : Nat := bits j.x 63 60
def HwkJob.clen (j : HwkJob) : Nat := bits j.x 88 64
def HwkJob.nnew (j : HwkJob) : Nat := bits j.x 120 96
def HwkJob.chunkc (j : HwkJob) : Nat := bits j.x 124 121
def HwkJob.qpos (j : HwkJob) : Nat := bits j.x 152 128
def HwkJob.kpos (j : HwkJob) : Nat := bits j.x 184 160
def HwkJob.nq (j : HwkJob) : Nat := bits j.x 207 192
def HwkJob.win (j : HwkJob) : Nat := bits j.x 247 224
def HwkJob.scale2 (j : HwkJob) : Nat := bits j.x 287 256
/-- The address field at a byte. -/
def HwkJob.addr (j : HwkJob) (byte : Nat) : Nat := bits j.x (8 * byte + 47) (8 * byte)
def HwkJob.q (j : HwkJob) : Nat := j.addr 40
def HwkJob.new (j : HwkJob) : Nat := j.addr 48
def HwkJob.o (j : HwkJob) : Nat := j.addr 56
def HwkJob.aux (j : HwkJob) : Nat := j.addr 64
def HwkJob.dO (j : HwkJob) : Nat := j.addr 72
def HwkJob.dQ (j : HwkJob) : Nat := j.addr 80
def HwkJob.dK (j : HwkJob) : Nat := j.addr 88
def HwkJob.dV (j : HwkJob) : Nat := j.addr 96

/-- Head dimension D (Table 11.1). -/
def HwkJob.d (j : HwkJob) : Nat := [64, 96, 128, 192, 256].getD j.dcode 64
/-- Bytes of a row of D elements in a format (R193). -/
def fmtRow (fmt d : Nat) : Nat := if fmt = 1 then 2 * d else if fmt = 5 ∨ fmt = 6 then d / 32 * 33 else d
def HwkJob.rb (j : HwkJob) : Nat := fmtRow j.kvfmt j.d
def HwkJob.qrow (j : HwkJob) : Nat := fmtRow j.qfmt j.d
/-- Bytes of an output element. -/
def HwkJob.osz (j : HwkJob) : Nat := if j.oconv = 0 then 4 else 2
/-- Keys taken from the cache, and all keys (R197). -/
def HwkJob.cached (j : HwkJob) : Nat := if j.paged then j.clen else 0
def HwkJob.keys (j : HwkJob) : Nat := j.cached + j.nnew
def HwkJob.rows (j : HwkJob) : Nat := j.nq * j.g
/-- Where row statistics begin (R195). -/
def HwkJob.stat (j : HwkJob) : Nat := ceilDiv (j.o + j.rows * j.d * j.osz) 128 * 128
/-- Where query segment numbers begin (R200). -/
def HwkJob.qseg (j : HwkJob) : Nat := ceilDiv (j.aux + 2 * j.nnew) 64 * 64

/-! ### Row groups, chunks, tasks (R201) -/

def HwkJob.groupPos (j : HwkJob) : Nat := 16 / j.g
def HwkJob.ngroups (j : HwkJob) : Nat := ceilDiv j.nq j.groupPos
/-- Keys of a whole chunk. -/
def HwkJob.chunk (j : HwkJob) : Nat := if j.chunkc = 15 then max 1 j.keys else 64 * 2 ^ j.chunkc
/-- Chunks of a row group; a job without keys has one (log entry 59). -/
def HwkJob.nch (j : HwkJob) : Nat := max 1 (ceilDiv j.keys j.chunk)
/-- Tasks: one per row group and chunk; of a backward job one per chunk (R211); none without queries. -/
def HwkJob.ntasks (j : HwkJob) : Nat := if j.nq = 0 then 0 else if j.bwd then j.nch else j.ngroups * j.nch
/-- Bytes of a record of the partial area (R206). -/
def HwkJob.record (j : HwkJob) : Nat := 16 * (8 + 4 * j.d)
/-- A job's need (R202). -/
def HwkJob.need (j : HwkJob) : Nat := if j.nch > 1 then j.ngroups * j.nch * j.record else 0
/-- The rows of a row group. -/
def HwkJob.groupRows (j : HwkJob) (rg : Nat) : List Nat :=
  let first := rg * j.groupPos * j.g
  (List.range (min j.rows (first + j.groupPos * j.g) - first)).map (first + ·)
/-- Blocks of a chunk, and the keys of block b of a chunk. -/
def HwkJob.chunkKeys (j : HwkJob) (ch : Nat) : Nat := min j.keys ((ch + 1) * j.chunk) - ch * j.chunk
def HwkJob.nblocks (j : HwkJob) (ch : Nat) : Nat := ceilDiv (j.chunkKeys ch) 64
def HwkJob.blockKeys (j : HwkJob) (ch b : Nat) : List Nat :=
  (List.range (min 64 (j.chunkKeys ch - 64 * b))).map (ch * j.chunk + 64 * b + ·)

/-! ### Visibility (R197–R200) -/

/-- A word of the tree bitmap. -/
def Work.treeWord (w : Work) (j : HwkJob) (i : Nat) : Nat := w.le (j.aux + 8 * i) 8
/-- Position of a key and of a query. -/
def HwkJob.keyPos (j : HwkJob) (k : Nat) : Nat := if j.paged then k else j.kpos + k
def Work.queryPos (w : Work) (j : HwkJob) (i : Nat) : Nat :=
  if j.tree then j.clen + popcount 64 (w.treeWord j i) - 1 else j.qpos + i

/-- Key k is visible to the rows of query position i by CAUSAL, WINEN and TREE. -/
def Work.maskSees (w : Work) (j : HwkJob) (i k : Nat) : Bool :=
  let pk := j.keyPos k
  let pq := w.queryPos j i
  if j.tree && decide (j.cached ≤ k) then bit (w.treeWord j i) (k - j.cached)
  else (!j.causal || decide (pk ≤ pq)) && (!j.winen || decide (pq < pk + j.win))

/-- Key k is visible to the rows of query position i (R198). -/
def Work.sees (w : Work) (j : HwkJob) (i k : Nat) : Bool :=
  w.maskSees j i k && (!j.seg || w.le (j.aux + 2 * k) 2 == w.le (j.qseg + 2 * i) 2)

/-- The query positions of a row group. -/
def HwkJob.groupQ (j : HwkJob) (rg : Nat) : List Nat :=
  (List.range (min j.nq ((rg + 1) * j.groupPos) - rg * j.groupPos)).map (rg * j.groupPos + ·)

/-- A block that some row of the group may see; any other is skipped (R201). -/
def Work.blockLive (w : Work) (j : HwkJob) (rg : Nat) (ks : List Nat) : Bool := ks.any fun k => (j.groupQ rg).any fun i => w.maskSees j i k

/-! ### The checks of HWK_RUN (Table 11.3) -/

/-- A list as HWK_RUN names it. -/
structure HwkAsk where
  page : Nat
  ctx : Nat
  list : Nat
  njob : Nat
  mask : Nat
  part : Nat
  size : Nat
  res : Nat
  done : Option (Nat × Nat)

/-- Job n of a list. -/
def Work.hjob (w : Work) (list n : Nat) : HwkJob := ⟨w.le (list + 128 * n) 128⟩

/-- The arrays of a job: addresses and lengths. -/
def HwkJob.arrays (j : HwkJob) : List (Nat × Nat) :=
  [(j.q, j.rows * j.qrow), (j.new, 2 * j.nnew * j.rb), (j.o, j.stat + 4 * j.rows - j.o)] ++
    (if j.tree then [(j.aux, 8 * j.nnew)] else if j.seg then [(j.aux, j.qseg + 2 * j.nq - j.aux)] else []) ++
    (if j.bwd then [(j.dO, j.rows * j.d * 2), (j.dQ, j.rows * j.d * 4), (j.dK, j.nnew * j.d * 4), (j.dV, j.nnew * j.d * 4)] else [])

def Work.jobBound (w : Work) (part : Nat) (j : HwkJob) : Bool :=
  (j.arrays.any fun a => a.1 % 64 != 0 || !w.inT1 part a.1 a.2) ||
    (j.paged && !((w.tab j.rq).reg && (w.tab j.rq).part == part))

/-- Reserved fields and codes, and the rules of the mask options. -/
def Work.jobUnknown (w : Work) (j : HwkJob) : Bool :=
  let x := j.x
  let resv := [(95, 89), (127, 125), (159, 153), (191, 185), (223, 208), (255, 248), (319, 288), (1023, 832)].any fun r => bits x r.1 r.2 != 0
  let addrs := (List.range 8).any fun n => bits x (320 + 64 * n + 63) (320 + 64 * n + 48) != 0
  let unused := (!j.bwd && (List.range 4).any fun n => bits x (576 + 64 * n + 63) (576 + 64 * n) != 0) || (j.paged && j.kpos != 0)
  let codes := !([1, 3, 4, 5, 6] : List Nat).contains j.kvfmt || (j.qfmt != 1 && j.qfmt != j.kvfmt) || decide (j.dcode > 4) || decide (j.oconv > 2) ||
    j.chunkc == 13 || j.chunkc == 14
  let tree := j.tree && (!j.paged || j.bwd || j.nnew == 0 || decide (j.nnew > 64) || j.nq != j.nnew ||
    (List.range j.nnew).any fun i => !bit (w.treeWord j i) i || decide (2 ^ (i + 1) ≤ w.treeWord j i))
  resv || addrs || unused || codes || decide (j.hkv ≤ j.head) || (j.winen && j.win == 0) || (j.paged && (j.seg || j.bwd)) || tree

/-- The limits of Table 11.1 and of the request. -/
def Work.jobShape (w : Work) (j : HwkJob) : Bool :=
  let t := w.tab j.rq
  decide (j.clen > 2 ^ 22) || decide (j.nnew > 2 ^ 22) || decide (j.qpos + j.nq > 2 ^ 24) || decide (j.kpos + j.nnew > 2 ^ 24) ||
    decide (j.nch > 4096) ||
    (j.paged && (decide (w.tPlanes t ≤ j.plane) || decide (j.clen > (w.req j.rq).clen) ||
      decide (((j.layer * 2 + 1) * j.hkv + j.head + 1) * j.rb > 2 ^ w.tshift (w.tTag t j.plane))))

/-- The records that the engines of MASK keep at the head of the partial area. -/
def engineRecs (mask : Nat) : Nat := 16576 * popcount 8 mask

/-- The first failing check of Table 11.3 and the first job that fails it. A list of no jobs is UNKNOWN (DESIGN CHOICE, log entry 72). -/
def Work.hwkCheck (w : Work) (a : HwkAsk) : Option (Status × Nat) :=
  let part := (w.ctx a.ctx).part
  let ixs := List.range a.njob
  let js := fun n => w.hjob a.list n
  let some1 := fun (st : Status) (f : Nat → Bool) => (ixs.find? f).map fun n => (st, n)
  if a.list % 128 != 0 || a.part % 64 != 0 || a.res % 64 != 0 || !w.inT1 part a.list (128 * a.njob) || !w.inT1 part a.part (1024 * a.size) ||
      !w.inT1 part a.res (4 * a.njob) then some (.bound, 0)
  else match some1 .bound fun n => w.jobBound part (js n) with
  | some e => some e
  | none => match some1 .poison fun n => w.poisoned (a.list + 128 * n) 128 || ((js n).tree && w.poisoned (js n).aux (8 * (js n).nnew)) with
  | some e => some e
  | none => match if a.njob = 0 then some (.unknown, 0) else some1 .unknown fun n => w.jobUnknown (js n) with
  | some e => some e
  | none =>
    let d := dieOf a.page
    if ((List.range 8).any fun e => bit a.mask e && (w.page (hwkPage d e)).ctx != some a.ctx) ||
        (match a.done with | some (ldie, e) => (w.goSite a.ctx ldie e).isNone | none => false) then some (.owner, 0)
    else match some1 .shape fun n => w.jobShape (js n) with
    | some e => some e
    | none => some1 .capacity fun n => decide (engineRecs a.mask + (js n).need > 1024 * a.size)

/-- A list that passes: each PAGED job registers the published generation (R208), and the list is outstanding. -/
def Work.hwkStart (a : HwkAsk) (mover : Bool) (w : Work) : Work :=
  let w := (List.range a.njob).foldl (fun (w : Work) n => if (w.hjob a.list n).paged then w.walkerIn (w.hjob a.list n).rq else w) w
  let gens := (List.range a.njob).map fun n => (n, if (w.hjob a.list n).paged then some (w.tab (w.hjob a.list n).rq).gen else none)
  let l : HwkList :=
    { ctx := a.ctx, addr := a.list, njob := a.njob, mask := a.mask, part := a.part, size := 1024 * a.size, res := a.res
      go := a.done.bind fun e => w.goSite a.ctx e.1 e.2
      stamp := w.now, gens := gens.filter fun e => e.2 != none, next := 0, jobs := [], ended := 0, mover := mover }
  ((w.hwk fun h => { h with lists := SMap.put none h.lists a.page (some l) }).set a.page R.HWK_LSTS_JOBSDONE 0).set a.page R.HWK_LSTS_ACTIVE 1

def hwkRunSpec : CmdSpec :=
  { types := [5], code := 0x50, states := [.bound, .running]
    resv := fun c => c.addrOk 0 && c.addrOk 3 && c.addrOk 6 && bits (c.arg 2) 31 24 == 0 && bits (c.arg 5) 31 24 == 0 && bits (c.arg 8) 31 21 == 0 &&
      bits (c.arg 8) 15 13 == 0
    legal := fun c w => (w.page c.page).ctx.isSome }

/-- The list and the tree bitmaps that it names read by the engines that check it. -/
def Work.readJobs (a : HwkAsk) (w : Work) : Work :=
  let part := (w.ctx a.ctx).part
  if !w.inT1 part a.list (128 * a.njob) then w
  else (List.range a.njob).foldl (fun (w : Work) n =>
    let j := w.hjob a.list n
    if j.tree && w.inT1 part j.aux (8 * j.nnew) then w.readLines j.aux (8 * j.nnew) else w) (w.readLines a.list (128 * a.njob))

/-- HWK_RUN. R194, R208: accepted; a list that fails a check of Table 11.3 executes nothing. A page without a context has none to run it for: STATE. -/
def execHwkRun (q : Issue) (s : State) : Host.Outcome State Fault Refusal :=
  .next (s.run fun w => w.command q hwkRunSpec fun c w =>
    let p := c.page
    -- the page may also run a list that a Ringlet mover has issued
    w.checked c [((w.hlist p).isSome, .busy)] fun w =>
      let a : HwkAsk :=
        { page := p, ctx := (w.page p).ctx.getD 0, list := c.arg64 0, njob := bits (c.arg 2) 15 0, mask := bits (c.arg 2) 23 16
          part := c.arg64 3, size := bits (c.arg 5) 23 0, res := c.arg64 6
          done := if bit (c.arg 8) 20 then some (bits (c.arg 8) 19 16, bits (c.arg 8) 15 0) else none }
      let bad := w.hwkCheck a
      let w := (w.accept c).readJobs a
      match bad with
      | none => w.hwkStart a false
      | some (st, n) => ((w.set p R.HWK_LFAIL_FAILJOB n).set p R.HWK_LFAIL_CODE st.code).settle p st)

/-! ### Taking and stealing (R202) -/

/-- HWK_DEQUE of an engine. -/
def Work.showDeque (d e : Nat) (w : Work) : Work := w.set (hwkPage d e) R.HWK_DEQUE_DEPTH (w.eng (engKey d e)).deque.length

/-- Task n of a job. -/
def HwkJob.task (j : HwkJob) (page ix n : Nat) : HwkTask :=
  if j.bwd then ⟨page, ix, 0, n⟩ else ⟨page, ix, n / j.nch, n % j.nch⟩

/-- Tasks that found no room are pushed as the deque gets room, in their order; the first of the list is the near end. -/
def Work.feedDeque (d e : Nat) : Nat → Work → Work
  | 0, w => w.showDeque d e
  | f + 1, w =>
    let g := w.eng (engKey d e)
    match g.feed with
    | [] => w.showDeque d e
    | (page, ix, n) :: rest =>
      if g.deque.length ≥ 32 then w.showDeque d e
      else match w.hlist page with
        | none => Work.feedDeque d e f (w.modEng (engKey d e) fun g => { g with feed := rest })
        | some l =>
          let j := w.hjob l.addr ix
          let next := if n + 1 < j.ntasks then (page, ix, n + 1) :: rest else rest
          Work.feedDeque d e f (w.modEng (engKey d e) fun g => { g with deque := j.task page ix n :: g.deque, feed := next })

/-- The next job of a list has a place in the partial area: the lowest free place that holds its need. -/
def HwkList.place (l : HwkList) (need : Nat) : Option Nat :=
  let base := engineRecs l.mask
  let used := l.jobs.filter fun e => e.2.need != 0
  let spots := base :: used.map fun e => e.2.off + e.2.need
  if need = 0 then some base
  else (spots.filter fun o => decide (o + need ≤ l.size) &&
      used.all fun e => decide (o + need ≤ e.2.off) || decide (e.2.off + e.2.need ≤ o)).foldl
    (fun (m : Option Nat) o => some (match m with | some x => min x o | none => o)) none

/-- A job whose tasks are all complete: its result word; its generation deregistered; its place in the partial area free (R196, R208). -/
def Work.endJob (page ix : Nat) (w : Work) : Work :=
  match w.hlist page with
  | none => w
  | some l =>
    let st := SMap.at {} l.jobs ix
    let w := w.storeLE (l.res + 4 * ix) 4 (1 + st.flags)
    let w := match SMap.at none l.gens ix with
      | some g => w.walkerOut (w.hjob l.addr ix).rq g
      | none => w
    let w := w.modHlist page fun l => { l with jobs := SMap.drop l.jobs ix, gens := SMap.drop l.gens ix, ended := l.ended + 1 }
    (w.set page R.HWK_LSTS_JOBSDONE (l.ended + 1)).count page 0 1

/-- The list of a die from which an engine takes its next job: the oldest of its context that names it and has jobs left. -/
def Work.takeFrom (w : Work) (d e c : Nat) : Option (Nat × HwkList) :=
  (w.dev.hwk.lists.filterMap fun x => x.2.bind fun l =>
      if dieOf x.1 = d ∧ l.ctx = c ∧ bit l.mask e ∧ l.next < l.njob then some (x.1, l) else none).foldl
    (fun (m : Option (Nat × HwkList)) x => match m with
      | some y => if x.2.stamp < y.2.stamp then some x else some y
      | none => some x) none

/-- HWK_JOB_TAKE. R202: an engine with an empty deque takes the next job once the partial area has room for it, and pushes its tasks. -/
def execHwkJobTake (die eng : Nat) (s : State) : Host.Outcome State Fault Refusal :=
  .next (s.run fun w =>
    let g := w.eng (engKey die eng)
    match w.worksFor (hwkPage die eng) with
    | some c =>
      if 16 ≤ die ∨ 8 ≤ eng ∨ !g.deque.isEmpty ∨ !g.feed.isEmpty then w
      else match w.takeFrom die eng c with
        | none => w
        | some (page, l) =>
          let j := w.hjob l.addr l.next
          match l.place j.need with
          | none => w
          | some off =>
            let w := w.modHlist page fun l =>
              { l with next := l.next + 1, jobs := SMap.put {} l.jobs l.next { off := off, need := j.need, taken := true } }
            if j.ntasks = 0 then w.endJob page l.next
            else (w.modEng (engKey die eng) fun g => { g with feed := [(page, l.next, 0)] }).feedDeque die eng 33
    | none => w)

/-- HWK_STEAL. R202: an idle engine takes a task from the far end of another deque of its context, of its own die where one has a task, else
of its quadrant. -/
def execHwkSteal (die eng vdie veng : Nat) (s : State) : Host.Outcome State Fault Refusal :=
  .next (s.run fun w =>
    let k := engKey die eng
    let g := w.eng k
    let v := w.eng (engKey vdie veng)
    match w.worksFor (hwkPage die eng) with
    | some c =>
      let theirs := fun (d e : Nat) => (w.page (hwkPage d e)).ctx == some c && !(w.eng (engKey d e)).deque.isEmpty
      let near := (List.range 8).any fun e => e != eng && theirs die e
      if 16 ≤ die ∨ 8 ≤ eng ∨ 16 ≤ vdie ∨ 8 ≤ veng ∨ vdie / 4 ≠ die / 4 ∨ (vdie = die ∧ veng = eng) ∨ !g.deque.isEmpty ∨ !g.feed.isEmpty ∨
          g.cur.isSome ∨ !theirs vdie veng ∨ (vdie ≠ die ∧ near) then w
      else match v.deque.getLast? with
        | none => w
        | some t =>
          let w := (w.modEng (engKey vdie veng) fun x => { x with deque := x.deque.dropLast }).feedDeque vdie veng 33
          ((w.modEng k fun x => { x with deque := [t] }).showDeque die eng).count (hwkPage die eng) 2 1
    | none => w)

/-! ### Arithmetic of a block (R203, R204) -/

/-- The values of a row of D elements in a format (R106, R193). -/
def Work.rowVals (w : Work) (fmt d a : Nat) : List Fv :=
  if fmt = 5 ∨ fmt = 6 then
    (List.range d).map fun i => scaleE8 (w.rd (a + i / 32 * 33 + 32)).toNat ((elemOf fmt).2 (w.rd (a + i / 32 * 33 + i % 32)).toNat)
  else
    let x := w.le a (fmtRow fmt d)
    (List.range d).map (elemAt fmt x)

/-- An accumulator plus an exact sum, rounded once (R110). -/
def sum32 (acc : Nat) (terms : List Fv) : Nat := toF32 (sumFv (ofF32 acc :: terms))

/-- A list cut into groups of 32. -/
def by32 : Nat → List Fv → List (List Fv)
  | 0, _ => []
  | n + 1, l => l.take 32 :: by32 n (l.drop 32)

/-- Σ x_d × y_d in groups of 32 along d, one rounding each, from +0.0 (R203). -/
def dot32 (d : Nat) (x y : List Fv) : Nat := (by32 (d / 32) (List.zipWith Fv.mul x y)).foldl sum32 0

/-- A value rounded to BF16. -/
def bf16Of (x : Nat) : Fv := bf16.decode (bf16.round rne .toInf (ofF32 x)).1

/-- One block for one row (R204): the scaled scores of its 64 keys, none where masked or past the last key, and the values of the keys. -/
def HwkRow.block (r : HwkRow) (ts : List (Option Nat)) (vs : List (List Fv)) : HwkRow :=
  let mb := ts.foldl (fun a t => f32Max a (t.getD ninf32)) r.m
  if mb = ninf32 then r
  else
    let a := if r.m = mb then 0x3F800000 else if r.m = ninf32 then 0 else f32Exp2 (f32Sub r.m mb)
    let ps := ts.map fun t => match t with
      | some t => bf16Of (f32Exp2 (f32Sub t mb))
      | none => .fin false 0 0
    let l := (by32 2 ps).foldl sum32 (f32Mul a r.l)
    let o := (List.range r.o.length).map fun d =>
      let pv := List.zipWith (fun p v => p.mul (v.getD d (.fin false 0 0))) ps vs
      (by32 2 pv).foldl sum32 (f32Mul a (r.o.getD d 0))
    { m := mb, l := l, o := o }

/-! ### Fetching (R197, R201, R208) -/

/-- The page cache of an engine looks up a page-table row: the entry comes first, the least recently used of 64 gives way. Whether it missed. -/
def HwkEng.lookUp (g : HwkEng) (e : List Nat) : Bool × HwkEng :=
  (!g.cache.contains e, { g with cache := (e :: g.cache.filter (· != e)).take 64 })

/-- Where the key and the value row of a key lie; none where the walk faults. -/
def Work.kvAt (w : Work) (j : HwkJob) (gen k : Nat) : Option (Nat × Nat) :=
  if k < j.cached then
    (w.walk (w.tab j.rq) gen k j.plane).map fun (a, kc, tok) =>
      (a + kvOffset kc j.hkv j.rb j.layer 0 j.head tok, a + kvOffset kc j.hkv j.rb j.layer 1 j.head tok)
  else some (j.new + (k - j.cached) * j.rb, j.new + (j.nnew + (k - j.cached)) * j.rb)

/-- The lines that resolving a cache key reads: the table's header, and the row where the key is paged. -/
def Work.walkLines (w : Work) (j : HwkJob) (gen k : Nat) : List (Nat × Nat) :=
  let t := w.tab j.rq
  if k < j.cached then
    (t.addr, 128) :: (if k < w.tPaged t (gen % 2) then
      match w.walkRow t (gen % 2) k with
      | some (row, _, _) => [(w.tRowAt t (gen % 2) row, 8 * w.tPlanes t)]
      | none => []
    else [])
  else []

/-- The page-table rows that the cache keys of a block lie in, each looked up in the engine's page cache. -/
def Work.lookUps (d e : Nat) (j : HwkJob) (gen : Nat) (ks : List Nat) (w : Work) : Work :=
  let t := w.tab j.rq
  let rows := (ks.filterMap fun k =>
    if k < j.cached ∧ k < w.tPaged t (gen % 2) then (w.walkRow t (gen % 2) k).map (·.1) else none).eraseDups
  rows.foldl (fun (w : Work) r =>
    let (miss, g) := (w.eng (engKey d e)).lookUp [j.rq, j.plane, gen, r]
    let w := w.modEng (engKey d e) fun _ => g
    if miss then w.count (hwkPage d e) 5 1 else w) w

/-- What a block of a row group reads: query rows, key rows, value rows, segment and bitmap lines. -/
def Work.blockReads (_w : Work) (j : HwkJob) (rg : Nat) (ks : List Nat) (kv : List (Nat × Nat)) : List (Nat × Nat) :=
  let rows := j.groupRows rg
  [(j.q + rows.headD 0 * j.qrow, rows.length * j.qrow)] ++ kv.map (fun a => (a.1, j.rb)) ++ kv.map (fun a => (a.2, j.rb)) ++
    (if j.seg then [(j.aux + 2 * ks.headD 0, 2 * ks.length), (j.qseg + 2 * (j.groupQ rg).headD 0, 2 * (j.groupQ rg).length)] else []) ++
    (if j.tree then [(j.aux, 8 * j.nnew)] else [])

/-- What a task consumes read: where a line of it is poisoned, a contained fault of the context (R210). -/
def Work.hwkRead (c p : Nat) (ranges : List (Nat × Nat)) (f : Work → Work) (w : Work) : Work :=
  match ranges.find? fun r => w.poisoned r.1 r.2 with
  | some r => (w.readLines r.1 r.2).ctxFault c p 0x1E none
  | none => f (w.readRanges ranges)

/-! ### The backward pass (R211) -/

/-- σ = RNE(SCALE2 × 0.693 147 2) (log entry 60). -/
def HwkJob.sigma (j : HwkJob) : Nat := f32Mul j.scale2 0x3F317218

/-- The record of a row group's chunk. -/
def HwkJob.recAt (j : HwkJob) (l : HwkList) (ix rg ch : Nat) : Nat := l.part + (SMap.at {} l.jobs ix).off + (rg * j.nch + ch) * j.record

/-- Where a backward task adds up dQ of a row: the output itself where there is one chunk, else its contribution in the partial area. -/
def HwkJob.dqAt (j : HwkJob) (l : HwkList) (ix ch r : Nat) : Nat :=
  if j.nch = 1 then j.dQ + r * j.d * 4
  else
    let rg := r / (j.groupPos * j.g)
    j.recAt l ix rg ch + (r - rg * j.groupPos * j.g) * 4 * j.d

/-- FP32 values at an address. -/
def Work.f32s (w : Work) (a n : Nat) : List Nat := (List.range n).map fun i => w.le (a + 4 * i) 4
def Work.putF32s (a : Nat) (l : List Nat) (w : Work) : Work := w.store a (l.map (natLE 4)).flatten

/-- The sums of a backward task begin at +0.0: dK and dV of its keys, dQ of every row. -/
def Work.bwdStart (j : HwkJob) (l : HwkList) (t : HwkTask) (w : Work) : Work :=
  let zeros := List.replicate j.d 0
  let w := (List.range (j.chunkKeys t.ch)).foldl (fun (w : Work) i =>
    let k := t.ch * j.chunk + i
    (w.putF32s (j.dK + k * j.d * 4) zeros).putF32s (j.dV + k * j.d * 4) zeros) w
  (List.range j.rows).foldl (fun (w : Work) r => w.putF32s (j.dqAt l t.job t.ch r) zeros) w

/-- A block of keys for a row group of a backward task (R211, steps 1 to 7). -/
def Work.bwdBlock (j : HwkJob) (l : HwkList) (t : HwkTask) (rg : Nat) (ks : List Nat) (w : Work) : Work :=
  let d := j.d
  let outFmt := if j.oconv = 0 then 0xF else j.oconv
  let zero : Fv := .fin false 0 0
  -- per row: q, dO, Δ, λ; rows that are empty or NaN contribute nothing
  let rows := (j.groupRows rg).filterMap fun r =>
    let lam := w.le (j.stat + 4 * r) 4
    let dO := w.rowVals 1 d (j.dO + r * d * 2)
    let o := (List.range d).map (elemAt outFmt (w.le (j.o + r * d * j.osz) (d * j.osz)))
    if lam = ninf32 ∨ ofF32 lam = .nan then none
    else some (r, w.rowVals j.qfmt d (j.q + r * j.qrow), dO, dot32 d dO o, lam)
  -- per key: its rows with p and dS
  let keys := ks.map fun k =>
    let kv := w.rowVals j.kvfmt d (j.new + k * j.rb)
    let vv := w.rowVals j.kvfmt d (j.new + (j.nnew + k) * j.rb)
    (k, kv, rows.filterMap fun (r, q, dO, delta, lam) =>
      if !w.sees j (r / j.g) k then none
      else
        let p := f32Exp2 (f32Sub (f32Mul (dot32 d q kv) j.scale2) lam)
        let ds := f32Mul (f32Mul p (f32Sub (dot32 d dO vv) delta)) j.sigma
        some (r, q, dO, bf16Of p, bf16Of ds))
  let w := keys.foldl (fun (w : Work) (k, _, rs) =>
    let dv := (List.range d).map fun i => sum32 (w.le (j.dV + (k * d + i) * 4) 4) (rs.map fun (_, _, dO, p, _) => p.mul (dO.getD i zero))
    let dk := (List.range d).map fun i => sum32 (w.le (j.dK + (k * d + i) * 4) 4) (rs.map fun (_, q, _, _, ds) => ds.mul (q.getD i zero))
    (w.putF32s (j.dV + k * d * 4) dv).putF32s (j.dK + k * d * 4) dk) w
  rows.foldl (fun (w : Work) (r, _, _, _, _) =>
    let a := j.dqAt l t.job t.ch r
    let half := fun (h : List (Nat × List Fv × List (Nat × List Fv × List Fv × Fv × Fv))) (acc : List Nat) =>
      (List.range d).map fun i => sum32 (acc.getD i 0)
        (h.filterMap fun (_, kv, rs) => (rs.find? fun x => x.1 = r).map fun (_, _, _, _, ds) => ds.mul (kv.getD i zero))
    w.putF32s a (half (keys.drop 32) (half (keys.take 32) (w.f32s a d)))) w

/-- The contributions of all chunks to dQ added in ascending chunk index (R211, step 7). -/
def Work.bwdSum (j : HwkJob) (l : HwkList) (ix : Nat) (w : Work) : Work :=
  (List.range j.rows).foldl (fun (w : Work) r =>
    let first := w.f32s (j.dqAt l ix 0 r) j.d
    let sum := (List.range (j.nch - 1)).foldl (fun acc c => List.zipWith f32Add acc (w.f32s (j.dqAt l ix (c + 1) r) j.d)) first
    w.putF32s (j.dQ + r * j.d * 4) sum) w

/-! ### Blocks and ends of tasks (R204–R206) -/

/-- The next block of a task that is not skipped, at or after `n`: of a forward task block n of its chunk, of a backward task block n of
all row groups in ascending order. -/
def Work.nextBlock (w : Work) (j : HwkJob) (t : HwkTask) (n : Nat) : Option Nat :=
  let nb := j.nblocks t.ch
  let total := if j.bwd then j.ngroups * nb else nb
  ((List.range (total - n)).map (n + ·)).find? fun b =>
    if j.bwd then w.blockLive j (b / nb) (j.blockKeys t.ch (b % nb)) else w.blockLive j t.rg (j.blockKeys t.ch b)

/-- The task an engine works on: the one in progress, or the one at the near end of its deque, which then starts. -/
def Work.curTask (d e : Nat) (w : Work) : Option (HwkRun × HwkList × HwkJob × Work) :=
  let k := engKey d e
  let g := w.eng k
  match g.cur with
  | some r => (w.hlist r.task.page).map fun l => (r, l, w.hjob l.addr r.task.job, w)
  | none =>
    match g.deque with
    | [] => none
    | t :: rest =>
      (w.hlist t.page).map fun l =>
        let j := w.hjob l.addr t.job
        let rows := if j.bwd then [] else (j.groupRows t.rg).map fun _ => ({ o := List.replicate j.d 0 } : HwkRow)
        let r : HwkRun := { task := t, next := 0, rows := rows }
        let w := (w.modEng k fun g => { g with deque := rest, cur := some r }).feedDeque d e 33
        (r, l, j, w)

/-- Before its first block a backward task clears the sums it adds to. -/
def Work.begun (j : HwkJob) (l : HwkList) (r : HwkRun) (w : Work) : Work := if j.bwd ∧ r.next = 0 then w.bwdStart j l r.task else w

/-- The rows of a forward task after a block of keys. -/
def Work.fwdBlock (w : Work) (j : HwkJob) (rg : Nat) (ks : List Nat) (kv : List (Nat × Nat)) (rows : List HwkRow) : List HwkRow :=
  let pad := 64 - ks.length
  let kvals := kv.map fun a => w.rowVals j.kvfmt j.d a.1
  let vs := (kv.map fun a => w.rowVals j.kvfmt j.d a.2) ++ List.replicate pad []
  List.zipWith (fun r (row : HwkRow) =>
    let q := w.rowVals j.qfmt j.d (j.q + r * j.qrow)
    let ts := (List.zipWith (fun k kr => if w.sees j (r / j.g) k then some (f32Mul (dot32 j.d q kr) j.scale2) else none) ks kvals) ++
      List.replicate pad none
    row.block ts vs) (j.groupRows rg) rows

/-- HWK_BLOCK. R203, R204, R208, R211: the engine processes the next block of its task that is not skipped. -/
def execHwkBlock (die eng : Nat) (s : State) : Host.Outcome State Fault Refusal :=
  .next (s.run fun w =>
    let p := hwkPage die eng
    match w.worksFor p with
    | none => w
    | some c =>
      if 16 ≤ die ∨ 8 ≤ eng then w
      else match w.curTask die eng with
      | none => w
      | some (r, l, j, w) =>
        match w.nextBlock j r.task r.next with
        | none => w
        | some n => w.tryUnit p c fun w =>
          let w := w.begun j l r
          let nb := j.nblocks r.task.ch
          let rg := if j.bwd then n / nb else r.task.rg
          let ks := j.blockKeys r.task.ch (if j.bwd then n % nb else n)
          let gen := (SMap.at none l.gens r.task.job).getD 0
          (w.lookUps die eng j gen ks).hwkRead c p ((ks.map (w.walkLines j gen)).flatten.eraseDups) fun w =>
            let kv := ks.map (w.kvAt j gen)
            if kv.any (·.isNone) then w.ctxFault c p 0x60 none
            else
              let kv := kv.map (·.getD (0, 0))
              let bwdReads := if j.bwd then (j.groupRows rg).flatMap fun x =>
                [(j.dO + x * j.d * 2, j.d * 2), (j.o + x * j.d * j.osz, j.d * j.osz), (j.stat + 4 * x, 4)] else []
              w.hwkRead c p (w.blockReads j rg ks kv ++ bwdReads) fun w =>
                let rows := w.fwdBlock j rg ks kv r.rows
                let w := (w.count p 3 1).count p 4 (2 * ks.length * j.rb)
                if j.bwd then
                  (w.bwdBlock j l r.task rg ks).modEng (engKey die eng) fun g => { g with cur := some { r with next := n + 1 } }
                else w.modEng (engKey die eng) fun g => { g with cur := some { r with next := n + 1, rows := rows } })

/-- Row r of a job ended (R205): its output, its statistic, EMPTY or NANROW. `p` is the page of the engine that ends it. -/
def Work.endRow (p page ix : Nat) (j : HwkJob) (r : Nat) (x : HwkRow) (w : Work) : Work :=
  let empty := !((List.range j.keys).any fun k => w.sees j (r / j.g) k)
  let isNan := ofF32 x.m == .nan || x.m == pinf32 || ofF32 x.l == .nan
  let inv := f32Rcp x.l
  let vals := if empty then x.o.map fun _ => 0 else if isNan then x.o.map fun _ => nan32 else x.o.map fun o => f32Mul o inv
  let lam := if empty then ninf32 else if isNan then nan32 else f32Add x.m (f32Log2 x.l)
  let bytes := (vals.map fun v => natLE j.osz (convElem j.oconv 0 v).2.1).flatten
  let w := (w.unitStore p ((w.page p).ctx.getD 0) (j.o + r * j.d * j.osz) bytes false).storeLE (j.stat + 4 * r) 4 lam
  let flag := fun (b ev ctr : Nat) (w : Work) =>
    ((w.modHlist page fun l => { l with jobs := SMap.mod {} l.jobs ix fun s => { s with flags := s.flags ||| b } }).count p ctr 1).raise p ev
  if empty then flag 2 16 6 w else if isNan then flag 4 17 7 w else w

/-- The rows of a record of the partial area: m, l and o of each row in turn. -/
def Work.getRec (w : Work) (j : HwkJob) (a n : Nat) : List HwkRow :=
  (List.range n).map fun i =>
    let b := a + i * (8 + 4 * j.d)
    { m := w.le b 4, l := w.le (b + 4) 4, o := w.f32s (b + 8) j.d }
def Work.putRec (a : Nat) (rows : List HwkRow) (w : Work) : Work := w.putF32s a (rows.map fun r => r.m :: r.l :: r.o).flatten

/-- One chunk merged into a row (R206). -/
def HwkRow.merge (x c : HwkRow) : HwkRow :=
  if c.m = ninf32 then x
  else
    let mn := f32Max x.m c.m
    let a := if x.m = mn then 0x3F800000 else if x.m = ninf32 then 0 else f32Exp2 (f32Sub x.m mn)
    let b := if c.m = mn then 0x3F800000 else f32Exp2 (f32Sub c.m mn)
    { m := mn, l := f32Add (f32Mul a x.l) (f32Mul b c.l), o := List.zipWith (fun u v => f32Add (f32Mul a u) (f32Mul b v)) x.o c.o }

/-- The last outstanding chunk of a row group is in: the records merged in ascending chunk index, and the rows ended. -/
def Work.mergeGroup (p : Nat) (j : HwkJob) (l : HwkList) (t : HwkTask) (w : Work) : Work :=
  let rows := j.groupRows t.rg
  let recs := (List.range j.nch).map fun c => w.getRec j (j.recAt l t.job t.rg c) rows.length
  (List.range rows.length).foldl (fun (w : Work) i =>
    let start : HwkRow := { o := List.replicate j.d 0 }
    let x := recs.foldl (fun (x : HwkRow) rec => x.merge (rec.getD i start)) start
    w.endRow p t.page t.job j (rows.getD i 0) x) w

/-- The task of an engine counted as complete, and its job where it was the last. -/
def Work.countTask (d e : Nat) (j : HwkJob) (t : HwkTask) (w : Work) : Work :=
  let w := (w.modEng (engKey d e) fun g => { g with cur := none }).count (hwkPage d e) 1 1
  let w := w.modHlist t.page fun l => { l with jobs := SMap.mod {} l.jobs t.job fun s => { s with tasks := s.tasks + 1 } }
  match w.hlist t.page with
  | some l => if (SMap.at {} l.jobs t.job).tasks = j.ntasks then w.endJob t.page t.job else w
  | none => w

/-- The bits that a backward job leaves in its result word: some row sees no key, some row's statistic is NaN (R196, R211). -/
def Work.bwdFlags (page ix : Nat) (j : HwkJob) (w : Work) : Work :=
  let empty := (List.range j.rows).any fun r => !((List.range j.keys).any fun k => w.sees j (r / j.g) k)
  let isNan := (List.range j.rows).any fun r => ofF32 (w.le (j.stat + 4 * r) 4) == .nan
  w.modHlist page fun l => { l with jobs := SMap.mod {} l.jobs ix fun s =>
    { s with flags := s.flags ||| (if empty then 2 else 0) ||| if isNan then 4 else 0 } }

/-- HWK_TASK_COMPLETE. R205, R206, R211: a task whose blocks are done ends. -/
def execHwkTaskComplete (die eng : Nat) (s : State) : Host.Outcome State Fault Refusal :=
  .next (s.run fun w =>
    let p := hwkPage die eng
    match w.worksFor p with
    | none => w
    | some c =>
      if 16 ≤ die ∨ 8 ≤ eng then w
      else match w.curTask die eng with
      | none => w
      | some (r, l, j, w') =>
        let t := r.task
        if (w'.nextBlock j t r.next).isSome then w
        else w'.tryUnit p c fun w =>
          let w := w.begun j l r
          if j.bwd then
            if (SMap.at {} l.jobs t.job).tasks + 1 != j.ntasks then w.countTask die eng j t
            else w.hwkRead c p ((j.stat, 4 * j.rows) :: if j.nch = 1 then [] else [(j.recAt l t.job 0 0, j.need)]) fun w =>
              let w := w.bwdFlags t.page t.job j
              (if j.nch = 1 then w else w.bwdSum j l t.job).countTask die eng j t
          else if j.nch = 1 then
            let rows := j.groupRows t.rg
            ((List.range rows.length).foldl (fun (w : Work) i => w.endRow p t.page t.job j (rows.getD i 0) (r.rows.getD i {})) w).countTask die eng j t
          else
            let w := w.putRec (j.recAt l t.job t.rg t.ch) r.rows
            let w := w.modHlist t.page fun l => { l with jobs := SMap.mod {} l.jobs t.job fun s => { s with chunks := SMap.mod 0 s.chunks t.rg (· + 1) } }
            let all := SMap.at 0 (SMap.at {} l.jobs t.job).chunks t.rg + 1 == j.nch
            if !all then w.countTask die eng j t
            else w.hwkRead c p [(j.recAt l t.job t.rg 0, j.nch * j.record)] fun w => (w.mergeGroup p j l t).countTask die eng j t)

/-! ### Quiescing (R209) -/

/-- Where engine e of a die keeps its record in the partial area of the list on a page: the engines of MASK in ascending order at its head (R202).
An engine outside MASK, which stole its task, has none there (log entry 61). -/
def HwkList.engRec (l : HwkList) (page d e : Nat) : Option Nat :=
  if dieOf page = d ∧ bit l.mask e then some (l.part + 16576 * popcount e l.mask) else none

/-- R209 step 2: an engine writes its task, its next block, and m, l and o of its rows to its record. The first 64 bytes, of the task and the block,
have no layout in the manual and become free values (log entry 61). -/
def Work.saveEngine (p : Nat) (w : Work) : Work :=
  if typeOf p ≠ 5 then w
  else
    let d := dieOf p
    let e := (blockOf p).2
    match (w.eng (engKey d e)).cur with
    | none => w
    | some r =>
      match (w.hlist r.task.page).bind fun l => l.engRec r.task.page d e with
      | none => w
      | some a =>
        let w := (List.range 8).foldl (fun (w : Work) i =>
          let (v, w) := w.fresh
          w.storeLE (a + 8 * i) 8 v.toNat) w
        w.putRec (a + 64) r.rows

/-! ### Ends of lists (R196, R214) -/

/-- Every job of a list is complete. -/
def HwkList.allDone (l : HwkList) : Bool := l.ended == l.njob

/-- The list of a page is gone. -/
def Work.dropList (p : Nat) (w : Work) : Work := (w.hwk fun h => { h with lists := SMap.drop h.lists p }).set p R.HWK_LSTS_ACTIVE 0

/-- What a list whose jobs are complete leaves: GO injected, the page free of it; none while the GO entry has no room. -/
def Work.endList (p : Nat) (l : HwkList) (w : Work) : Option Work := (w.injectGo l.ctx l.go).map fun w => w.dropList p

/-- The tasks of a page's list dropped from an engine. -/
def HwkEng.forget (p : Nat) (g : HwkEng) : HwkEng :=
  { deque := g.deque.filter fun t => t.page != p
    feed := g.feed.filter fun t => t.1 != p
    cur := match g.cur with
      | some r => if r.task.page = p then none else some r
      | none => none
    cache := g.cache }

/-- The walkers of a list's PAGED jobs deregister. -/
def Work.listOut (l : HwkList) (w : Work) : Work :=
  l.gens.foldl (fun (w : Work) g => match g.2 with
    | some n => w.walkerOut (w.hjob l.addr g.1).rq n
    | none => w) w

/-- The lists and tasks of a context dropped (R214), those that its record holds for pages another context has taken among them: walkers deregistered; an
outstanding HWK_RUN ends with a status. -/
def Work.hwkDrop (c : Nat) (st : Status) (w : Work) : Work :=
  let w := ((w.save c).lists.filterMap (·.2)).foldl (fun (w : Work) l => w.listOut l) w
  let w := w.modSave c fun x => { x with lists := [] }
  let mine := w.dev.hwk.lists.filterMap fun e => e.2.bind fun l => if l.ctx = c then some (e.1, l) else none
  mine.foldl (fun (w : Work) e =>
    let (p, l) := e
    let w := w.listOut l
    let w := (SMap.keys w.dev.hwk.engs).foldl (fun (w : Work) k => w.modEng k (HwkEng.forget p)) w
    let w := (List.range 128).foldl (fun (w : Work) i => if (w.eng i).deque.length ≠ w.get (hwkPage (i / 8) (i % 8)) R.HWK_DEQUE_DEPTH then
      w.showDeque (i / 8) (i % 8) else w) w
    let w := w.dropList p
    if l.mover then w else w.complete p st) w

end Sys2Proof.Machine
end

