-- ==== Sys2Proof/Machine/Ring.lean ====
section
/-!
DEFINITION. Ring.lean: what goes on inside a ring run of Ringlet: blocks sent, lists issued, merges queued, slots freed, the end of a run and its
abandonment (R220–R229).
-/
namespace Sys2Proof.Machine

def Work.rlt (f : Ringlet → Ringlet) (w : Work) : Work := w.d fun d => { d with rlt := f d.rlt }
def Work.rgroup (w : Work) (p : Nat) : RltGroup := SMap.at {} w.dev.rlt.groups p
def Work.modRgroup (p : Nat) (f : RltGroup → RltGroup) (w : Work) : Work := w.rlt fun r => { r with groups := SMap.mod {} r.groups p f }
def Work.modRun (p : Nat) (f : RltRun → RltRun) (w : Work) : Work := w.modRgroup p fun g => { g with run := g.run.map f }

/-- RSTATE: 0 NONE, 1 FORMED, 2 RUNNING, 3 ABANDONED. -/
def Work.rstate (w : Work) (p : Nat) : Nat := w.get p R.SEQ_RLTSTS_RSTATE
def Work.setRstate (p v : Nat) (w : Work) : Work := w.set p R.SEQ_RLTSTS_RSTATE v

/-- The rank that holds a position, and its index there (R220). -/
def stripeOf (p sw pos : Nat) : Nat × Nat := (pos / sw % p, pos / sw / p * sw + pos % sw)

/-- TIMEOUT of an anchor in ns. -/
def Work.rltTimeout (w : Work) (p : Nat) : Nat := 1000 * w.get p R.SEQ_RLTTMO_TIMEOUT

/-- A control message of a group's anchor to a package of the ring: 0 form, 1 abandon, 2 free, 3 commit notice (Table 19.6). -/
def Work.ringMsg (p kind dst : Nat) (words : List Nat) (w : Work) : Work := w.ctlMsg (w.ctx ((w.page p).ctx.getD 0)).part dst kind words

/-- Block or state data of a member written to a package of the ring: board-global tier-1 writes on the request channel (R222). Where they cannot be issued,
for want of a route or of a share of the first port, the member's context has a contained fault (R346; log entry 73). -/
def Work.ringWrite (p dst a : Nat) (data : List Byte) (bad : Bool) (w : Work) : Work :=
  let c := (w.page p).ctx.getD 0
  let part := (w.ctx c).part
  let ok := match w.hop dst 0 with
    | .port n _ => w.hasShare part n
    | _ => false
  if ok then w.issueData { tag := 0, page := p, ctx := c, kind := 3, dst := 0 } part dst a data bad else w.ctxFault c p 0xA0 none

/-! ### Schedules (Tables 12.2, 12.3) -/

/-- A schedule entry: its 32 bytes as a number. -/
structure RltEntry where
  x : Nat

def RltEntry.lrec (e : RltEntry) : Nat := bits e.x 47 0
def RltEntry.nlrec (e : RltEntry) : Nat := bits e.x 68 64
def RltEntry.len (e : RltEntry) : Nat := bits e.x 123 96
def RltEntry.loc (e : RltEntry) : Nat := bits e.x 175 128
def RltEntry.resv (e : RltEntry) : Bool :=
  bits e.x 63 48 != 0 || bits e.x 95 69 != 0 || bits e.x 127 124 != 0 || bits e.x 191 176 != 0 || bits e.x 255 192 != 0

/-- A list record: its 32 bytes as a number. -/
structure RltRec where
  x : Nat

def RltRec.list (r : RltRec) : Nat := bits r.x 47 0
def RltRec.die (r : RltRec) : Nat := bits r.x 51 48
def RltRec.inst (r : RltRec) : Nat := bits r.x 54 52
def RltRec.njob (r : RltRec) : Nat := bits r.x 79 64
def RltRec.mask (r : RltRec) : Nat := bits r.x 87 80
def RltRec.mlist (r : RltRec) : Nat := bits r.x 175 128
def RltRec.result (r : RltRec) : Nat := bits r.x 239 192
def RltRec.page (r : RltRec) : Nat := hwkPage r.die r.inst
def RltRec.resv (r : RltRec) : Bool := bits r.x 63 55 != 0 || bits r.x 127 88 != 0 || bits r.x 191 176 != 0 || bits r.x 255 240 != 0

def Work.rltEntry (w : Work) (r : RltRun) (n : Nat) : RltEntry := ⟨w.le (r.sched + 32 * n) 32⟩
def Work.rltRec (w : Work) (r : RltRun) (n k : Nat) : RltRec := ⟨w.le ((w.rltEntry r n).lrec + 32 * k) 32⟩
/-- Entry k of a merge list: the running state's address and its rows. -/
def Work.mergeEnt (w : Work) (x : RltRec) (k : Nat) : Nat × Nat := (w.le (x.mlist + 16 * k) 6, w.le (x.mlist + 16 * k + 8) 4)

/-- The list of a record as the mover issues it (R224). -/
def RltRec.ask (r : RltRec) (run : RltRun) (c : Nat) : HwkAsk :=
  { page := r.page, ctx := c, list := r.list, njob := r.njob, mask := r.mask, part := run.part + r.die * 1024 * run.psize, size := run.psize
    res := r.result, done := none }

/-! ### Blocks (R221, R222, R227) -/

/-- Blocks of a run that a rank computes on: in (j, c) order, or in a decode step the one of the query rows (log entry 73). -/
def RltRun.first (r : RltRun) (g : RltGroup) : Nat := if r.decode then g.rank else 0
def RltRun.last_ (r : RltRun) (g : RltGroup) : Nat := if r.decode then g.rank + 1 else g.p * r.ncb
/-- Blocks of the run that arrive from the predecessor. -/
def RltRun.arrivals (r : RltRun) (g : RltGroup) : Nat := if r.decode then (if g.rank = 0 then 0 else 1) else (g.p - 1) * r.ncb
/-- Blocks that are sent to the successor: those whose origin it is are not (R221). -/
def RltRun.sends (r : RltRun) (g : RltGroup) : Nat := if r.decode then (if g.rank + 1 = g.p then 0 else 1) else (g.p - 1) * r.ncb
/-- Which arrival a block was; none for a block of the own slice. -/
def RltRun.arrival (r : RltRun) (n : Nat) : Option Nat :=
  if r.decode then (if n = 0 then none else some 0) else if n < r.ncb then none else some (n - r.ncb)
/-- The block that arrival k is. -/
def RltRun.ofArrival (r : RltRun) (g : RltGroup) (k : Nat) : Nat := if r.decode then g.rank else k + r.ncb
/-- The block that the k-th send carries. -/
def RltRun.ofSend (r : RltRun) (g : RltGroup) (k : Nat) : Nat := if r.decode then g.rank else k
/-- The member holds a block. -/
def RltRun.holds (r : RltRun) (n : Nat) : Bool := match r.arrival n with | none => true | some k => decide (k < r.recv)
/-- The send that carries a block, if one does. -/
def RltRun.sendOf (r : RltRun) (g : RltGroup) (n : Nat) : Option Nat :=
  let k := if r.decode then 0 else n
  if k < r.sends g then some k else none

/-- Where block n lies: LOCAL of its entry, or its receive slot. -/
def Work.blockAt (w : Work) (g : RltGroup) (r : RltRun) (n : Nat) : Nat :=
  match r.arrival n with
  | none => (w.rltEntry r n).loc
  | some k => g.area + (k % g.nslot) * (1024 * g.slotK)

/-- SEQ_RLTPOS shows the block whose lists are issued next. -/
def Work.showRlt (p : Nat) (w : Work) : Work :=
  match (w.rgroup p).run with
  | some r =>
    let n := min r.issue.1 (r.last_ (w.rgroup p) - 1)
    (w.set p R.SEQ_RLTPOS_J (n / r.ncb)).set p R.SEQ_RLTPOS_C (n % r.ncb)
  | none => w

/-- Blocks sent while the member holds the next one and the successor has freed its slot (R222). -/
def Work.ringSend (p : Nat) : Nat → Work → Work
  | 0, w => w
  | f + 1, w =>
    let g := w.rgroup p
    match g.run with
    | none => w
    | some r =>
      let n := r.ofSend g r.sent
      let slot := r.sent % g.nslot
      if r.sent < r.sends g ∧ r.holds n ∧ slot ∈ r.free then
        let a := w.blockAt g r n
        let len := (w.rltEntry r n).len
        let w := (w.readLines a len).modRun p fun r => { r with sent := r.sent + 1, free := r.free.erase slot }
        Work.ringSend p f (w.ringWrite p g.succ (g.succArea + slot * (1024 * g.slotK)) (w.rdN a len) (w.poisoned a len))
      else w

/-- Lists issued in order while their blocks are held and their pages have no list (R222, R224). -/
def Work.ringIssue (p c : Nat) : Nat → Work → Work
  | 0, w => w
  | f + 1, w =>
    let g := w.rgroup p
    match g.run with
    | none => w
    | some r =>
      let (n, k) := r.issue
      if n < r.last_ g ∧ r.holds n then
        let x := w.rltRec r n k
        if (w.hlist x.page).isSome ∨ (w.page x.page).outst.isSome then w
        else
          let next := if k + 1 < (w.rltEntry r n).nlrec then (n, k + 1) else (n + 1, 0)
          Work.ringIssue p c f ((w.hwkStart (x.ask r c) true).modRun p fun r => { r with issue := next, lists := r.lists ++ [(x.page, n, k)] })
      else w

/-- Slots freed whose block has been computed and, where it is sent on, sent (R222). -/
def Work.ringFree (p : Nat) (w : Work) : Work :=
  let g := w.rgroup p
  match g.run with
  | none => w
  | some r =>
    let ok := fun n => match r.sendOf g n with | some k => decide (k < r.sent) | none => true
    let w := w.modRun p fun r => { r with slots := r.slots.filter fun n => !ok n }
    (r.slots.filter ok).foldl (fun (w : Work) n => match r.arrival n with
      | some k => w.ringMsg p 2 g.pred [k % g.nslot]
      | none => w) w

/-- The merge task of job k of a record (Table 13.2). -/
def Work.mergeTask (w : Work) (x : RltRec) (k : Nat) : Nat :=
  let j := w.hjob x.list k
  let (dst, rows) := w.mergeEnt x k
  0x0A + j.o * 2 ^ 64 + dst * 2 ^ 128 + (rows % 2 ^ 28) * 2 ^ 192 + j.dcode * 2 ^ 224

/-- Merges queued in ascending j, c, record and job, as far as lists are complete; in a decode step not before the received state (R225, R227). -/
def Work.ringMerge (p c : Nat) : Nat → Work → Work
  | 0, w => w
  | f + 1, w =>
    let g := w.rgroup p
    match g.run with
    | none => w
    | some r =>
      if r.merge ∈ r.done ∧ (!r.decode || g.rank == 0 || r.stateIn) then
        let (n, k) := r.merge
        let x := w.rltRec r n k
        let tasks := (List.range x.njob).map (w.mergeTask x)
        let next := if k + 1 < (w.rltEntry r n).nlrec then (n, k + 1) else (n + 1, 0)
        let w := w.rlt fun q => { q with merges := SMap.mod [] q.merges c (· ++ tasks) }
        Work.ringMerge p c f (w.modRun p fun r => { r with merge := next, done := r.done.erase (n, k) })
      else w

/-- The running states that the merge lists of a block name: (address, bytes) in order of record and job. -/
def Work.runStates (w : Work) (r : RltRun) (n : Nat) : List (Nat × Nat × Nat) :=
  ((List.range (w.rltEntry r n).nlrec).map fun k =>
    let x := w.rltRec r n k
    (List.range x.njob).map fun i =>
      let (a, rows) := w.mergeEnt x i
      (a, rows, (w.hjob x.list i).d)).flatten

/-- Bytes of a running state (R195, R225). -/
def stateBytes (a rows d : Nat) : Nat := ceilDiv (a + rows * d * 4) 128 * 128 - a + 4 * rows

/-- The running states as they travel. -/
def Work.stateData (w : Work) (l : List (Nat × Nat × Nat)) : List Byte := (l.map fun e => w.rdN e.1 (stateBytes e.1 e.2.1 e.2.2)).flatten

/-- Every list is complete and every merge done. -/
def Work.ringComputed (w : Work) (p c : Nat) : Bool :=
  match (w.rgroup p).run with
  | some r => decide (r.last_ (w.rgroup p) ≤ r.merge.1) && r.lists.isEmpty && (SMap.at [] w.dev.rlt.merges c).isEmpty
  | none => false

/-- In a decode step the running state goes on once the own partial is in it (R227), as data like a block's (log entry 73). -/
def Work.ringState (p c : Nat) (w : Work) : Work :=
  let g := w.rgroup p
  match g.run with
  | some r =>
    if r.decode && !r.stateOut && w.ringComputed p c then
      let data := w.stateData (w.runStates r g.rank)
      (w.modRun p fun r => { r with stateOut := true }).ringWrite p g.succ g.succArea data false
    else w
  | none => w

/-- A run has nothing to compute and waits for a block, a state or a FREE (R223). -/
def RltRun.idle (r : RltRun) (g : RltGroup) : Bool :=
  let more := decide (r.issue.1 < r.last_ g)
  r.lists.isEmpty && !(more && r.holds r.issue.1) && (more || (r.decode && !r.stateIn) || decide (r.sent < r.sends g))

/-- A wait has ended: its time is counted (R223). -/
def Work.ringWaited (p : Nat) (w : Work) : Work :=
  match (w.rgroup p).run.bind (·.waitFrom) with
  | some t =>
    (w.set64 p R.SEQ_RLTWAIT_LO_WAIT_LO ((w.get64 p R.SEQ_RLTWAIT_LO_WAIT_LO + (w.now - t)) % 2 ^ 64)).modRun p fun r => { r with waitFrom := none }
  | none => w

/-- A wait of a run begins, or ends. -/
def Work.ringWait (p : Nat) (w : Work) : Work :=
  let g := w.rgroup p
  match g.run with
  | some r => if r.idle g then (if r.waitFrom.isSome then w else w.modRun p fun r => { r with waitFrom := some w.now }) else w.ringWaited p
  | none => w

/-- The run is over: RLT_RUN has its final status. -/
def Work.ringOver (p c : Nat) (w : Work) : Work :=
  let g := w.rgroup p
  match g.run with
  | some r =>
    if w.ringComputed p c && decide (r.sends g ≤ r.sent) && r.slots.isEmpty &&
        (!r.decode || (r.stateOut && (g.rank != 0 || r.stateIn))) then
      (w.modRgroup p fun g => { g with run := none, early := 0, earlyState := none }).settle p .done
    else w
  | none => w

/-- All that a run can do by itself, with the context running. -/
def Work.rltPump (p : Nat) (w : Work) : Work :=
  match (w.page p).ctx with
  | some c =>
    if (w.rgroup p).run.isSome ∧ (w.ctx c).state = .running then
      w.asUnit p fun w =>
        let w := ((w.ringSend p 9).ringIssue p c 129).ringFree p
        (((((w.ringMerge p c 2048).ringState p c).ringWait p).showRlt p).ringOver p c)
    else w
  | none => w

/-- The anchor of a context: the SEQ page on which it has a group. -/
def Work.anchorOf (w : Work) (c : Nat) : Option Nat :=
  (SMap.keys w.dev.rlt.groups).find? fun p => (w.page p).ctx == some c && w.rstate p != 0

def Work.rltPumpCtx (c : Nat) (w : Work) : Work :=
  match w.anchorOf c with
  | some p => w.rltPump p
  | none => w

/-- Lists that a mover has issued for a context are given up. -/
def Work.dropMover (c : Nat) (w : Work) : Work :=
  (w.dev.hwk.lists.filterMap fun e => e.2.bind fun l => if l.ctx = c ∧ l.mover then some e.1 else none).foldl (fun (w : Work) p =>
    let w := (SMap.keys w.dev.hwk.engs).foldl (fun (w : Work) k =>
      if (w.eng k).forget p = w.eng k then w else (w.modEng k (HwkEng.forget p)).showDeque (k / 8) (k % 8)) w
    w.dropList p) w

/-- A member abandons the step (R229): both neighbours are told, the run ends, RLT_RUN completes DONE. Blocks in flight still land (Table 12.4). -/
def Work.ringAbandon (p code : Nat) (w : Work) : Work :=
  if w.rstate p = 1 ∨ w.rstate p = 2 then
    let g := w.rgroup p
    let w := ((w.ringWaited p).ringMsg p 1 g.pred [g.gid]).ringMsg p 1 g.succ [g.gid]
    let w := match (w.page p).ctx with
      | some c => (w.dropMover c).rlt fun q => { q with merges := SMap.drop q.merges c, merging := SMap.drop q.merging c }
      | none => w
    let w := (((w.modRgroup p fun g => { g with run := none, owed := false, early := g.run.elim g.early (·.recv) }).setRstate p 3).logOpen p none none code 0).raise p 21
    match (w.page p).outst with
    | some o => if o.code = 0x59 then w.complete p .done else w
    | none => w
  else w

/-- A page's group is the one its saved context has left there (R226, R229): what arrives for it meets it there. -/
def heldRing (p : Nat) (x : CtxSave) : Bool := (SMap.at {} x.groups p).p != 0

/-- What arrives for the group of a page: of the context that has the page, or of a saved one that another has displaced. -/
def Work.onRing (p : Nat) (f : Work → Work) (w : Work) : Work := if (w.rgroup p).p != 0 then f w else w.forSaved p (heldRing p) f

/-- The context of an anchor is torn down, or faulted, or ended while it is saved off the anchor (R229). -/
def Work.ringDrop (c : Nat) (w : Work) : Work :=
  let w := (SMap.keys (w.save c).groups).foldl (fun (w : Work) p => w.forSaved p (fun x => decide (x = w.save c)) fun w => w.ringAbandon p 0x59) w
  match w.anchorOf c with
  | some p => w.ringAbandon p 0x59
  | none => w

/-- A member whose own context was QUIESCING or QUIESCED for a while: its timer did not run (R229). -/
def Work.ringShift (c by_ : Nat) (w : Work) : Work :=
  match w.anchorOf c with
  | some p => w.modRun p fun r => { r with last := r.last + by_, waitFrom := r.waitFrom.map (· + by_) }
  | none => w

end Sys2Proof.Machine
end

