-- ==== Sys2Proof/Machine/Skipper.lean ====
section
/-!
DEFINITION. Skipper.lean: task descriptors, deques, stealing, and the task kinds of chapter 13 (R233–R246).
-/
namespace Sys2Proof.Machine

def Work.skp (w : Work) (p : Nat) : Skp := SMap.at {} w.dev.skp p
def Work.modSkp (p : Nat) (f : Skp → Skp) (w : Work) : Work := w.d fun d => { d with skp := SMap.mod {} d.skp p f }

/-! ### Descriptors (Table 13.1) -/

def SkpTask.kind (t : SkpTask) : Nat := bits t.x 4 0
def SkpTask.noSteal (t : SkpTask) : Bool := bit t.x 6
def SkpTask.fence (t : SkpTask) : Bool := bit t.x 7
def SkpTask.doneEn (t : SkpTask) : Bool := bit t.x 8
def SkpTask.tag (t : SkpTask) : Nat := bits t.x 63 32
def SkpTask.src (t : SkpTask) : Nat := bits t.x 127 64
def SkpTask.dst (t : SkpTask) : Nat := bits t.x 191 128
def SkpTask.len (t : SkpTask) : Nat := bits t.x 219 192
def SkpTask.p0 (t : SkpTask) : Nat := bits t.x 255 224
def SkpTask.p1 (t : SkpTask) : Nat := bits t.x 319 256
def SkpTask.join (t : SkpTask) : Nat := bits t.x 367 320
def SkpTask.doneEnt (t : SkpTask) : Nat := bits t.x 399 384
def SkpTask.doneDie (t : SkpTask) : Nat := bits t.x 403 400
/-- An address field names scratch. -/
def isScr (a : Nat) : Bool := bit a 63
/-- Not stolen off its die: LOCAL, or a scratch address, that of the row indices of a GATHER or a SCATTER among them (R234, R235). -/
def SkpTask.local_ (t : SkpTask) : Bool := bit t.x 5 || isScr t.src || isScr t.dst || ((t.kind == 2 || t.kind == 3) && isScr t.p1)

/-- Reserved bits of an address field. -/
def addrResv (a : Nat) : Bool := if isScr a then bits a 62 28 != 0 else bits a 62 48 != 0

/-- A descriptor as it is pushed: reserved fields and CONTEXT zero, the kind one of Table 13.2, JOIN aligned (R238). -/
def taskBad (x : Nat) : Bool :=
  let t : SkpTask := { x := x, ctx := 0, home := 0, seq := 0 }
  bits x 15 9 != 0 || bits x 31 16 != 0 || bits x 223 220 != 0 || bits x 383 368 != 0 || bits x 511 404 != 0 || bits x 399 397 != 0 ||
    addrResv t.src || addrResv t.dst || t.kind == 0 || decide (t.kind > 0x0B) || t.join % 8 != 0

/-! ### Deques (R237–R240) -/

/-- SKP_STS of a page. -/
def Work.showSkp (p : Nat) (w : Work) : Work :=
  let g := w.skp p
  let w := w.set p R.SKP_STS_DEPTH g.deque.length
  match g.run with
  | some r => ((w.set p R.SKP_STS_ACTIVE 1).set p R.SKP_STS_KIND r.task.kind).set p R.SKP_STS_CONTEXT r.task.ctx
  | none => ((w.set p R.SKP_STS_ACTIVE 0).set p R.SKP_STS_KIND 0).set p R.SKP_STS_CONTEXT 0

/-- The GO entry that a descriptor names, where it names one, resolved for a context (R76). -/
def Work.taskGo (w : Work) (c x : Nat) : Option GoSite :=
  let t : SkpTask := { x := x, ctx := c, home := 0, seq := 0 }
  if t.doneEn then w.goSite c t.doneDie t.doneEnt else none

/-- A descriptor pushed at the near end, CONTEXT set to the home context. -/
def Work.pushTask (p c x : Nat) (w : Work) : Work :=
  let go := w.taskGo c x
  (w.modSkp p fun g => { g with
    deque := { x := setBits x 23 16 c, ctx := c, home := p, seq := g.next, go := go } :: g.deque, next := g.next + 1 }).showSkp p

/-- A task pushed earlier to the same deque has not completed (R239). -/
def Work.earlier (w : Work) (t : SkpTask) : Bool :=
  w.dev.skp.any fun e => (e.2.deque.any fun u => u.home == t.home && decide (u.seq < t.seq)) ||
    (match e.2.run with | some r => r.task.home == t.home && decide (r.task.seq < t.seq) | none => false)

/-- A task is held by FENCE. -/
def Work.fenceHeld (w : Work) (t : SkpTask) : Bool := t.fence && w.earlier t

/-- The Skipper works: its page is BOUND or RUNNING. -/
def Work.skpWorks (w : Work) (p : Nat) : Bool := typeOf p == 6 && ((w.page p).state == .running || (w.page p).state == .bound)

/-- A task of the Skipper's own deque that may start: the nearest that FENCE does not hold and whose context runs. -/
def Work.ownTask (w : Work) (p : Nat) : Option SkpTask :=
  (w.skp p).deque.find? fun t => !w.fenceHeld t && (w.ctx t.ctx).state == .running

/-- A task may be stolen by a Skipper (R240). -/
def Work.stealable (w : Work) (thief : Nat) (t : SkpTask) : Bool :=
  some (w.ctx t.ctx).part == (w.page thief).part && !t.noSteal && !w.fenceHeld t && (w.ctx t.ctx).state == .running &&
    (!t.local_ || (dieOf thief == dieOf t.home && (w.page thief).ctx == some t.ctx))

/-- The Skippers a thief looks at, in order, within its scope: 0 die, 1 quadrant, 2 package, 3 none. -/
def victims (p scope : Nat) : List Nat :=
  let d := dieOf p
  let i := (blockOf p).2
  let q := d / 4
  let die := (List.range 31).map fun n => skpPage d ((i + 1 + n) % 32)
  let all := fun d => (List.range 32).map (skpPage d)
  let quad := ((List.range 3).map fun n => all (q * 4 + (d + 1 + n) % 4)).flatten
  let pkg := ((List.range 3).map fun n => ((List.range 4).map fun m => all ((q + 1 + n) % 4 * 4 + m)).flatten).flatten
  if scope = 3 then [] else die ++ (if scope ≥ 1 then quad else []) ++ (if scope ≥ 2 then pkg else [])

/-- A task taken into hand: it leaves its deque, and idle time is counted. -/
def Work.takeTask (p from_ : Nat) (t : SkpTask) (w : Work) : Work :=
  let idle := (w.skp p).idleFrom
  let w := if idle = 0 then w else w.count p 6 (w.now + 1 - idle)
  let w := (w.modSkp from_ fun g => { g with deque := g.deque.erase t }).showSkp from_
  (w.modSkp p fun g => { g with run := some ⟨t, false, none⟩, idleFrom := 0 }).showSkp p

def skpPushSpec : CmdSpec := { types := [6], code := 0x60, states := [.bound, .running], resv := fun c => c.addrOk 0 && c.arg 2 / 2 ^ 7 == 0 }

/-- Descriptor n of a list. -/
def Work.taskAt (w : Work) (a n : Nat) : Nat := w.le (a + 64 * n) 64

/-- The checks of SKP_PUSH for a context, with the OWNER check of R76 last. A count of 0 or beyond 64 is UNKNOWN, judged with the descriptors (DESIGN
CHOICE, log entry 72). -/
def Work.pushFails (w : Work) (p x a n : Nat) : List (Bool × Status) :=
  let all := (List.range n).map (w.taskAt a)
  [(a % 64 != 0 || !w.inT1 (w.ctx x).part a (64 * n), .bound), (w.poisoned a (64 * n), .poison),
   (n == 0 || decide (64 < n) || all.any taskBad, .unknown), (decide ((w.skp p).deque.length + n > 64), .capacity),
   (all.any fun t => bit t 8 && (w.taskGo x t).isNone, .owner)]

/-- SKP_PUSH. R238, R76: the list enters the deque whole, descriptor N − 1 nearest. A page without a context has no deque to push to: STATE. -/
def execSkpPush (q : Issue) (s : State) : Host.Outcome State Fault Refusal :=
  .next (s.run fun w => w.command q skpPushSpec fun c w =>
    let p := c.page
    let n := c.arg 2
    let a := c.arg64 0
    match (w.page p).ctx with
    | none => w.reply c .state
    | some x =>
      let bad := w.pushFails p x a n
      let w := if a % 64 = 0 ∧ w.inT1 (w.ctx x).part a (64 * n) then w.readLines a (64 * n) else w
      w.checked c bad fun w => ((List.range n).foldl (fun (w : Work) i => w.pushTask p x (w.taskAt a i)) w).reply c .done)

/-- The number a descriptor's sixteen words form. -/
def taskNum (t : Task) : Nat := leNat ((t.words.map fun v => natLE 4 v.toNat).flatten)

/-- SKP_INTERNAL_PUSH. R237: a unit of the device pushes a task; it waits while the deque is full. A merge is pushed in the order of R225. -/
def execSkpInternalPush (die inst : Nat) (task : Task) (s : State) : Host.Outcome State Fault Refusal :=
  .next (s.run fun w =>
    let p := skpPage die inst
    let x := taskNum task
    match (w.page p).ctx with
    | some c =>
      let merges := SMap.at [] w.dev.rlt.merges c
      let merge := bits x 4 0 == 0x0A
      if 16 ≤ die ∨ 32 ≤ inst ∨ !w.skpWorks p ∨ (w.skp p).deque.length ≥ 64 ∨ taskBad x ∨ task.words.length ≠ 16 then w
      else if merge then
        if merges.head? = some x ∧ !SMap.at false w.dev.rlt.merging c then
          (w.rlt fun r => { r with merging := SMap.put false r.merging c true }).pushTask p c x
        else w
      else w.pushTask p c x
    | none => w)

/-- SKP_STEAL. R240: a Skipper with nothing of its own takes the eligible task nearest the far end of the first victim that has one. -/
def execSkpSteal (die inst : Nat) (s : State) : Host.Outcome State Fault Refusal :=
  .next (s.run fun w =>
    let p := skpPage die inst
    let own := (w.skp p).deque.all w.fenceHeld
    if 16 ≤ die ∨ 32 ≤ inst ∨ !w.skpWorks p ∨ (w.skp p).run.isSome ∨ !own then w
    else
      let found := (victims p (w.get p R.SKP_STEALCFG_SCOPE)).findSome? fun v =>
        ((w.skp v).deque.reverse.find? (w.stealable p)).map fun t => (v, t)
      match found with
      | none => w
      | some (v, t) =>
        let scope := if dieOf v = die then 1 else if dieOf v / 4 = die / 4 then 2 else 3
        let w := if dieOf v = die then w else w.acrossDies (dieOf v) die 1
        if w.cut then w.cutFault (some t.ctx) p else ((w.takeTask p v t).count p scope 1).count v 4 1)

/-! ### Reaching memory (R233, R234) -/

/-- How the work of a task ends: it is done; it fails with a status (R242); it is a contained fault of its own code; or it waits, for a retirement that an edit
needs or for something else, and is carried out anew later. -/
inductive TaskEnd where
  | ran
  | fails (st : Status)
  | faults (code : Nat)
  | waits (edit : Bool)
deriving DecidableEq, Repr

abbrev TaskRes := TaskEnd × Work

/-- A task's work over a list, up to the first item that does not run. -/
def eachItem {α : Type} (f : α → Work → TaskRes) : List α → Work → TaskRes
  | [], w => (.ran, w)
  | x :: l, w => match f x w with
    | (.ran, w) => eachItem f l w
    | r => r

/-- Where an access of a task lies: byte `b` of the memory cell of page p, or a local address. -/
inductive Spot where
  | scr (p b : Nat)
  | mem (a : Nat)
deriving DecidableEq, Repr

/-- The first byte of an address field: of the pair, or the local address (R235). -/
def fieldAt (a : Nat) : Nat := if isScr a then 4 * bits a 27 9 else a % 2 ^ 48

/-- Where [a + off, a + off + n) of an address field lies; none where BOUND refuses it (R124, R129, R146). -/
def Work.place (w : Work) (die ctx a off n : Nat) (write : Bool) : Option Spot :=
  if isScr a then
    let p := mcPage die (a % 128)
    let o := fieldAt a + off
    if (w.page p).ctx ≠ some ctx then none
    else match w.pairAddr p (bits a 8 7) (o / 4 : Nat) true write, w.pairAddr p (bits a 8 7) ((o + n - 1) / 4 : Nat) true write with
      | some b, some _ => some (.scr p (b + o % 4))
      | _, _ => none
  else
    let x := fieldAt a + off
    if (if write then w.inT1 (w.ctx ctx).part x n else w.readable (w.ctx ctx).part x n) then some (.mem x) else none

/-- An access of a Skipper that BOUND refuses: of scratch of its task's context, it raises EV_BOUND on the memory cell (R129). -/
def Work.refused (die ctx a : Nat) (w : Work) : TaskRes :=
  (.fails .bound, if isScr a ∧ (w.page (mcPage die (a % 128))).ctx = some ctx then w.raise (mcPage die (a % 128)) 18 else w)

/-- The accesses by which `n` bytes of a place are read. -/
def Work.look (s : Spot) (n : Nat) (w : Work) : Work :=
  match s with
  | .scr p b => w.decodeScr p b n
  | .mem a => w.readAny a n

/-- Where those bytes stand. -/
def Work.spotAt (w : Work) : Spot → Nat
  | .scr p b => w.scratchOf p b
  | .mem a => if t3Base ≤ a then hostA (w.hostOf a) else a

/-- The accesses by which bytes are written at a place: a narrow write of scratch (R143), or a write of tier 1, mirrored where its region is (R377) and
waiting while the scrubber or a zeroing holds it. -/
def Work.putSpot (p ctx : Nat) (s : Spot) (data : List Byte) (bad : Bool) (w : Work) : Work :=
  match s with
  | .scr q b =>
    let w := w.narrowScr q b data
    if bad then w.tagRange (w.scratchOf q b) data.length true else w
  | .mem a => w.unitStore p ctx a data bad

/-- `n` bytes of an address field read, within one line: the bytes, and whether a tier line of them is poisoned. Scratch that is poisoned answers POISON
(R143). -/
def Work.grab (p ctx a off n : Nat) (w : Work) : Except TaskRes (List Byte × Bool × Work) :=
  match w.place (dieOf p) ctx a off n false with
  | none => .error (w.refused (dieOf p) ctx a)
  | some s =>
    let w := (w.look s n).count p 5 n
    let bad := w.poisoned (w.spotAt s) n
    if isScr a && bad then .error (.fails .poison, w) else .ok (w.rdN (w.spotAt s) n, bad, w)

/-- Bytes written at an address field, within one line. -/
def Work.lay (p ctx a off : Nat) (data : List Byte) (bad : Bool) (w : Work) : TaskRes :=
  match w.place (dieOf p) ctx a off data.length true with
  | none => w.refused (dieOf p) ctx a
  | some s => (.ran, (w.putSpot p ctx s data bad).count p 5 data.length)

/-- Pieces of `n` bytes that cross no 64-byte line of either of two places: (offset, length). -/
def pieces (a b : Nat) : Nat → Nat → Nat → List (Nat × Nat)
  | 0, _, _ => []
  | f + 1, off, n =>
    if n = 0 then []
    else
      let k := min n (64 - max ((a + off) % 64) ((b + off) % 64))
      (off, k) :: pieces a b f (off + k) (n - k)

/-- An access of scratch that does not begin on a word is refused with BOUND (R124). -/
def misaligned (a off : Nat) : Bool := isScr a && off % 4 != 0

/-- A run of bytes copied in ascending order, the poison of tier lines carried along (R156, R242). -/
def Work.copyRun (p ctx src so dst do_ n : Nat) (w : Work) : TaskRes :=
  if misaligned src so || misaligned dst do_ then (.fails .bound, w)
  else eachItem (fun (pc : Nat × Nat) w =>
    match w.place (dieOf p) ctx dst (do_ + pc.1) pc.2 true with
    | none => w.refused (dieOf p) ctx dst
    | some _ => match w.grab p ctx src (so + pc.1) pc.2 with
      | .error r => r
      | .ok (data, bad, w) => w.lay p ctx dst (do_ + pc.1) data bad) (pieces (fieldAt src + so) (fieldAt dst + do_) (n / 32 + 3) 0 n) w

/-- `n` bytes of an address field read: the bytes, and whether a tier line of them is poisoned. -/
def Work.taskBytes (p ctx a off n : Nat) (w : Work) : Except TaskRes (List Byte × Bool × Work) :=
  if misaligned a off then .error (.fails .bound, w)
  else (pieces (fieldAt a + off) (fieldAt a + off) (n / 64 + 2) 0 n).foldl (fun (r : Except TaskRes (List Byte × Bool × Work)) pc =>
    match r with
    | .error e => .error e
    | .ok (l, bad, w) => match w.grab p ctx a (off + pc.1) pc.2 with
      | .error e => .error e
      | .ok (m, b, w) => .ok (l ++ m, bad || b, w)) (.ok ([], false, w))

/-- Bytes of a task written at an address field, tagged where `bad`. -/
def Work.taskPut (p ctx a off : Nat) (data : List Byte) (bad : Bool) (w : Work) : TaskRes :=
  if misaligned a off then (.fails .bound, w)
  else eachItem (fun (pc : Nat × Nat) w => w.lay p ctx a (off + pc.1) ((data.drop pc.1).take pc.2) bad)
    (pieces (fieldAt a + off) (fieldAt a + off) (data.length / 64 + 2) 0 data.length) w

/-- A 32-bit word of an address field read by a unit that consumes it: BOUND or POISON, or the word (R242). -/
def Work.taskWord (p ctx a off : Nat) (w : Work) : Except TaskRes (Nat × Work) :=
  match w.taskBytes p ctx a off 4 with
  | .error r => .error r
  | .ok (l, bad, w) => if bad then .error (.fails .poison, w) else .ok (leNat l, w)

/-- An index that a task follows: poison in it is consumed, a contained fault of its context (R156). -/
def Work.taskIndex (p ctx a off : Nat) (w : Work) : Except TaskRes (Nat × Work) :=
  match w.taskBytes p ctx a off 4 with
  | .error r => .error r
  | .ok (l, bad, w) => if bad then .error (.faults 0x1E, w) else .ok (leNat l, w)

/-- A 32-bit word written. -/
def Work.putWord (p ctx a off v : Nat) (w : Work) : TaskRes := w.taskPut p ctx a off (natLE 4 v) false

/-- `n` words from an offset read. -/
def Work.taskWords (p ctx a off n : Nat) (w : Work) : Except TaskRes (List Nat × Work) :=
  (List.range n).foldl (fun (r : Except TaskRes (List Nat × Work)) i =>
    match r with
    | .error e => .error e
    | .ok (l, w) => match w.taskWord p ctx a (off + 4 * i) with
      | .error e => .error e
      | .ok (v, w) => .ok (l ++ [v], w)) (.ok ([], w))

/-! ### Running a task (R240–R242) -/

/-- A task leaves its Skipper's hand: its walker deregisters, idle time begins. -/
def Work.letGo (p : Nat) (w : Work) : Work :=
  let w := match (w.skp p).run with
    | some { task := _, ran := _, walk := some (rq, g) } => w.walkerOut rq g
    | _ => w
  (w.modSkp p fun g => { g with run := none, idleFrom := w.now + 1 }).showSkp p

/-- The task that a row of a kind carries out, in the Skipper's hand: one taken and not yet run, which it may run on whatever becomes of the home context of
its page (R243), or the Skipper's own next one. -/
def Work.toRun (w : Work) (p kind : Nat) : Option (SkpTask × Work) :=
  match (w.skp p).run with
  | some r =>
    let st := (w.page p).state
    if typeOf p == 6 && w.live p && st != .off && st != .fenced && !r.ran && r.task.kind == kind && (w.ctx r.task.ctx).state == .running then some (r.task, w)
    else none
  | none => if w.skpWorks p then (w.ownTask p).bind fun t => if t.kind = kind then some (t, w.takeTask p p t) else none else none

/-- A failed task (R242): nothing further, no join; a contained fault of its context. -/
def Work.taskFail (p : Nat) (t : SkpTask) (st : Status) (w : Work) : Work :=
  let w := w.letGo p
  let w := ((w.set p R.SKP_LASTFAIL_STATUS st.code).set p R.SKP_LASTFAIL_KIND t.kind).set p R.SKP_LASTTAG_TAG t.tag
  (((w.count p 7 1).raise p 16).thaw t.ctx).ctxFault t.ctx p 0x70 (some (st.code + 256 * t.kind))

/-- What becomes of the task in hand. One that waits, for its table or its staging slot, stays in hand with nothing done but what `act` says. -/
def Work.taskEnds (p : Nat) (t : SkpTask) (r : TaskRes) : Work :=
  match r with
  | (.ran, w) => w.modSkp p fun g => { g with run := g.run.map fun r => { r with ran := true } }
  | (.fails st, w) => w.taskFail p t st
  | (.faults code, w) => ((w.letGo p).thaw t.ctx).ctxFault t.ctx p code none
  | (.waits _, w) => w

/-- A kind's row: the task in hand is carried out, unless a read has to wait (R157, R165). -/
def Work.runKind (p kind : Nat) (act : SkpTask → Work → TaskRes) (w : Work) : Work :=
  match w.toRun p kind with
  | none => w
  | some (t, w) => w.tryUnit p t.ctx fun w => Work.taskEnds p t (act t w)

/-- COPY. R236. -/
def execCopy (die inst : Nat) (s : State) : Host.Outcome State Fault Refusal :=
  .next (s.run fun w => w.runKind (skpPage die inst) 0x01 fun t w => w.copyRun (skpPage die inst) t.ctx t.src 0 t.dst 0 t.len)

/-- The rows of a GATHER or a SCATTER in ascending i, up to the first failure. -/
def Work.moveRows (p : Nat) (t : SkpTask) (gather : Bool) (w : Work) : TaskRes :=
  let size := t.p0
  if size < 4 ∨ 65536 < size ∨ size % 4 ≠ 0 then (.fails .shape, w)
  else eachItem (fun i w => match w.taskIndex p t.ctx t.p1 (4 * i) with
    | .error r => r
    | .ok (idx, w) =>
      if gather then w.copyRun p t.ctx t.src (idx * size) t.dst (i * size) size
      else w.copyRun p t.ctx t.src (i * size) t.dst (idx * size) size) (List.range t.len) w

/-- GATHER. R236. -/
def execGather (die inst : Nat) (s : State) : Host.Outcome State Fault Refusal :=
  .next (s.run fun w => w.runKind (skpPage die inst) 0x02 fun t w => w.moveRows (skpPage die inst) t true)

/-- SCATTER. R236. -/
def execScatter (die inst : Nat) (s : State) : Host.Outcome State Fault Refusal :=
  .next (s.run fun w => w.runKind (skpPage die inst) 0x03 fun t w => w.moveRows (skpPage die inst) t false)

/-- FILL. R236: the last piece of the pattern may be cut short. -/
def execFill (die inst : Nat) (s : State) : Host.Outcome State Fault Refusal :=
  .next (s.run fun w => w.runKind (skpPage die inst) 0x0B fun t w =>
    let pat := natLE 4 t.p0
    eachItem (fun (pc : Nat × Nat) w => w.lay (skpPage die inst) t.ctx t.dst pc.1 ((List.range pc.2).map fun i => pat.getD ((pc.1 + i) % 4) 0) false)
      (pieces (fieldAt t.dst) (fieldAt t.dst) (t.len / 64 + 2) 0 t.len) w)

/-- The value of a REDUCE over values taken in ascending index; of none, the identity (R96). -/
def reduceVals (op : Nat) : List Nat → Nat
  | [] => if op = 0 then 0 else if op = 1 then ninf32 else pinf32
  | x :: l => l.foldl (if op = 0 then f32Add else if op = 1 then f32Max else f32Min) x

/-- REDUCE. R236. -/
def execReduce (die inst : Nat) (s : State) : Host.Outcome State Fault Refusal :=
  .next (s.run fun w => w.runKind (skpPage die inst) 0x09 fun t w =>
    let p := skpPage die inst
    if t.p0 % 4 = 3 then (.fails .unknown, w)
    else match w.taskWords p t.ctx t.src 0 t.len with
      | .error r => r
      | .ok (l, w) => w.putWord p t.ctx t.dst 0 (reduceVals (t.p0 % 4) l))

/-! ### Merging Ringlet states (R225) -/

/-- One row merged: (o, λ) with (q, μ). -/
def mergeRow (o : List Nat) (lam : Nat) (q : List Nat) (mu : Nat) : List Nat × Nat :=
  if mu = ninf32 then (o, lam)
  else if ofF32 mu = .nan ∨ ofF32 lam = .nan then (o.map fun _ => nan32, nan32)
  else if lam = ninf32 then (q, mu)
  else
    let mx := f32Max lam mu
    let a := f32Exp2 (f32Sub lam mx)
    let b := f32Exp2 (f32Sub mu mx)
    let s := f32Add a b
    let r := f32Rcp s
    (List.zipWith (fun x y => f32Mul (f32Add (f32Mul a x) (f32Mul b y)) r) o q, f32Add mx (f32Log2 s))

/-- Offset of the statistics of a state of `n` rows of D values, from its address (R195). -/
def statOff (a n d : Nat) : Nat := ceilDiv (a % 2 ^ 48 + n * d * 4) 128 * 128 - a % 2 ^ 48

/-- A partial merged into a running state, row by row. -/
def Work.mergeState (p ctx src dst n d : Nat) (w : Work) : TaskRes :=
  let ss := statOff src n d
  let ds := statOff dst n d
  eachItem (fun i w =>
    match w.taskWords p ctx src (i * d * 4) d with
    | .error r => r
    | .ok (q, w) => match w.taskWord p ctx src (ss + 4 * i) with
      | .error r => r
      | .ok (mu, w) => match w.taskWords p ctx dst (i * d * 4) d with
        | .error r => r
        | .ok (o, w) => match w.taskWord p ctx dst (ds + 4 * i) with
          | .error r => r
          | .ok (lam, w) =>
            let (o, lam) := mergeRow o lam q mu
            match eachItem (fun j w => w.putWord p ctx dst (i * d * 4 + 4 * j) (o.getD j 0)) (List.range d) w with
            | (.ran, w) => w.putWord p ctx dst (ds + 4 * i) lam
            | r => r) (List.range n) w

/-- RLT_MERGE. R225, R236. -/
def execRltMerge (die inst : Nat) (s : State) : Host.Outcome State Fault Refusal :=
  .next (s.run fun w => w.runKind (skpPage die inst) 0x0A fun t w =>
    if t.p0 % 8 > 4 then (.fails .unknown, w)
    else w.mergeState (skpPage die inst) t.ctx t.src t.dst t.len ([64, 96, 128, 192, 256].getD (t.p0 % 8) 64))

/-! ### Appends, flushes and splits of the attention cache (R179, R186–R189) -/

/-- RB of a plane of a request's cache, as the layout of its tokens takes it (log entry 63). -/
def kvRb (rq plane ts : Nat) : Nat := max 1 (min (2 ^ ts) (Config.kvRow rq plane))

/-- The rows of a token, L × 2 × H of them, as many as a token slot holds (R170, log entry 63). -/
def kvCount (rq plane ts : Nat) : Nat := min (2 ^ ts / kvRb rq plane ts) (max 1 (Config.kvRows rq plane))

/-- Row m of token `tok` of a page of class k (R170). -/
def tokOff (rb k tok m : Nat) : Nat := m * 2 ^ k * rb + tok * rb

/-- The rows of a token moved from one page to another. -/
def Work.moveToken (p ctx rb n : Nat) (src sk stok dst dk dtok : Nat) (w : Work) : TaskRes :=
  eachItem (fun m w => w.copyRun p ctx src (tokOff rb sk stok m) dst (tokOff rb dk dtok m) rb) (List.range n) w

/-- A token's rows, one after another at an offset of SRC, appended at a place of a page. -/
def Work.appendToken (p ctx rb n : Nat) (src so dst dk dtok : Nat) (w : Work) : TaskRes :=
  eachItem (fun m w => w.copyRun p ctx src (so + m * rb) dst (tokOff rb dk dtok m) rb) (List.range n) w

/-- Where the shadow of a table has a position: row, class, token, entry of a plane. -/
def Work.shadowAt (w : Work) (t : Tab) (pos plane : Nat) : Option (Nat × Nat × Nat × Nat) :=
  (w.walkRow t t.shadow pos).map fun (row, k, tok) => (row, k, tok, w.tEntry t t.shadow row plane)

/-- The page behind a row of the shadow as a task reaches it: its line is read, where poisoned a fault of the task's context (R156), and its entry is as R174
asks, or the fault is PT_ENTRY. -/
def Work.rowPage (t : Tab) (row k plane : Nat) (w : Work) : Except TaskRes (Nat × Work) :=
  let a := w.tRowAt t t.shadow row + 8 * plane
  let w := w.readAny a 8
  if w.poisoned a 8 then .error (.faults 0x1E, w)
  else match w.entryPage t (w.tEntry t t.shadow row plane) k with
    | none => .error (.faults 0x60, w)
    | some x => .ok (x, w)

/-- How a table edit ends for a task: it waits for a retirement, it fails, or it is done. -/
def editRes (r : Status × Work) : TaskRes :=
  match r.1 with
  | .busy => (.waits true, r.2)
  | .done => (.ran, r.2)
  | st => (.fails st, r.2)

/-- The request is verified in this step and SRV_SAMPLE has not answered for it: its nodes go to staging alone (R189). -/
def Work.drafting (w : Work) (rq : Nat) : Bool :=
  let b := w.batch (w.req rq).ctx
  b.formed && (match b.ents.findIdx? fun e => e.1 == rq with
    | some i => (b.ents.getD i (0, 0, 0)).2.1 == 2 && !bit (w.le (b.base + 16 + 16 * i + 12) 1) 7
    | none => false)

/-- A position of a KV_SCATTER written to its staging slot, once that is free (R187). -/
def Work.stageOne (p : Nat) (t : SkpTask) (rq plane i : Nat) (w : Work) : TaskRes :=
  let pos := t.p1 % 2 ^ 25 + i
  let tb := w.tab rq
  let ts := w.tshift (w.tTag tb plane)
  if pos < w.pagedMin tb + 2 ^ w.tMaxk tb then
    w.appendToken p t.ctx (kvRb rq plane ts) (kvCount rq plane ts) t.src (i * 2 ^ ts) (w.tStage tb plane) (w.tMaxk tb) (pos % 2 ^ w.tMaxk tb)
  else (.waits false, w)

/-- A position of a KV_SCATTER that the main path takes where it can (R186): whether it did. -/
def Work.scatterOne (p : Nat) (t : SkpTask) (rq plane i : Nat) (w : Work) : TaskRes × Bool :=
  let pos := t.p1 % 2 ^ 25 + i
  let tb := w.tab rq
  let ts := w.tshift (w.tTag tb plane)
  let grown := if pos < w.tCover tb tb.shadow then (Status.done, w) else w.poolGrow rq (tb.gen + 1) (pos + 1)
  match grown with
  | (.done, w) =>
    match w.shadowAt (w.tab rq) pos plane with
    | some (row, k, tok, e) =>
      if entryShared e then (w.stageOne p t rq plane i, false)
      else match w.rowPage (w.tab rq) row k plane with
        | .error r => (r, true)
        | .ok (a, w) => (w.appendToken p t.ctx (kvRb rq plane ts) (kvCount rq plane ts) t.src (i * 2 ^ ts) a k tok, true)
    | none => (w.stageOne p t rq plane i, false)
  | (.capacity, w) => (w.stageOne p t rq plane i, false)
  | r => (editRes r, true)

/-- The positions of a KV_SCATTER in ascending order, with the end of what the main path has written. Past a position that went to staging the rest goes there
too: a walker reads every position from PAGED on in staging (R174), and PAGED cannot pass the one staged. -/
def Work.scatterAll (p : Nat) (t : SkpTask) (rq plane : Nat) : List Nat → Bool → Nat → Work → TaskRes × Nat
  | [], _, upto, w => ((.ran, w), upto)
  | i :: l, main, upto, w =>
    match if main then w.scatterOne p t rq plane i else (w.stageOne p t rq plane i, false) with
    | ((.ran, w), true) => Work.scatterAll p t rq plane l true (t.p1 % 2 ^ 25 + i + 1) w
    | ((.ran, w), false) => Work.scatterAll p t rq plane l false upto w
    | (r, _) => (r, upto)

/-- Whether the request and plane that a task names are of its context's partition. -/
def Work.badTable (w : Work) (t : SkpTask) : Option Status :=
  let tb := w.tab (t.p0 % 2 ^ 13)
  firstFail [(!tb.reg || tb.part != (w.ctx t.ctx).part, .bound), (decide (bits t.p0 14 13 ≥ w.tPlanes tb), .shape)]

/-- A task has registered as a walker of a table's published generation (R183). -/
def Work.walkTask (p rq : Nat) (w : Work) : Work :=
  let g := (w.tab rq).gen
  (w.walkerIn rq).modSkp p fun x => { x with run := x.run.map fun r => { r with walk := some (rq, g) } }

/-- What is left of a task of a table that has to wait: nothing it did, but the wait for a retirement, counted (R181). -/
def Work.tableWait (rq : Nat) (w : Work) (r : TaskRes) : TaskRes :=
  match r.1 with
  | .waits true => (.waits true, w.retireWait rq)
  | .waits false => (.waits false, w)
  | _ => r

/-- KV_SCATTER. R186, R187, R189, R236: the main path as far as it holds, then staging; SETPAGED to the end of the main path, or to where a task of later
positions has set it already, whichever is more, so that the order of the tasks of a step changes nothing (R245; log entry 64). -/
def execKvScatter (die inst : Nat) (s : State) : Host.Outcome State Fault Refusal :=
  .next (s.run fun w => w.runKind (skpPage die inst) 0x04 fun t w =>
    let p := skpPage die inst
    let rq := t.p0 % 2 ^ 13
    let tb := w.tab rq
    match w.badTable t with
    | some st => (.fails st, w)
    | none =>
      if t.p1 % 2 ^ 25 < (w.req rq).clen then (.fails .shape, w)
      else
        let main := w.tPaged tb (tb.gen % 2) == (w.req rq).clen && !w.drafting rq
        w.tableWait rq <| match Work.scatterAll p t rq (bits t.p0 14 13) (List.range t.len) main 0 (w.walkTask p rq) with
          | ((.ran, w), 0) => (.ran, w)
          | ((.ran, w), upto) => editRes (w.poolSetpaged rq ((w.tab rq).gen + 1) (max upto (w.tPaged (w.tab rq) (w.tab rq).shadow)))
          | (r, _) => r)

/-- STAGE_FLUSH. R188: the staged positions are copied into their pages, once the rows are there unshared. A GROW that finds no page leaves the wait it
registers; the PPL appends the row once a page is free. -/
def execStageFlush (die inst : Nat) (s : State) : Host.Outcome State Fault Refusal :=
  .next (s.run fun w => w.runKind (skpPage die inst) 0x05 fun t w =>
    let p := skpPage die inst
    let rq := t.p0 % 2 ^ 13
    let plane := bits t.p0 14 13
    match w.badTable t with
    | some st => (.fails st, w)
    | none =>
      let tb := w.tab rq
      let clen := (w.req rq).clen
      let lo := w.tPaged tb (tb.gen % 2)
      let ts := w.tshift (w.tTag tb plane)
      let mk := w.tMaxk tb
      match if clen ≤ w.tCover tb tb.shadow then (Status.done, w) else w.poolGrow rq (tb.gen + 1) clen with
      | (.done, w') =>
        let at_ := (List.range (clen - lo)).map fun i => w'.shadowAt (w'.tab rq) (lo + i) plane
        if at_.any fun x => match x with | some (_, _, _, e) => entryShared e | none => true then (.waits false, w)
        else w.tableWait rq <|
          match eachItem (fun i w => match at_.getD i none with
            | some (row, k, tok, _) => match w.rowPage (w.tab rq) row k plane with
              | .error r => r
              | .ok (a, w) => w.moveToken p t.ctx (kvRb rq plane ts) (kvCount rq plane ts) (w.tStage tb plane) mk ((lo + i) % 2 ^ mk) a k tok
            | none => (.ran, w)) (List.range (clen - lo)) (w'.walkTask p rq) with
          | (.ran, w) =>
            match w.poolSetpaged rq ((w.tab rq).gen + 1) (max clen (w.tPaged (w.tab rq) (w.tab rq).shadow)) with
            | (.done, w) => (.ran, w.count (tabPage rq) 4 1)
            | x => editRes x
          | r => r
      | (.capacity, w') => (.waits false, w')
      | r => w.tableWait rq (editRes r))

/-- PAGE_SPLIT. R179: the positions below p of a shared row copied into the split reserve's pages, which replace it. -/
def execPageSplit (die inst : Nat) (s : State) : Host.Outcome State Fault Refusal :=
  .next (s.run fun w => w.runKind (skpPage die inst) 0x06 fun t w =>
    let p := skpPage die inst
    let rq := t.p0 % 2 ^ 13
    match w.badTable t with
    | some st => (.fails st, w)
    | none =>
      let tb := w.tab rq
      match w.shadowAt tb (t.p1 % 2 ^ 25) 0 with
      | none => (.fails .shape, w)
      | some (row, k, tok, e) =>
        let planes := w.tPlanes tb
        if !entryShared e then (.fails .shape, w)
        else if tb.split.length ≠ planes then (.fails .capacity, w)
        else w.tableWait rq <|
          match eachItem (fun j w => match w.rowPage tb row k j with
            | .error r => r
            | .ok (src, w) =>
              let ts := w.tshift (w.tTag tb j)
              eachItem (fun i w => w.moveToken p t.ctx (kvRb rq j ts) (kvCount rq j ts) src k i (tb.split.getD j ⟨0, 0, 0⟩).addr k i) (List.range tok) w)
            (List.range planes) (w.walkTask p rq) with
          | (.ran, w) =>
            match w.poolReplace rq (tb.gen + 1) row (tb.split.map (·.addr)) with
            | (.done, w) => (.ran, w.count (tabPage rq) 3 1)
            | x => editRes x
          | r => r)

/-! ### Completion and ends (R241–R244) -/

/-- A merge has completed; the next may be pushed (R225), and the run it belongs to goes on. -/
def Work.mergeDone (t : SkpTask) (w : Work) : Work :=
  let l := SMap.at [] w.dev.rlt.merges t.ctx
  if SMap.at false w.dev.rlt.merging t.ctx ∧ (l.head?.map fun x => setBits x 23 16 t.ctx) = some t.x then
    (w.rlt fun r => { r with merging := SMap.drop r.merging t.ctx, merges := SMap.mod [] r.merges t.ctx (·.drop 1) }).rltPumpCtx t.ctx
  else w

/-- A task has completed: it leaves its Skipper's hand and is counted; what waited for it goes on (R83, R225). -/
def Work.taskDone (p : Nat) (t : SkpTask) (w : Work) : Work := (((w.letGo p).thaw t.ctx).count p 0 1).mergeDone t

/-- The join of a task that has run (R241): JOIN decremented, and GO injected where it reaches zero. While there is no room for the GO the task stays in
hand. -/
def Work.joinTask (p : Nat) (t : SkpTask) (w : Work) : Work :=
  if t.join = 0 then w.taskDone p t
  else if !w.inT1 (w.ctx t.ctx).part t.join 8 then w.taskFail p t .bound
  else
    let w' := w.readLines t.join 8
    if w'.poisoned t.join 8 then w'.taskFail p t .poison
    else
      let v := w'.le t.join 8
      if v = 0 then (w'.taskDone p t).ctxFault t.ctx p 0x71 none
      else
        match (w'.storeLE t.join 8 (v - 1)).injectGo t.ctx (if v = 1 then t.go else none) with
        | some w => w.taskDone p t
        | none => w

/-- SKP_TASK_COMPLETE. R241: the writes of a task that has run are accepted. -/
def execSkpTaskComplete (die inst : Nat) (s : State) : Host.Outcome State Fault Refusal :=
  .next (s.run fun w =>
    let p := skpPage die inst
    match (w.skp p).run with
    | some r => if 16 ≤ die ∨ 32 ≤ inst ∨ !r.ran ∨ w.unaccepted p then w else w.tryUnit p r.task.ctx fun w => w.joinTask p r.task
    | none => w)

/-- Whether a context has a task on some deque or in hand (R244). -/
def Work.hasTasks (w : Work) (c : Nat) : Bool :=
  w.dev.skp.any fun e => (e.2.deque.any fun t => t.ctx == c) || (match e.2.run with | some r => r.task.ctx == c | none => false)

/-- The tasks of a context discarded (R244, R370). -/
def Work.skpDrop (c : Nat) (w : Work) : Work :=
  (SMap.keys w.dev.skp).foldl (fun (w : Work) p =>
    let w := match (w.skp p).run with
      | some r => if r.task.ctx = c then w.letGo p else w
      | none => w
    (w.modSkp p fun g => { g with deque := g.deque.filter fun t => t.ctx != c }).showSkp p) (if w.hasTasks c then w.thaw c else w)

/-- Tasks of a context that enters QUIESCING and have not run go back to the far end of the deque they came from (R243). -/
def Work.skpReturn (c : Nat) (w : Work) : Work :=
  (SMap.keys w.dev.skp).foldl (fun (w : Work) p =>
    match (w.skp p).run with
    | some r =>
      if r.task.ctx = c ∧ !r.ran then
        ((w.letGo p).modSkp r.task.home fun g => { g with deque := g.deque ++ [r.task] }).showSkp r.task.home
      else w
    | none => w) w

end Sys2Proof.Machine
end

