-- ==== Sys2Proof/Machine/Ringlet.lean ====
section
/-!
DEFINITION. Ringlet.lean: the commands of sequence-parallel groups and what arrives from their neighbours (R215–R232), and the end of a
Hawkmoth list (R196, R225).
-/
namespace Sys2Proof.Machine

/-- Two packages of one board and their distance in hops; none across boards. -/
def meshDist (a b : Nat) : Option Nat :=
  if pkgBoard a = pkgBoard b then
    some ((max (pkgX a) (pkgX b) - min (pkgX a) (pkgX b)) + (max (pkgY a) (pkgY b) - min (pkgY a) (pkgY b)))
  else none

/-- A neighbour is where R219 asks: next to the package, or for the closing edge of a group of an odd number of members at distance 2. -/
def Work.ringNear (w : Work) (pkg : Nat) (closing : Bool) : Bool :=
  match meshDist w.ownPkg pkg with
  | some 1 => true
  | some 2 => closing
  | _ => false

/-- A page may anchor a group: it has none in FORMED or RUNNING, and no other SEQ page of its context anchors one or forms one (R215, R230). -/
def Work.mayForm (w : Work) (p : Nat) : Bool :=
  let c := (w.page p).ctx.getD 0
  (w.rstate p == 0 || w.rstate p == 3) && (match w.anchorOf c with | some a => a == p | none => true) &&
    !((w.seqPages c).any fun q => q != p && (w.page q).outst.any fun o => o.code == 0x58)

def rltFormSpec : CmdSpec :=
  { types := [4], code := 0x58, states := [.bound, .running]
    resv := fun c => !bit (c.arg 0) 7 && !bit (c.arg 0) 15 && bits (c.arg 0) 31 24 == 0 && bits (c.arg 1) 15 12 == 0 &&
      bits (c.arg 1) 31 28 == 0 && bits (c.arg 2) 31 16 == 0 && c.addrOk 3 && bits (c.arg 5) 31 19 == 0
    legal := fun c w => w.mayForm c.page }

/-- RLT_FORM. R215, R216, R219, R231: accepted where the limits, the slots and the places of the neighbours are right; both neighbours are told. -/
def execRltForm (q : Issue) (s : State) : Host.Outcome State Fault Refusal :=
  .next (s.run fun w => w.command q rltFormSpec fun c w =>
    let p := c.page
    let ctx := (w.page p).ctx.getD 0
    let n := bits (c.arg 0) 6 0
    let rank := bits (c.arg 0) 14 8
    let swlog := bits (c.arg 0) 19 16
    let nslot := bits (c.arg 0) 23 20
    let area := c.arg64 3
    let slotK := bits (c.arg 5) 18 0
    let (pred, w) := w.physPkg (w.ctx ctx).part (bits (c.arg 1) 11 0)
    let (succ, w) := w.physPkg (w.ctx ctx).part (bits (c.arg 1) 27 16)
    let near := fun (x : Option Nat) (edge : Bool) => match x with | some k => w.ringNear k (edge && n % 2 == 1) | none => false
    w.checked c [
      (!w.inT1 (w.ctx ctx).part area (nslot * slotK * 1024) || !near pred (rank == 0) || !near succ (rank + 1 == n), .bound),
      (decide (n < 2) || decide (64 < n) || decide (n ≤ rank) || decide (swlog < 6) || decide (12 < swlog) || decide (nslot < 2) ||
        decide (8 < nslot) || decide (slotK < 64) || decide (262144 < slotK), .shape)] fun w =>
      let (v, w) := w.fresh
      let g : RltGroup := { p := n, rank := rank, swlog := swlog, nslot := nslot, pred := pred.getD 0, succ := succ.getD 0, gid := c.arg 2
                            area := area, slotK := slotK, succArea := v.toNat % 2 ^ 48 }
      let words := [g.gid, n, rank, swlog, nslot]
      (((w.accept c).modRgroup p fun _ => g).ringMsg p 0 g.pred words).ringMsg p 0 g.succ words)

/-- RLT_FORM_REPLY. R219: a neighbour's reply agrees, or the formation ends SHAPE; with both the group is agreed. -/
def execRltFormReply (page : Nat) (fromSucc : Bool) (pkg gid p rank swlog nslot : Nat) (s : State) : Host.Outcome State Fault Refusal :=
  .next (s.run fun w => w.onRing page fun w =>
    match (w.page page).outst with
    | some o =>
      let g := w.rgroup page
      if o.code ≠ 0x58 ∨ o.final ≠ none ∨ pkg ≠ (if fromSucc then g.succ else g.pred) then w
      else if gid ≠ g.gid ∨ p ≠ g.p ∨ swlog ≠ g.swlog ∨ nslot ≠ g.nslot ∨
          rank ≠ (if fromSucc then (g.rank + 1) % g.p else (g.rank + g.p - 1) % g.p) then w.settle page .shape
      else
        let w := w.modRgroup page fun g => { g with predOk := g.predOk || !fromSucc, succOk := g.succOk || fromSucc }
        if (w.rgroup page).predOk && (w.rgroup page).succOk then w.settle page .done else w
    | none => w)

/-- RLT_FORM_TIMEOUT. R231: no agreement within TIMEOUT. -/
def execRltFormTimeout (page : Nat) (s : State) : Host.Outcome State Fault Refusal :=
  .next (s.run fun w =>
    match (w.page page).outst with
    | some o => if o.code = 0x58 ∧ o.final = none ∧ o.stamp + w.rltTimeout page ≤ w.now then w.settle page .busy else w
    | none => w)

/-- What an RLT_FORM leaves when it completes DONE (R230, Table 12.7). -/
def Work.ringFormed (p : Nat) (w : Work) : Work :=
  let g := w.rgroup p
  let w := (((w.setRstate p 1).set p R.SEQ_RLTSTS_RANK g.rank).set p R.SEQ_RLTSTS_P g.p).set p R.SEQ_RLTSTS_ODDCLOSE (g.p % 2)
  ((w.set p R.SEQ_RLTPEER_PRED g.pred).set p R.SEQ_RLTPEER_SUCC g.succ).set p R.SEQ_RLTBLK_BLOCKS 0

/-! ### Runs -/

def rltRunSpec : CmdSpec :=
  { types := [4], code := 0x59, states := [.bound, .running]
    resv := fun c => c.addrOk 0 && c.addrOk 3 && bits (c.arg 2) 15 12 == 0 && bits (c.arg 2) 31 17 == 0 && bits (c.arg 5) 31 24 == 0
    legal := fun c w => w.rstate c.page == 1 }

/-- A list record passes (R224): its fields, its jobs, its merge list, and the checks of Table 11.3. `lo` and `hi` bound what its jobs may take
their keys from; the partial that a member of a decode step computes is against its own slice, wherever that lies (R227). -/
def Work.recordOk (w : Work) (run : RltRun) (c lo hi : Nat) (slice : Bool) (x : RltRec) : Bool :=
  let part := (w.ctx c).part
  !x.resv && x.njob != 0 && w.inT1 part x.mlist (16 * x.njob) && (w.hwkCheck (x.ask run c)).isNone && (w.page x.page).ctx == some c &&
    (List.range x.njob).all fun k =>
      let j := w.hjob x.list k
      !j.paged && !j.bwd && j.oconv == 0 && (slice || (decide (lo ≤ j.new) && decide (j.new + 2 * j.nnew * j.rb ≤ hi)))

/-- The entry of a block passes. -/
def Work.entryOk (w : Work) (g : RltGroup) (run : RltRun) (c n : Nat) : Bool :=
  let e := w.rltEntry run n
  let part := (w.ctx c).part
  let own := (run.arrival n).isNone
  let base := w.blockAt g run n
  !e.resv && e.lrec % 32 == 0 && decide (1 ≤ e.nlrec) && decide (e.nlrec ≤ 16) && e.len % 64 == 0 && decide (e.len ≤ 1024 * g.slotK) &&
    (if own then w.inT1 part e.loc e.len else e.loc == 0) && w.inT1 part e.lrec (32 * e.nlrec) &&
    (List.range e.nlrec).all fun k => w.recordOk run c base (base + if own then e.len else 1024 * g.slotK) (run.decode && n == g.rank) (w.rltRec run n k)

/-- The states of a list taken from data in their order. -/
def cutStates : List (Nat × Nat × Nat) → List Byte → List ((Nat × Nat × Nat) × List Byte)
  | [], _ => []
  | e :: l, d => (e, d.take (stateBytes e.1 e.2.1 e.2.2)) :: cutStates l (d.drop (stateBytes e.1 e.2.1 e.2.2))

/-- A received state merged into the running state at an address, row by row (R225). -/
def Work.mergeBytes (e : Nat × Nat × Nat) (data : List Byte) (w : Work) : Work :=
  let (a, rows, d) := e
  let so := ceilDiv (a + rows * d * 4) 128 * 128 - a
  let num := fun off => leNat ((data.drop off).take 4)
  (List.range rows).foldl (fun (w : Work) r =>
    let q := (List.range d).map fun i => num ((r * d + i) * 4)
    let (o, lam) := mergeRow (w.f32s (a + r * d * 4) d) (w.le (a + so + 4 * r) 4) q (num (so + 4 * r))
    (w.putF32s (a + r * d * 4) o).storeLE (a + so + 4 * r) 4 lam) w

/-- The state of a decode step that has come: at rank 0 the final one, elsewhere that of the rank before, merged first (R227). -/
def Work.ringStateIn (p : Nat) (data : List Byte) (w : Work) : Work :=
  let g := w.rgroup p
  match g.run with
  | some r =>
    let l := w.runStates r g.rank
    let size := l.foldl (fun n e => n + stateBytes e.1 e.2.1 e.2.2) 0
    if !r.decode ∨ r.stateIn ∨ data.length ≠ size ∨ (g.rank = 0 ∧ !r.stateOut) then w
    else
      let w := (cutStates l data).foldl (fun (w : Work) e => if g.rank = 0 then w.store e.1.1 e.2 else w.mergeBytes e.1 e.2) w
      w.modRun p fun r => { r with stateIn := true, last := w.now }
  | none => w

/-- RLT_RUN. R221, R222, R224, R227, R231: the schedule, every entry of it, is checked, and the run begins, with the blocks that have come already; a broken
schedule ends UNKNOWN before any transfer. -/
def execRltRun (q : Issue) (s : State) : Host.Outcome State Fault Refusal :=
  .next (s.run fun w => w.command q rltRunSpec fun c w =>
    let p := c.page
    let ctx := (w.page p).ctx.getD 0
    let g := w.rgroup p
    let decode := bit (c.arg 2) 16
    let run : RltRun :=
      { sched := c.arg64 0, ncb := bits (c.arg 2) 11 0, decode := decode, part := c.arg64 3, psize := bits (c.arg 5) 23 0
        free := List.range g.nslot, last := w.now, issue := (if decode then g.rank else 0, 0), merge := (if decode then g.rank else 0, 0) }
    let w := (w.accept c).setRstate p 2
    let ok := run.ncb != 0 && (!decode || run.ncb == 1) && run.sched % 32 == 0 && w.inT1 (w.ctx ctx).part run.sched (32 * g.p * run.ncb) &&
      (List.range (g.p * run.ncb)).all fun n => w.entryOk g run ctx n
    if ok then
      let w := w.modRgroup p fun g => { g with run := some { run with recv := min g.early (run.arrivals g) }, owed := true, early := 0, earlyState := none }
      ((g.earlyState.elim w fun data => w.ringStateIn p data)).rltPump p
    else w.settle p .unknown)

/-- A receive slot holds a block that has not been freed. -/
def RltRun.occupied (r : RltRun) (g : RltGroup) (slot : Nat) : Bool :=
  (List.range r.recv).any fun k =>
    let n := r.ofArrival g k
    k % g.nslot == slot && (decide (r.issue.1 ≤ n) || r.slots.contains n || r.lists.any fun x => x.2.1 == n)

/-- A block lands in a slot of a member, and is counted (R222, Table 12.7). -/
def Work.ringLand (p n : Nat) (data : List Byte) (w : Work) : Work :=
  let g := w.rgroup p
  (w.store (g.area + n % g.nslot * (1024 * g.slotK)) data).set p R.SEQ_RLTBLK_BLOCKS (w.get p R.SEQ_RLTBLK_BLOCKS + 1)

/-- RLT_BLOCK_ARRIVE. R222, Table 12.4: the next block of the run lands in its slot; before the member's own RLT_RUN the blocks of the next run do, and
after an abandonment those in flight. -/
def execRltBlockArrive (page : Nat) (data : List Byte) (s : State) : Host.Outcome State Fault Refusal :=
  .next (s.run fun w => w.onRing page fun w =>
    let g := w.rgroup page
    match g.run with
    | some r =>
      let n := r.ofArrival g r.recv
      if r.recv ≥ r.arrivals g ∨ r.occupied g (r.recv % g.nslot) ∨ data.length ≠ (w.rltEntry r n).len then w
      else ((w.ringLand page r.recv data).modRun page fun r => { r with recv := r.recv + 1, last := w.now }).rltPump page
    | none =>
      if data.length ≤ 1024 * g.slotK ∧ (w.rstate page = 3 ∨ (w.rstate page = 1 ∧ g.early < g.nslot)) then
        (w.ringLand page g.early data).modRgroup page fun g => { g with early := g.early + 1 }
      else w)

/-- RLT_FREE. R222: a slot of the successor is free. -/
def execRltFree (page slot : Nat) (s : State) : Host.Outcome State Fault Refusal :=
  .next (s.run fun w => w.onRing page fun w =>
    let g := w.rgroup page
    match g.run with
    | some r =>
      if slot < g.nslot ∧ slot ∉ r.free then (w.modRun page fun r => { r with free := r.free ++ [slot], last := w.now }).rltPump page else w
    | none => w)

/-- RLT_STATE_ARRIVE. R227: the state of the rank before is merged first; the final state comes back to rank 0. What comes before the member's own RLT_RUN
is kept for it. -/
def execRltStateArrive (page : Nat) (data : List Byte) (s : State) : Host.Outcome State Fault Refusal :=
  .next (s.run fun w => w.onRing page fun w =>
    if (w.rgroup page).run.isSome then (w.ringStateIn page data).rltPump page
    else if w.rstate page = 1 then w.modRgroup page fun g => { g with earlyState := some data }
    else w)

/-- RLT_COMMIT_NOTICE. R228: the slice length follows from the committed length now known, and the notice goes on around the ring. -/
def execRltCommitNotice (page clen : Nat) (s : State) : Host.Outcome State Fault Refusal :=
  .next (s.run fun w => w.onRing page fun w =>
    let g := w.rgroup page
    if (w.rstate page = 1 ∨ w.rstate page = 2) ∧ g.rank ≠ 0 then
      let w := w.modRgroup page fun g => { g with clen := clen }
      if g.rank + 1 = g.p then w else w.ringMsg page 3 g.succ [g.gid, clen]
    else w)

/-- The owner of a group has committed its request (R228): the notice starts around the ring. -/
def Work.ringNotice (c clen : Nat) (w : Work) : Work :=
  match w.anchorOf c with
  | some p =>
    let g := w.rgroup p
    if (w.rstate p = 1 ∨ w.rstate p = 2) ∧ g.rank = 0 then (w.modRgroup p fun g => { g with clen := clen }).ringMsg p 3 g.succ [g.gid, clen] else w
  | none => w

def rltLeaveSpec : CmdSpec :=
  { types := [4], code := 0x5B, states := [.bound, .running], legal := fun c w => w.rstate c.page == 1 || w.rstate c.page == 3 }

/-- RLT_LEAVE. R230, R231: the group is dissolved. -/
def execRltLeave (q : Issue) (s : State) : Host.Outcome State Fault Refusal :=
  .next (s.run fun w => w.command q rltLeaveSpec fun c w =>
    let w := w.rlt fun r => { r with groups := SMap.drop r.groups c.page }
    ((w.setReg c.page (0x400 / 4) 0).setReg c.page (0x418 / 4) 0).reply c .done)

/-- The groups with the contexts that anchor them, those of saved contexts too. -/
def Work.allGroups (w : Work) : List (Nat × RltGroup) :=
  (w.dev.rlt.groups.filterMap fun e => (w.page e.1).ctx.map fun c => (c, e.2)) ++ w.dev.saves.flatMap fun e => e.2.groups.map fun g => (e.1, g.2)

/-- A resource that a run of a group needs (R229, Table 12.4): an engine of the member's placement, or a share of a port towards a neighbour. A binding commit
that names it is BUSY. -/
def Work.ringBusy (w : Work) (kind ix : Nat) : Bool :=
  w.allGroups.any fun e => e.2.run.isSome &&
    let x := w.ctx e.1
    match kind with
    | 2 => bit x.seqs ix
    | 3 => bit x.hwks ix
    | 4 => bit x.skps ix
    | 8 => w.owner kLINK ix == some x.part && [e.2.pred, e.2.succ].any fun q => match w.hop q 0 with
      | .port n _ => (if n % 2 = 0 then n / 2 else 4 + n / 2) == ix / 64
      | _ => false
    | _ => false

/-- HWK_LIST_DONE. R196, R214, R225: a list whose jobs are complete injects GO and completes; in a teardown it ends FAULT, without GO. One that a mover
issued frees its page, and its merges are queued in their order. -/
def execHwkListDone (page : Nat) (s : State) : Host.Outcome State Fault Refusal :=
  .next (s.run fun w =>
    match w.hlist page with
    | some l =>
      if typeOf page ≠ 5 ∨ !l.allDone ∨ w.unaccepted page then w
      else if (w.ctx l.ctx).state = .ending then (if l.mover then w.dropList page else (w.dropList page).complete page .fault)
      else if l.mover then
        let w := w.dropList page
        match w.anchorOf l.ctx with
        | some a =>
          let g := w.rgroup a
          match g.run with
          | some r => match r.lists.find? fun x => x.1 = page with
            | some (_, n, k) =>
              let left := r.lists.filter fun x => x.1 != page
              let computed := !(left.any fun x => x.2.1 == n) && decide (n < r.issue.1)
              let slot := if computed ∧ (r.arrival n).isSome then [n] else []
              (w.modRun a fun r => { r with lists := left, done := r.done ++ [(n, k)], slots := r.slots ++ slot }).rltPump a
            | none => w
          | none => w
        | none => w
      else match w.endList page l with
        | some w => (w.complete page .done).rltPumpCtx l.ctx
        | none => w
    | none => w)

end Sys2Proof.Machine
end

