-- ==== Sys2Proof/Machine/Collective.lean ====
section
/-!
DEFINITION. Collective.lean: collective programs of the sequencer cores, their messages, and how they end (R354–R362).
-/
namespace Sys2Proof.Machine

def Work.coll (w : Work) (p : Nat) : Coll := SMap.at {} w.dev.coll p
def Work.modColl (p : Nat) (f : Coll → Coll) (w : Work) : Work := w.d fun d => { d with coll := SMap.mod {} d.coll p f }
def Work.modProg (p : Nat) (f : CollProg → CollProg) (w : Work) : Work := w.modColl p fun c => { c with prog := c.prog.map f }

/-! ### Op words and peers (R355, R356) -/

def opCode (x : Nat) : Nat := bits x 3 0
def opPeer (x : Nat) : Nat := bits x 7 4
def opBase (x : Nat) : Nat := bits x 11 8
def opFn (x : Nat) : Nat := bits x 14 12
def opFlag (x : Nat) : Bool := bit x 15
def opImm (x : Nat) : Nat := bits x 31 16

/-- Peer entry n is VALID. -/
def peerValid (peers : List Nat) (n : Nat) : Bool := bit (peers.getD n 0) 31

/-- The op is one of Table 20.2, its target lies in the program, and the peers it names are there (R354). -/
def opOk (peers : List Nat) (nops x : Nat) : Bool :=
  let c := opCode x
  decide (1 ≤ c) && decide (c ≤ 10) &&
    (c != 2 || (decide (1 ≤ opImm x) && decide (opImm x ≤ 4095))) &&
    (!(c == 1 || c == 3 || c == 4 || c == 5) || peerValid peers (opPeer x)) &&
    (c != 6 || (List.range 16).all fun n => !bit (opImm x) n || peerValid peers n) &&
    (c != 9 || decide (opImm x % 256 < nops))

/-- The SEQ page as a peer entry names it in this package. -/
def Work.selfPeer (w : Work) (p : Nat) : Nat := w.ownPkg + dieOf p * 2 ^ 12 + (blockOf p).2 * 2 ^ 16

/-- A peer entry with the physical package id of R349. -/
def Work.peerCode (part x : Nat) (w : Work) : Option Nat × Work :=
  match w.physPkg part (x % 4096) with
  | (some q, w) => (some (q + bits x 17 12 * 2 ^ 12), w)
  | (none, w) => (none, w)

/-- The registers X. -/
def Work.x (w : Work) (p n : Nat) : Nat := w.get p (R.SEQ_COLLX_X.i n)
def Work.setX (p n v : Nat) (w : Work) : Work := w.set p (R.SEQ_COLLX_X.i n) v
/-- The fuse width. -/
def Work.fuse (w : Work) (p : Nat) : Nat := w.get p R.SEQ_COLLSTS_W + 1
/-- The registers an op uses: RBASE to RBASE + W − 1, none beyond X15 (log entry 74). -/
def Work.lanes16 (w : Work) (p x : Nat) : List Nat := (List.range (w.fuse p)).filterMap fun i => if opBase x + i < 16 then some (opBase x + i) else none

/-! ### Messages (R355, R358) -/

/-- A message of the page's program to a peer, on the real-time channel for a context of class 0 (R355). -/
def Work.collMsg (p peer tag : Nat) (isData : Bool) (data : List Byte) (w : Work) : Work :=
  let c := (w.page p).ctx.getD 0
  w.send (.coll peer { group := w.get p R.SEQ_COLLSTS_GROUP, inst := w.get p R.SEQ_COLLINST_INST, part := (w.ctx c).part, src := w.selfPeer p
                       isData := isData, tag := tag, data := data, rt := (w.ctx c).cls == 0 })

/-- ABORT to every valid peer. -/
def Work.abortPeers (p : Nat) (g : CollProg) (w : Work) : Work :=
  g.peers.foldl (fun (w : Work) x => if bit x 31 then w.collMsg p (x % 2 ^ 18) 3 false [] else w) w

/-- The program of a page ends aborted (R359): reason 0 TIMEOUT, 1 PEER, 2 TEARDOWN, 3 LOOP. -/
def Work.collAbort (p reason : Nat) (w : Work) : Work :=
  match (w.coll p).prog with
  | none => w
  | some g =>
    let w := (w.abortPeers p g).modColl p fun c => { c with prog := none }
    let w := ((w.set p R.SEQ_COLLSTS_ACTIVE 0).set p R.SEQ_COLLSTS_ABORTED 1).set p R.SEQ_COLLSTS_REASON reason
    (w.complete p .done).raise p 24

/-- A credit returned to the sender of a message. -/
def Work.giveBack (p : Nat) (m : CollMsg) (w : Work) : Work := w.collMsg p m.src 2 false []

/-- A message discarded: counted in DISC, its sender given the credit back (log entry 74). -/
def Work.discard (p : Nat) (m : CollMsg) (w : Work) : Work :=
  (w.set p R.SEQ_COLLDISC_DISC (w.get p R.SEQ_COLLDISC_DISC + 1)).giveBack p m

def collRunSpec : CmdSpec :=
  { types := [4], code := 0x3C, states := [.bound, .running]
    resv := fun c => c.addrOk 0 && c.addrOk 3 && c.addrOk 5 && bits (c.arg 2) 15 9 == 0
    legal := fun c w => (w.page c.page).ctx.isSome }

/-- Peer entries with their boards translated; none where one is refused. -/
def Work.peerCodes (part : Nat) : List Nat → Work → Option (List Nat) × Work
  | [], w => (some [], w)
  | x :: l, w =>
    if bit x 31 then
      match w.peerCode part x with
      | (none, w) => (none, w)
      | (some q, w) => match Work.peerCodes part l w with
        | (some t, w) => (some ((q + 2 ^ 31) :: t), w)
        | (none, w) => (none, w)
    else match Work.peerCodes part l w with
      | (some t, w) => (some (0 :: t), w)
      | (none, w) => (none, w)

/-- The program starts (R354, R358): the next instance, X0–X15 loaded, W = 1; what the hub has buffered for older instances or other groups is
discarded, and an ABORT that came ahead ends it. -/
def Work.collStart (p ctx group data : Nat) (ops peers : List Nat) (w : Work) : Work :=
  let inst := (w.get p R.SEQ_COLLINST_INST + 1) % 65536
  let w := (w.setReg p (0x180 / 4) 0).set p R.SEQ_COLLINST_INST inst
  let w := (w.set p R.SEQ_COLLSTS_ACTIVE 1).set p R.SEQ_COLLSTS_GROUP group
  let w := (List.range 16).foldl (fun (w : Work) n => w.setX p n (w.le (data + 4 * n) 4)) w
  let keep := fun (m : CollMsg) => m.inst == inst && (m.tag == 3 || m.group == group)
  let bad := (w.coll p).buf.filter fun m => !keep m && m.tag == 0
  let w := w.modColl p fun c => { c with
    prog := some { ctx := ctx, ops := ops, peers := peers, data := data }, buf := c.buf.filter keep, unaccepted := 0 }
  let w := bad.foldl (fun (w : Work) m => w.discard p m) w
  if (w.coll p).buf.any fun m => m.tag == 3 then w.collAbort p 1 else w

/-- COLL_RUN. R354: the checks end the command BOUND, POISON or UNKNOWN; a program that passes starts. NOPS of 0 or beyond 256 is UNKNOWN, judged with the ops
(DESIGN CHOICE, log entry 72). -/
def execCollRun (q : Issue) (s : State) : Host.Outcome State Fault Refusal :=
  .next (s.run fun w => w.command q collRunSpec fun c w =>
    let p := c.page
    let ctx := (w.page p).ctx.getD 0
    let part := (w.ctx ctx).part
    let nops := bits (c.arg 2) 8 0
    let prog := c.arg64 0
    let table := c.arg64 3
    let data := c.arg64 5
    let out := fun a n => a % 64 != 0 || !w.inT1 part a n
    let w := w.accept c
    if out prog (4 * nops) || out table 64 || out data 64 then w.settle p .bound
    else
      let ops := (List.range nops).map fun n => w.le (prog + 4 * n) 4
      let raw := (List.range 16).map fun n => w.le (table + 4 * n) 4
      let w := ((w.readLines prog (4 * nops)).readLines table 64).readLines data 64
      match w.peerCodes part raw with
      | (none, w) => w.settle p .bound
      | (some peers, w) =>
        if w.poisoned prog (4 * nops) || w.poisoned table 64 || w.poisoned data 64 then w.settle p .poison
        else if nops = 0 || decide (256 < nops) || (raw.any fun x => bits x 30 18 != 0) || !ops.all (opOk peers nops) then w.settle p .unknown
        else w.collStart p ctx (bits (c.arg 2) 31 16) data ops peers)

/-! ### Running (R356, R357) -/

/-- The program of a page goes to op `pc`; beyond the last op it waits there (log entry 74). -/
def Work.collGo (p pc : Nat) (w : Work) : Work :=
  (w.modProg p fun g => { g with pc := pc, waitFrom := if g.ops.length ≤ pc then some w.now else none, fence := none }).set p R.SEQ_COLLSTS_PC pc

/-- The page's program executes its next op, which is one of code `code`: the effect answers the work and where the program goes, or that the
op waits. An op beyond the 65 536th ends the program (R356). -/
def Work.collOp (p code : Nat) (eff : CollProg → Nat → Work → Option (Work × Nat)) (w : Work) : Work :=
  match (w.coll p).prog with
  | none => w
  | some g =>
    let x := g.ops.getD g.pc 0
    if opCode x ≠ code ∨ g.ops.length ≤ g.pc ∨ (w.ctx g.ctx).state ≠ .running then w
    else if g.steps ≥ 65536 then w.collAbort p 3
    else match eff g x w with
      | some (w, pc) => (w.modProg p fun g => { g with steps := g.steps + 1 }).collGo p pc
      | none => w.modProg p fun g => { g with waitFrom := some (g.waitFrom.getD w.now) }

/-- A Ringlet member sends nothing to its group's barrier before its mirror has accepted the step's appends (R377). -/
def Work.mirrorOwed (w : Work) (p : Nat) : Bool :=
  let c := (w.page p).ctx.getD 0
  (w.anchorOf c).isSome && w.dev.gyl.pend.any fun t => t.ctx == c && t.kind == 2

/-- The sender has credit at a peer (R358), and may send. -/
def Work.hasCredit (w : Work) (p peer : Nat) : Bool := decide (SMap.at 0 (w.coll p).held peer < 2) && !w.mirrorOwed p

/-- An arrival or a message with registers sent under credit. -/
def Work.collSend (p peer : Nat) (isData : Bool) (data : List Byte) (w : Work) : Work :=
  (w.modColl p fun c => { c with unaccepted := c.unaccepted + 1, held := SMap.mod 0 c.held peer (· + 1) }).collMsg p peer 0 isData data

def CollProg.peer (g : CollProg) (n : Nat) : Nat := g.peers.getD n 0 % 2 ^ 18

/-- The registers of an op as bytes. -/
def Work.laneBytes (w : Work) (p x : Nat) : List Byte := ((w.lanes16 p x).map fun n => natLE 4 (w.x p n)).flatten

/-- COLL_ARRIVE. R356. -/
def execCollArrive (page : Nat) (s : State) : Host.Outcome State Fault Refusal :=
  .next (s.run fun w => w.collOp page 1 fun g x w =>
    let q := g.peer (opPeer x)
    if w.hasCredit page q then some (w.collSend page q false [], g.pc + 1) else none)

/-- The first `n` messages that satisfy a test taken out of a list. -/
def takeMsgs (ok : CollMsg → Bool) : Nat → List CollMsg → List CollMsg × List CollMsg
  | 0, l => ([], l)
  | _, [] => ([], [])
  | n + 1, m :: l =>
    if ok m then let (a, b) := takeMsgs ok n l; (m :: a, b) else let (a, b) := takeMsgs ok (n + 1) l; (a, m :: b)

/-- COLL_WAIT. R356: IMM arrivals of this instance are consumed. -/
def execCollWait (page : Nat) (s : State) : Host.Outcome State Fault Refusal :=
  .next (s.run fun w => w.collOp page 2 fun g x w =>
    let inst := w.get page R.SEQ_COLLINST_INST
    let (got, rest) := takeMsgs (fun m => !m.isData && m.tag == 0 && m.inst == inst) (opImm x) (w.coll page).buf
    if got.length = opImm x then
      some (got.foldl (fun (w : Work) m => w.giveBack page m) (w.modColl page fun c => { c with buf := rest }), g.pc + 1)
    else none)

/-- COLL_SEND. R356. -/
def execCollSend (page : Nat) (s : State) : Host.Outcome State Fault Refusal :=
  .next (s.run fun w => w.collOp page 3 fun g x w =>
    let q := g.peer (opPeer x)
    if w.hasCredit page q then some (w.collSend page q true (w.laneBytes page x), g.pc + 1) else none)

/-- The next message from a peer, taken. -/
def Work.takeMsg (p peer : Nat) (w : Work) : Option (List Byte × Work) :=
  let inst := w.get p R.SEQ_COLLINST_INST
  match takeMsgs (fun m => m.isData && m.tag == 0 && m.inst == inst && m.src == peer) 1 (w.coll p).buf with
  | (m :: _, rest) => some (m.data, (w.modColl p fun c => { c with buf := rest }).giveBack p m)
  | _ => none

/-- The registers of an op combined with a message lane by lane; lanes the message does not carry keep their values. -/
def Work.intoLanes (p x : Nat) (f : Nat → Nat → Nat) (data : List Byte) (w : Work) : Work :=
  (List.range (w.lanes16 p x).length).foldl (fun (w : Work) i =>
    let n := opBase x + i
    if 4 * i + 4 ≤ data.length then w.setX p n (f (w.x p n) (leNat ((data.drop (4 * i)).take 4))) else w) w

/-- COLL_RECV. R356. -/
def execCollRecv (page : Nat) (s : State) : Host.Outcome State Fault Refusal :=
  .next (s.run fun w => w.collOp page 4 fun g x w =>
    (w.takeMsg page (g.peer (opPeer x))).map fun r => (r.2.intoLanes page x (fun _ v => v) r.1, g.pc + 1))

/-- The functions of FN (R357). -/
def collFn (fn a b : Nat) : Nat :=
  match fn with
  | 0 => f32Add a b
  | 1 => f32Max a b
  | 2 => f32Min a b
  | 3 => (a + b) % 2 ^ 32
  | 4 => if toSigned 32 a < toSigned 32 b then b else a
  | 5 => if toSigned 32 b < toSigned 32 a then b else a
  | 6 => a &&& b
  | _ => a ||| b

/-- COLL_REDUCE. R357. -/
def execCollReduce (page : Nat) (s : State) : Host.Outcome State Fault Refusal :=
  .next (s.run fun w => w.collOp page 5 fun g x w =>
    (w.takeMsg page (g.peer (opPeer x))).map fun r => (r.2.intoLanes page x (collFn (opFn x)) r.1, g.pc + 1))

/-- COLL_BCAST. R356: SEND to every peer of the mask in ascending order, with credit at each. -/
def execCollBcast (page : Nat) (s : State) : Host.Outcome State Fault Refusal :=
  .next (s.run fun w => w.collOp page 6 fun g x w =>
    let qs := ((List.range 16).filter fun n => bit (opImm x) n).map g.peer
    if !w.mirrorOwed page && qs.all fun q => decide (SMap.at 0 (w.coll page).held q + qs.count q ≤ 2) || (decide (2 < qs.count q) && decide (SMap.at 0 (w.coll page).held q = 0)) then
      some (qs.foldl (fun (w : Work) q => w.collSend page q true (w.laneBytes page x)) w, g.pc + 1)
    else none)

/-- COLL_FUSE. R356. -/
def execCollFuse (page : Nat) (s : State) : Host.Outcome State Fault Refusal :=
  .next (s.run fun w => w.collOp page 7 fun g x w => some (w.set page R.SEQ_COLLSTS_W (opImm x % 16), g.pc + 1))

/-- Writes of a context's units on a die that have not been accepted: accesses by tag. -/
def Work.openWrites (w : Work) (die ctx : Nat) : List Nat :=
  (w.dev.gyl.pend.filter fun t => t.ctx == ctx && dieOf t.page == die && t.kind == 0).map (·.tag)

/-- A FENCE waits (R356): its messages unaccepted, or with MEM a write that was open when it came, or a window line that has no credit. -/
def Work.fenceWaits (w : Work) (p ctx : Nat) (mem : Bool) (open_ : List Nat) : Bool :=
  decide ((w.coll p).unaccepted ≠ 0) || (mem && ((w.openWrites (dieOf p) ctx).any (open_.contains ·) ||
    (w.sends (dieOf p)).any fun a => a.acc.ctx == ctx && !a.queue.isEmpty))

/-- COLL_FENCE. R356. -/
def execCollFence (page : Nat) (s : State) : Host.Outcome State Fault Refusal :=
  .next (s.run fun w =>
    -- what MEM waits for is what was open when the op came
    let w := match (w.coll page).prog with
      | some g => if opCode (g.ops.getD g.pc 0) = 8 ∧ g.fence = none then
          w.modProg page fun g => { g with fence := some (w.openWrites (dieOf page) g.ctx) } else w
      | none => w
    w.collOp page 8 fun g x w => if w.fenceWaits page g.ctx (opFlag x) (g.fence.getD []) then none else some (w, g.pc + 1))

/-- COLL_JUMP. R356. -/
def execCollJump (page : Nat) (s : State) : Host.Outcome State Fault Refusal :=
  .next (s.run fun w => w.collOp page 9 fun g x w =>
    some (w, if opFlag x && w.x page (opBase x) == 0 then g.pc + 1 else opImm x % 256))

/-- The barrier of a group whose run is complete: a program that ends with X0 = 1, the AND of the members' successes (R228; DEDUCED, log entry 73). -/
def Work.barrierIn (p c : Nat) (w : Work) : Work :=
  match w.anchorOf c with
  | some a => if w.x p 0 = 1 ∧ (w.rgroup a).run.isNone then w.modRgroup a fun g => { g with owed := false } else w
  | none => w

/-- COLL_END. R354, R362: X0–X15 go back to the data block, and the command completes. -/
def execCollEnd (page : Nat) (s : State) : Host.Outcome State Fault Refusal :=
  .next (s.run fun w =>
    match (w.coll page).prog with
    | none => w
    | some g =>
      if opCode (g.ops.getD g.pc 0) ≠ 10 ∨ (w.ctx g.ctx).state ≠ .running then w
      else if g.steps ≥ 65536 then w.collAbort page 3
      else
        let w := w.unitStore page g.ctx g.data (((List.range 16).map fun n => natLE 4 (w.x page n)).flatten) false
        let w := (w.modColl page fun c => { c with prog := none }).set page R.SEQ_COLLSTS_ACTIVE 0
        ((w.barrierIn page g.ctx).complete page .done).raise page 23)

/-! ### What arrives (R355, R358, R359) -/

/-- The record of a saved context holds a program of the group on the page (R358). -/
def heldGroup (p group : Nat) (x : CtxSave) : Bool :=
  (SMap.at {} x.coll p).prog.isSome &&
    bits (SMap.at 0 x.regs (p * 1024 + R.SEQ_COLLSTS_GROUP.off / 4)).toNat R.SEQ_COLLSTS_GROUP.hi R.SEQ_COLLSTS_GROUP.lo == group

/-- COLL_MSG_RECEIVE. R355, R358: a message of the current or the next instance is buffered and its acceptance answered; others are discarded. An
acceptance or a credit is taken by the page that had sent. -/
def execCollMsgReceive (page : Nat) (m : CollMsg) (s : State) : Host.Outcome State Fault Refusal :=
  .next (s.run fun w => w.forSaved page (heldGroup page m.group) fun w =>
    match (w.page page).ctx with
    | none => w
    | some c =>
      if typeOf page ≠ 4 then w
      else if m.tag = 1 then w.modColl page fun x => { x with unaccepted := x.unaccepted - 1 }
      else if m.tag = 2 then w.modColl page fun x => { x with held := SMap.mod 0 x.held m.src (· - 1) }
      else if m.tag = 3 then w
      else
        let ahead := (m.inst + 65536 - w.get page R.SEQ_COLLINST_INST) % 65536
        let w := w.collMsg page m.src 1 false []
        let wrong := decide (ahead = 0) && (w.get page R.SEQ_COLLSTS_GROUP != m.group || (w.coll page).prog.isNone)
        if m.part ≠ (w.ctx c).part ∨ ahead > 1 ∨ wrong then w.discard page m
        else w.modColl page fun x => { x with buf := x.buf ++ [m] })

/-- The record of a saved context holds a program of the instance on the page. -/
def heldInst (p inst : Nat) (x : CtxSave) : Bool :=
  (SMap.at {} x.coll p).prog.isSome &&
    bits (SMap.at 0 x.regs (p * 1024 + R.SEQ_COLLINST_INST.off / 4)).toNat R.SEQ_COLLINST_INST.hi R.SEQ_COLLINST_INST.lo == inst

/-- COLL_ABORT_MSG. R359: ABORT for the program's instance ends it, that of a saved context too, and it tells its peers; one for the next instance is kept for
it. -/
def execCollAbortMsg (page inst : Nat) (s : State) : Host.Outcome State Fault Refusal :=
  .next (s.run fun w =>
    if typeOf page ≠ 4 then w
    else w.forSaved page (heldInst page inst) fun w =>
      let ahead := (inst + 65536 - w.get page R.SEQ_COLLINST_INST) % 65536
      if ahead = 0 then w.collAbort page 1
      else if ahead = 1 ∧ (w.page page).ctx.isSome then
        w.modColl page fun x => { x with
          buf := x.buf ++ [{ group := 0, inst := inst, part := 0, src := 0, isData := false, tag := 3, data := [] }] }
      else w)

/-- COLL_TIMEOUT. R359, R27: a wait of the program has lasted TIMEOUT while its context runs. -/
def execCollTimeout (page : Nat) (s : State) : Host.Outcome State Fault Refusal :=
  .next (s.run fun w =>
    match (w.coll page).prog with
    | some g => match g.waitFrom with
      | some t => if (w.ctx g.ctx).state = .running ∧ t + 1000 * w.get page R.SEQ_COLLTMO_TIMEOUT ≤ w.now then w.collAbort page 0 else w
      | none => w
    | none => w)

/-- Programs of a context (R360, R83). -/
def Work.collPages (w : Work) (c : Nat) : List Nat :=
  w.dev.coll.filterMap fun e => match e.2.prog with | some g => if g.ctx = c then some e.1 else none | none => none

/-- A context's programs end aborted with its teardown or its step (R359). -/
def Work.collDrop (c : Nat) (w : Work) : Work :=
  let w := (SMap.keys (w.save c).coll).foldl (fun (w : Work) p => w.forSaved p (fun x => decide (x = w.save c)) fun w => w.collAbort p 2) w
  (w.collPages c).foldl (fun (w : Work) p => w.collAbort p 2) w

/-- The time a context was QUIESCING or QUIESCED does not count as a wait (R359). -/
def Work.collShift (c by_ : Nat) (w : Work) : Work :=
  (w.collPages c).foldl (fun (w : Work) p => w.modProg p fun g => { g with waitFrom := g.waitFrom.map (· + by_) }) w

end Sys2Proof.Machine
end

