-- ==== Sys2Proof/Machine/Teasel.lean ====
section
/-!
DEFINITION. Teasel.lean: embedding tables, their directories and counters, and the pooling of bags (R247–R259).
-/
namespace Sys2Proof.Machine

/-- The list of a TSL page. -/
def Work.tlist (w : Work) (p : Nat) : Option TslList := SMap.at none w.dev.tsl p
def Work.modTlist (p : Nat) (f : TslList → TslList) (w : Work) : Work :=
  w.d fun d => { d with tsl := SMap.mod none d.tsl p fun l => l.map f }

/-! ### Tables and jobs (Tables 14.1, 14.2) -/

/-- A table descriptor: its 64 bytes as a number. -/
structure TslTable where
  x : Nat

def TslTable.cold (t : TslTable) : Nat := bits t.x 47 0
def TslTable.nrows (t : TslTable) : Nat := bits t.x 104 64
def TslTable.width (t : TslTable) : Nat := bits t.x 138 128
def TslTable.stride (t : TslTable) : Nat := bits t.x 155 144 * 16
def TslTable.efmt (t : TslTable) : Nat := bits t.x 163 160
def TslTable.blklog (t : TslTable) : Nat := bits t.x 167 164
def TslTable.diren (t : TslTable) : Bool := bit t.x 168
def TslTable.cnten (t : TslTable) : Bool := bit t.x 169
def TslTable.dir (t : TslTable) : Nat := bits t.x 239 192
def TslTable.cnt (t : TslTable) : Nat := bits t.x 303 256
def TslTable.cshift (t : TslTable) : Nat := bits t.x 323 320
/-- Bytes of an element, and elements of a row. -/
def TslTable.esz (t : TslTable) : Nat := (elemOf t.efmt).1 / 8
def TslTable.elems (t : TslTable) : Nat := t.width / t.esz

/-- A job descriptor: its 64 bytes as a number. -/
structure TslJob where
  x : Nat

def TslJob.tab (j : TslJob) : Nat := bits j.x 47 0
def TslJob.idx (j : TslJob) : Nat := bits j.x 111 64
def TslJob.off (j : TslJob) : Nat := bits j.x 175 128
def TslJob.wt (j : TslJob) : Nat := bits j.x 239 192
def TslJob.out (j : TslJob) : Nat := bits j.x 303 256
def TslJob.nbag (j : TslJob) : Nat := bits j.x 343 320
def TslJob.pool (j : TslJob) : Nat := bits j.x 353 352
def TslJob.oorskip (j : TslJob) : Bool := bit j.x 354
def TslJob.oconv (j : TslJob) : Nat := bits j.x 358 355
def TslJob.ostride (j : TslJob) : Nat := bits j.x 403 384

/-- Job n of a list, its table, and an offset of it. -/
def Work.tjob (w : Work) (list n : Nat) : TslJob := ⟨w.le (list + 64 * n) 64⟩
def Work.ttab (w : Work) (j : TslJob) : TslTable := ⟨w.le j.tab 64⟩
def Work.toff (w : Work) (j : TslJob) (b : Nat) : Nat := w.le (j.off + 4 * b) 4
/-- Bytes of a pooled row. -/
def outRow (t : TslTable) (j : TslJob) : Nat := t.elems * (if j.oconv = 0 then 4 else 2)

/-! ### The checks of TSL_RUN (Table 14.3) -/

/-- A list as TSL_RUN names it. -/
structure TslAsk where
  page : Nat
  ctx : Nat
  list : Nat
  njob : Nat
  save : Nat
  done : Option (Nat × Nat)

/-- A range is in the partition's tier 1 and aligned: index and offset arrays and directories to their entries, weights to 4 bytes (DEDUCED, log entry 72). -/
def Work.t1At (w : Work) (part a align n : Nat) : Bool := a % align == 0 && w.inT1 part a n

def Work.tjobBound (w : Work) (part : Nat) (j : TslJob) : Bool :=
  let t := w.ttab j
  let lo := w.toff j 0
  let hi := w.toff j j.nbag
  !w.t1At part j.tab 64 64 || !w.t1At part j.off 4 (4 * (j.nbag + 1)) ||
    (t.diren && !w.t1At part t.dir 8 (8 * ceilDiv t.nrows (2 ^ t.blklog))) ||
    (t.cnten && !w.t1At part t.cnt 64 (2 * ceilDiv t.nrows (2 ^ t.cshift))) ||
    !w.t1At part j.out 64 (if j.nbag = 0 then 0 else (j.nbag - 1) * j.ostride + outRow t j) ||
    !w.t1At part (j.idx + 8 * lo) 8 (8 * (hi - lo)) || (j.pool == 3 && !w.t1At part (j.wt + 4 * lo) 4 (4 * (hi - lo))) ||
    t.cold % 64 != 0 || !w.readable part t.cold (max 1 (t.nrows * t.stride))

def Work.tjobPoison (w : Work) (list n : Nat) : Bool :=
  let j := w.tjob list n
  w.poisoned (list + 64 * n) 64 || w.poisoned j.tab 64 || w.poisoned j.off 4 || w.poisoned (j.off + 4 * j.nbag) 4

/-- Reserved fields and the values that R248 and R251 allow. -/
def Work.tjobUnknown (w : Work) (j : TslJob) : Bool :=
  let t := w.ttab j
  let jr := [(63, 48), (127, 112), (191, 176), (255, 240), (319, 304), (351, 344), (383, 359), (511, 404)].any fun r => bits j.x r.1 r.2 != 0
  let tr := [(63, 48), (127, 105), (143, 139), (159, 156), (191, 170), (255, 240), (319, 304), (511, 324)].any fun r => bits t.x r.1 r.2 != 0
  jr || tr || decide (t.efmt > 4) || decide (j.oconv > 1) || decide (t.blklog > 12) || t.nrows == 0 || decide (t.nrows > 2 ^ 40) ||
    decide (t.width < 16) || decide (t.width > 1024) || t.width % 16 != 0 || decide (t.stride < t.width) ||
    decide (w.toff j j.nbag < w.toff j 0) || j.ostride % 64 != 0 || decide (j.ostride < outRow t j)

/-- The first failing check of Table 14.3 and the first job that fails it. A list of no jobs is UNKNOWN (DESIGN CHOICE, log entry 72). -/
def Work.tslCheck (w : Work) (a : TslAsk) : Option (Status × Nat) :=
  let part := (w.ctx a.ctx).part
  let some1 := fun (st : Status) (f : Nat → Bool) => ((List.range a.njob).find? f).map fun n => (st, n)
  if !w.t1At part a.list 64 (64 * a.njob) || !w.t1At part a.save 64 4352 then some (.bound, 0)
  else match some1 .bound fun n => w.tjobBound part (w.tjob a.list n) with
  | some e => some e
  | none => match some1 .poison fun n => w.tjobPoison a.list n with
  | some e => some e
  | none => match if a.njob = 0 then some (.unknown, 0) else some1 .unknown fun n => w.tjobUnknown (w.tjob a.list n) with
  | some e => some e
  | none => match a.done with
    | some (ldie, e) => if (w.goSite a.ctx ldie e).isNone then some (.owner, 0) else none
    | none => none

def tslRunSpec : CmdSpec :=
  { types := [0x12], code := 0x68, states := [.bound, .running]
    resv := fun c => c.addrOk 0 && c.addrOk 4 && bits (c.arg 2) 31 16 == 0 && bits (c.arg 3) 31 21 == 0 && bits (c.arg 3) 15 13 == 0
    legal := fun c w => (w.page c.page).ctx.isSome }

/-- What the engine reads before any job runs: every job, its table descriptor, off[0] and off[NBAG] (R252). -/
def Work.readBags (a : TslAsk) (w : Work) : Work :=
  let part := (w.ctx a.ctx).part
  if !w.inT1 part a.list (64 * a.njob) then w
  else (List.range a.njob).foldl (fun (w : Work) n =>
    let j := w.tjob a.list n
    if w.inT1 part j.tab 64 ∧ w.inT1 part j.off (4 * (j.nbag + 1)) then ((w.readLines j.tab 64).readLines j.off 4).readLines (j.off + 4 * j.nbag) 4 else w)
    (w.readLines a.list (64 * a.njob))

/-- TSL_RUN. R252: accepted; a list that fails a check of Table 14.3 runs nothing. A page without a context has none to run it for: STATE. -/
def execTslRun (q : Issue) (s : State) : Host.Outcome State Fault Refusal :=
  .next (s.run fun w => w.command q tslRunSpec fun c w =>
    let p := c.page
    let x := (w.page p).ctx.getD 0
    let a : TslAsk :=
      { page := p, ctx := x, list := c.arg64 0, njob := c.arg 2, save := c.arg64 4
        done := if bit (c.arg 3) 20 then some (bits (c.arg 3) 19 16, bits (c.arg 3) 15 0) else none }
    let bad := w.tslCheck a
    let w := (w.accept c).readBags a
    match bad with
    | some (st, n) => ((w.set p R.TSL_LFAIL_FAILJOB n).set p R.TSL_LFAIL_CODE st.code).settle p st
    | none =>
      let l : TslList :=
        { ctx := x, addr := a.list, njob := a.njob, save := a.save, go := a.done.bind fun e => w.goSite x e.1 e.2
          job := 0, bag := 0, at_ := none, acc := [], n := 0 }
      let w := w.d fun d => { d with tsl := SMap.put none d.tsl p (some l) }
      ((w.set p R.TSL_STS_JOBSDONE 0).set p R.TSL_STS_ACTIVE 1).set64 p R.TSL_OLDEST_LO_OLD_LO w.now)

/-! ### Rows and bags (R249, R250, R253, R254) -/

/-- RNE(1/n) for n > 0. -/
def rcpNat (n : Nat) : Nat := toF32 (.fin false (2 ^ 80 / n * 2 + (if 2 ^ 80 % n = 0 then 0 else 1)) (-81))

/-- A bag's accumulator at its start. -/
def poolStart (j : TslJob) (t : TslTable) : List Nat := List.replicate t.elems (if j.pool = 2 then ninf32 else 0)

/-- One element pooled (Table 14.4). -/
def poolOne (j : TslJob) (wk : Nat) (s x : Nat) : Nat :=
  if j.pool = 2 then f32Max s x else if j.pool = 3 then f32Fma wk x s else f32Add s x

/-- The next bag, or the next job: jobs done, bags closed. -/
def Work.nextBag (p : Nat) (l : TslList) (j : TslJob) (bag : Nat) (w : Work) : Work :=
  let l := { l with bag := bag, at_ := none, acc := [], n := 0 }
  if bag < j.nbag then w.modTlist p fun _ => l
  else ((w.modTlist p fun _ => { l with job := l.job + 1, bag := 0 }).set p R.TSL_STS_JOBSDONE (l.job + 1)).count p 0 1

/-- A bag closed: its output converted and written. -/
def Work.closeBag (p : Nat) (l : TslList) (j : TslJob) (w : Work) : Work :=
  let vals := if j.pool = 1 then (if l.n = 0 then l.acc.map fun _ => 0 else l.acc.map fun s => f32Mul s (rcpNat l.n)) else l.acc
  let bytes := (vals.map fun v => natLE (if j.oconv = 0 then 4 else 2) (convElem j.oconv 0 v).2.1).flatten
  ((w.unitStore p l.ctx (j.out + l.bag * j.ostride) bytes false).count p 1 1).nextBag p l j (l.bag + 1)

/-- Where row i lies and whether its block is hot. -/
def Work.rowAt (w : Work) (t : TslTable) (i : Nat) : Nat × Bool :=
  let e := w.le (t.dir + i / 2 ^ t.blklog * 8) 8
  if t.diren ∧ e % 2 = 1 then (bits e 47 6 * 64 + i % 2 ^ t.blklog * t.stride, true) else (t.cold + i * t.stride, false)

/-- A row of tier 3 that a completion, a timeout or the link keeps from the engine, or one in a FAILED channel (R254). -/
def Work.rowFails (w : Work) (p a n : Nat) : Bool :=
  if t3Base ≤ a then
    let l := linesIn a n
    (l.any fun x => w.t3Line p x == some 2) || (!w.dev.host.link && l.any fun x => w.t3Line p x != some 1)
  else w.srcFailed a n

/-- Where a byte of a local address stands: of tier 3, at its host address, slice by slice (R153). -/
def Work.byteAt (w : Work) (a : Nat) : Nat := if t3Base ≤ a then hostA (w.hostOf a) else a

/-- A lookup of a row that is in range (R249, R250, R253, R254). -/
def Work.lookup (p : Nat) (l : TslList) (j : TslJob) (t : TslTable) (k i : Nat) (w : Work) : Work :=
  let part := (w.ctx l.ctx).part
  let dir := t.dir + i / 2 ^ t.blklog * 8
  let w := if t.diren then w.readLines dir 8 else w
  if t.diren && w.poisoned dir 8 then w.ctxFault l.ctx p 0x1E (some l.job)
  else
    let (a, hot) := w.rowAt t i
    if (if hot then !w.inT1 part a t.width else !w.readable part a t.width) then w.ctxFault l.ctx p 0x14 (some l.job)
    else if w.rowFails p a t.width then w.ctxFault l.ctx p 0x82 (some l.job)
    else
      let w := w.readAny a t.width
      if (linesIn a t.width).any fun x => w.poisoned (w.byteAt x) 64 then w.ctxFault l.ctx p 0x1E (some l.job)
      else
        let row := leNat ((List.range t.width).map fun n => w.rd (w.byteAt (a + n)))
        let wk := if j.pool = 3 then w.le (j.wt + 4 * k) 4 else 0
        let acc := (List.range t.elems).map fun n => poolOne j wk (l.acc.getD n 0) (toF32 (elemAt t.efmt row n))
        let ctr := t.cnt + i / 2 ^ t.cshift * 2
        let w := if t.cnten then
            let w := w.readLines ctr 2
            w.unitStore p l.ctx ctr (natLE 2 (min 65535 (w.le ctr 2 + 1))) false
          else w
        let w := (w.count p 2 1).count p 7 t.width
        let w := if hot then w.count p 3 1 else if a < t1Size then w else if a < t2End then w.count p 4 1 else w.count p 5 1
        w.modTlist p fun l => { l with at_ := some (k + 1), acc := acc, n := l.n + 1 }

/-- The next lookup of an open bag (R254): its id, and its weight, are read; an id out of range faults or is skipped. -/
def Work.nextLookup (p : Nat) (l : TslList) (j : TslJob) (t : TslTable) (k : Nat) (w : Work) : Work :=
  let w := w.readLines (j.idx + 8 * k) 8
  let w := if j.pool = 3 then w.readLines (j.wt + 4 * k) 4 else w
  if w.poisoned (j.idx + 8 * k) 8 || (j.pool == 3 && w.poisoned (j.wt + 4 * k) 4) then w.ctxFault l.ctx p 0x1E (some l.job)
  else
    let i := w.le (j.idx + 8 * k) 8 % 2 ^ 40
    if i < t.nrows then w.lookup p l j t k i
    else if j.oorskip then ((w.count p 6 1).raise p 16).modTlist p fun l => { l with at_ := some (k + 1) }
    else w.ctxFault l.ctx p 0x80 (some l.job)

/-- A bag opened: its two offsets read (R251, R254). -/
def Work.openBag (p : Nat) (l : TslList) (j : TslJob) (t : TslTable) (w : Work) : Work :=
  let w := w.readLines (j.off + 4 * l.bag) 8
  let lo := w.toff j l.bag
  let hi := w.toff j (l.bag + 1)
  if w.poisoned (j.off + 4 * l.bag) 8 then w.ctxFault l.ctx p 0x1E (some l.job)
  else if hi < lo ∨ lo < w.toff j 0 ∨ w.toff j j.nbag < hi then w.ctxFault l.ctx p 0x81 (some l.job)
  else
    let l := { l with at_ := some lo, acc := poolStart j t, n := 0 }
    let w := w.modTlist p fun _ => l
    if lo < hi then w.nextLookup p l j t lo else w.closeBag p l j

/-- TSL_ROW. R253, R254: the engine opens a bag whose offsets hold, pools its next lookup, or closes it. -/
def execTslRow (hub inst : Nat) (s : State) : Host.Outcome State Fault Refusal :=
  .next (s.run fun w =>
    let p := tslPage hub inst
    match w.worksFor p, w.tlist p with
    | some c, some l =>
      if 4 ≤ hub ∨ 8 ≤ inst ∨ l.ctx ≠ c ∨ l.njob ≤ l.job then w
      else
        let j := w.tjob l.addr l.job
        let t := w.ttab j
        if j.nbag ≤ l.bag then w.nextBag p l j l.bag
        else w.tryUnit p c fun w =>
          match l.at_ with
          | some k => if k < w.toff j (l.bag + 1) then w.nextLookup p l j t k else w.closeBag p l j
          | none => w.openBag p l j t
    | _, _ => w)

/-! ### Quiescing, and the ends of lists (R257) -/

/-- R257: the engine writes its position and its accumulator to the save record of its list. The manual does not lay the record out: the 256 bytes that the
position leaves of its 4352 become free values, the accumulator follows (DESIGN CHOICE, log entry 61). -/
def Work.saveBag (p : Nat) (w : Work) : Work :=
  match w.tlist p with
  | some l =>
    let w := (List.range 32).foldl (fun (w : Work) i =>
      let (v, w) := w.fresh
      w.storeLE (l.save + 8 * i) 8 v.toNat) w
    w.putF32s (l.save + 256) l.acc
  | none => w

/-- PAGE_QUIESCED. R33, R209, R257: the work in flight of a QUIESCING block has stopped; an engine has written its record. -/
def execPageQuiesced (page : Nat) (s : State) : Host.Outcome State Fault Refusal :=
  .next (s.run fun w => if (w.page page).state = .quiescing then ((w.saveEngine page).saveBag page).toState page .quiesced else w)

/-- The list of a page is gone. -/
def Work.dropTlist (p : Nat) (w : Work) : Work :=
  let w := w.d fun d => { d with tsl := SMap.drop d.tsl p }
  (w.set p R.TSL_STS_ACTIVE 0).set64 p R.TSL_OLDEST_LO_OLD_LO 0

/-- TSL_LIST_DONE. R252, R257: every job has completed; GO is injected and the list completes. In a teardown it ends FAULT, without GO. -/
def execTslListDone (page : Nat) (s : State) : Host.Outcome State Fault Refusal :=
  .next (s.run fun w =>
    match w.tlist page with
    | some l =>
      if l.job < l.njob ∨ w.unaccepted page then w
      else if (w.ctx l.ctx).state = .ending then (w.dropTlist page).complete page .fault
      else match w.injectGo l.ctx l.go with
        | some w => (w.dropTlist page).complete page .done
        | none => w
    | none => w)

/-- The lists of a context stopped, those in its record among them (R257). -/
def Work.tslDrop (c : Nat) (st : Status) (w : Work) : Work :=
  let w := w.modSave c fun x => { x with tsl := [] }
  (SMap.keys w.dev.tsl).foldl (fun (w : Work) p =>
    match w.tlist p with
    | some l => if l.ctx = c then (w.dropTlist p).complete p st else w
    | none => w) w

end Sys2Proof.Machine
end

