-- ==== Sys2Proof/Machine/Experts.lean ====
section
/-!
DEFINITION. Experts.lean: expert routing, capacity, the selection-bias loop, and the tasks that move rows (R260–R273).
-/
namespace Sys2Proof.Machine

def Work.exr (f : Experts → Experts) (w : Work) : Work := w.d fun d => { d with exr := f d.exr }
def Work.routes (w : Work) (hub : Nat) : List ExrRoute := SMap.at [] w.dev.exr.routes hub

/-! ### Descriptors and tables (Tables 15.1–15.3) -/

/-- A route descriptor: its 64 bytes as a number. -/
structure ExrDesc where
  x : Nat

def ExrDesc.scores (r : ExrDesc) : Nat := bits r.x 47 0
def ExrDesc.sets (r : ExrDesc) : Nat := bits r.x 111 64
def ExrDesc.table (r : ExrDesc) : Nat := bits r.x 175 128
def ExrDesc.assign (r : ExrDesc) : Nat := bits r.x 239 192
def ExrDesc.count (r : ExrDesc) : Nat := bits r.x 303 256
def ExrDesc.dispatch (r : ExrDesc) : Nat := bits r.x 367 320
def ExrDesc.t (r : ExrDesc) : Nat := bits r.x 399 384
def ExrDesc.tplan (r : ExrDesc) : Nat := bits r.x 415 400
def ExrDesc.cf (r : ExrDesc) : Nat := bits r.x 431 416
def ExrDesc.k (r : ExrDesc) : Nat := bits r.x 432 432 + 1
def ExrDesc.gate (r : ExrDesc) : Nat := bits r.x 434 433
def ExrDesc.loop (r : ExrDesc) : Bool := bit r.x 435

/-- The capacity for `n` tokens (R262). -/
def ExrDesc.cap (r : ExrDesc) (ne n : Nat) : Nat := ceilDiv (r.cf * n * r.k) (256 * ne)

/-- NE of a table, and expert e's entry. -/
def Work.exNe (w : Work) (tab : Nat) : Nat := w.le tab 2 % 1024
def exAt (tab e : Nat) : Nat := tab + 64 + 16 * e
def Work.exBias (w : Work) (tab e : Nat) : Nat := w.le (exAt tab e) 4
def Work.exSet (w : Work) (tab e : Nat) : Nat := w.le (exAt tab e + 4) 1
def Work.exOn (w : Work) (tab e : Nat) : Bool := bit (w.le (exAt tab e + 5) 1) 0
def Work.exGroup (w : Work) (tab e : Nat) : Nat := w.le (exAt tab e + 6) 2 % 16

/-- FP32 positive and finite. -/
def posFinite (x : Nat) : Bool := !bit x 31 && x != 0 && decide (x < pinf32)

/-- A reserved field, or a value that R261 does not allow. -/
def Work.exUnknown (w : Work) (r : ExrDesc) : Bool :=
  let tab := r.table
  let ne := w.exNe tab
  let desc := [(63, 48), (127, 112), (191, 176), (255, 240), (319, 304), (383, 368), (439, 436), (511, 440)].any fun b => bits r.x b.1 b.2 != 0
  let head := bits (w.le tab 2) 15 10 != 0 || w.le (tab + 6) 2 != 0 || w.le (tab + 48) 16 != 0 ||
    (List.range 16).any fun g => bits (w.le (tab + 16 + 2 * g) 2) 14 12 != 0
  let ents := (List.range ne).any fun e =>
    bits (w.le (exAt tab e + 5) 1) 7 1 != 0 || bits (w.le (exAt tab e + 6) 2) 15 4 != 0 || bits (w.le (exAt tab e + 8) 2) 15 12 != 0 ||
      w.le (exAt tab e + 10) 2 != 0 || (w.exOn tab e && !bit (w.le (tab + 16 + 2 * w.exGroup tab e) 2) 15)
  desc || r.tplan == 0 || r.cf == 0 || decide (r.gate > 1) || decide (ne < 2) || decide (ne > 512) || !posFinite (w.le (tab + 8) 4) ||
    !posFinite (w.le (tab + 12) 4) || head || ents

/-- The first failing check of a route (R262). -/
def Work.exCheck (w : Work) (part desc : Nat) : Option Status :=
  let r : ExrDesc := ⟨w.le desc 64⟩
  let tab := r.table
  let ne := w.exNe tab
  let cplan := r.cap ne r.tplan
  if !w.t1At part desc 64 64 || !w.t1At part tab 64 64 then some .bound
  else firstFail
    [(!w.t1At part tab 64 (64 + 16 * ne) || !w.t1At part r.scores 4 (4 * ne * r.t) || (r.sets != 0 && !w.inT1 part r.sets r.t) ||
        !w.t1At part r.assign 8 (8 * r.t * r.k) || !w.t1At part r.count 8 (8 * ne + 64) || !w.t1At part r.dispatch 4 (4 * cplan * ne), .bound),
     (w.poisoned desc 64 || w.poisoned tab (64 + 16 * ne), .poison), (w.exUnknown r, .unknown),
     (decide (r.t > r.tplan) || decide (cplan > 65535), .shape)]

/-! ### Selection and weights (R263, R264) -/

/-- The experts eligible for a token, with its scores (R261). -/
def Work.exEligible (w : Work) (r : ExrDesc) (t : Nat) : List (Nat × Nat) :=
  let ne := w.exNe r.table
  let set := if r.sets = 0 then 0 else w.le (r.sets + t) 1
  (List.range ne).filterMap fun e =>
    let s := w.le (r.scores + 4 * (ne * t + e)) 4
    if w.exOn r.table e ∧ (w.exSet r.table e = 0 ∨ w.exSet r.table e = set) ∧ s ≠ ninf32 then some (e, s) else none

/-- The expert with the largest biased score, the lower index among equals. -/
def Work.exBest (w : Work) (tab : Nat) (l : List (Nat × Nat)) : Option (Nat × Nat) :=
  l.foldl (fun (m : Option (Nat × Nat)) x => match m with
    | none => some x
    | some y => if (ofF32 (f32Add y.2 (w.exBias tab y.1))).lt (ofF32 (f32Add x.2 (w.exBias tab x.1))) then some x else some y) none

/-- The weights of the selected experts over the set that GATE names. -/
def exWeights (gate : Nat) (elig sel : List (Nat × Nat)) : List Nat :=
  let c := fun (x : Nat × Nat) => f32Mul x.2 0x3FB8AA3B
  let set := if gate = 0 then elig else elig.filter sel.contains
  let m := set.foldl (fun a x => f32Max a (c x)) ninf32
  let p := fun x => f32Exp2 (f32Sub (c x) m)
  let z := set.foldl (fun z x => f32Add z (p x)) 0
  sel.map fun x => f32Mul (p x) (f32Rcp z)

/-- What a token is routed to: experts with weights, by rank; and whether a NaN or +∞ score keeps it from being routed. -/
def Work.exToken (w : Work) (r : ExrDesc) (t : Nat) : List (Nat × Nat) × Bool :=
  let elig := w.exEligible r t
  if elig.any fun x => ofF32 x.2 == .nan || x.2 == pinf32 then ([], true)
  else
    let first := w.exBest r.table elig
    let sel := match first with
      | none => []
      | some a => if r.k = 1 then [a] else a :: (w.exBest r.table (elig.filter (· != a))).toList
    (List.zip (sel.map (·.1)) (exWeights r.gate elig sel), false)

/-! ### Serving a route (R265, R266) -/

/-- One assignment: token, rank, expert, weight, slot. -/
structure ExAssign where
  tok : Nat
  rank : Nat
  ex : Nat
  wt : Nat
  slot : Nat

/-- Slots in dispatch order: rank 0 by token, then rank 1 by token. -/
def exSlots (toks : List (List (Nat × Nat))) : List ExAssign :=
  let ranked := fun j => (List.range toks.length).filterMap fun t => ((toks.getD t [])[j]?).map fun x => (t, j, x.1, x.2)
  ((ranked 0 ++ ranked 1).foldl (fun (acc : List ExAssign × SMap Nat) x =>
    let (t, j, e, wt) := x
    let n := SMap.at 0 acc.2 e
    (⟨t, j, e, wt, n⟩ :: acc.1, SMap.put 0 acc.2 e (n + 1))) ([], [])).1.reverse

/-- The assignment entry of a rank that is assigned. -/
def exEntry (a : ExAssign) (cap : Nat) : Nat :=
  a.wt + a.ex * 2 ^ 32 + 2 ^ 41 + (if a.slot < cap then 2 ^ 42 else 0) + a.slot % 65536 * 2 ^ 48

/-- The entry of a rank that is not: VALID and KEPT 0; its other fields are not stated (log entry 72). -/
def exNoEntry (v : Nat) : Nat := setBits v 47 41 0

/-- A route that passes its checks carried out. -/
def Work.exRun (hub : Nat) (rt : ExrRoute) (w : Work) : Work :=
  let p := exrPage hub
  let r : ExrDesc := ⟨w.le rt.desc 64⟩
  let tab := r.table
  let ne := w.exNe tab
  let cap := r.cap ne r.t
  let cplan := r.cap ne r.tplan
  let put := fun (a n v : Nat) (w : Work) => w.unitStore p rt.ctx a (natLE n v) false
  let w := (w.readLines r.scores (4 * ne * r.t)).readLines r.sets (if r.sets = 0 then 0 else r.t)
  if w.poisoned r.scores (4 * ne * r.t) || (r.sets != 0 && w.poisoned r.sets r.t) then w.ctxFault rt.ctx p 0x90 none
  else
    let toks := (List.range r.t).map (w.exToken r)
    let as := exSlots (toks.map (·.1))
    let kept := as.filter fun a => decide (a.slot < cap)
    let dropped := as.length - kept.length
    let routed := fun e => (as.filter fun a => a.ex == e).length
    let n := fun e => (kept.filter fun a => a.ex == e).length
    let lost := (List.range r.t).filter fun t => as.any (fun a => a.tok == t) && !kept.any fun a => a.tok == t
    -- assignments
    let w := (List.range (r.t * r.k)).foldl (fun (w : Work) i =>
      match as.find? fun a => a.tok == i / r.k && a.rank == i % r.k with
      | some a => put (r.assign + 8 * i) 8 (exEntry a cap) w
      | none =>
        let (v, w) := w.fresh
        put (r.assign + 8 * i) 8 (exNoEntry v.toNat) w) w
    -- dispatch lists, counts, group totals
    let w := kept.foldl (fun (w : Work) a => put (r.dispatch + 4 * cplan * a.ex + 4 * a.slot) 4 (a.tok + a.rank * 65536) w) w
    let w := (List.range ne).foldl (fun (w : Work) e => put (r.count + 8 * e) 8 (routed e + n e * 2 ^ 32) w) w
    let w := (List.range 16).foldl (fun (w : Work) g =>
      put (r.count + 8 * ne + 4 * g) 4 ((List.range ne).foldl (fun s e => if w.exGroup tab e = g then s + n e else s) 0) w) w
    let w := ((w.count p 0 1).count p 1 r.t).count p 2 as.length
    let w := ((w.count p 3 dropped).count p 4 lost.length).count p 5 (toks.filter (·.2)).length
    let w := w.set p R.EXR_LASTDROP_DROPS dropped
    let w := if dropped = 0 then w else w.raise p 16
    let w := if r.loop then
        w.exr fun x => { x with loops := SMap.mod [] x.loops rt.ctx fun l => l ++ [⟨hub, tab, (List.range ne).map routed⟩] }
      else w
    w.settle rt.page .done

/-- QUEUED of an EXR. -/
def Work.showExr (hub : Nat) (w : Work) : Work := w.set (exrPage hub) R.EXR_STS_QUEUED (min 64 (w.routes hub).length)

def exrSpec : CmdSpec :=
  { types := [4], code := 0x2C, states := [.bound, .running], resv := fun c => c.addrOk 0 && bits (c.arg 2) 31 21 == 0 && bits (c.arg 2) 15 13 == 0
    legal := fun c w => (w.page c.page).ctx.isSome }

/-- EXR_ROUTE. R260: the route joins those of the hub of the die's quadrant, its GO entry resolved as it is accepted (R76). -/
def execExrRoute (q : Issue) (s : State) : Host.Outcome State Fault Refusal :=
  .next (s.run fun w => w.command q exrSpec fun c w =>
    let hub := dieOf c.page / 4
    let x := (w.page c.page).ctx.getD 0
    let en := bit (c.arg 2) 20
    let go := if en then w.goSite x (bits (c.arg 2) 19 16) (bits (c.arg 2) 15 0) else none
    let rt : ExrRoute := { page := c.page, ctx := x, desc := c.arg64 0, go := go, noGo := en && go.isNone }
    ((w.accept c).exr fun e => { e with routes := SMap.mod [] e.routes hub fun l => l ++ [rt] }).showExr hub)

/-- The descriptor and the table of a route read as it starts (R260). -/
def Work.readRoute (part desc : Nat) (w : Work) : Work :=
  let tab := (⟨w.le desc 64⟩ : ExrDesc).table
  if !w.t1At part desc 64 64 then w
  else
    let w := w.readLines desc 64
    if w.t1At part tab 64 (64 + 16 * w.exNe tab) then w.readLines tab (64 + 16 * w.exNe tab) else w

/-- EXR_ROUTE_SERVE. R262–R266: the oldest route whose context runs is checked, its GO entry last (OWNER, R76), and carried out; GO is injected with its
completion. -/
def execExrRouteServe (hub : Nat) (s : State) : Host.Outcome State Fault Refusal :=
  .next (s.run fun w =>
    match (w.routes hub).find? fun r => (w.worksFor r.page) == some r.ctx with
    | none => w
    | some r =>
      if 4 ≤ hub then w
      else
        let part := (w.ctx r.ctx).part
        let take := fun (w : Work) => (w.exr fun e => { e with routes := SMap.mod [] e.routes hub fun l => l.erase r }).showExr hub
        w.tryUnit (exrPage hub) r.ctx fun w =>
          let bad := (w.exCheck part r.desc).orElse fun _ => if r.noGo then some .owner else none
          let w' := take (w.readRoute part r.desc)
          match bad with
          | some st => w'.settle r.page st
          | none =>
            let w' := w'.exRun hub r
            if (w'.ctx r.ctx).state ≠ .running then w'
            else match w'.injectGo r.ctx r.go with
              | some w => w
              | none => w)

/-- The routes and loop records of a context forgotten; an outstanding EXR_ROUTE of its own ends with a status (R272). -/
def Work.exrDrop (c : Nat) (st : Status) (w : Work) : Work :=
  (List.range 4).foldl (fun (w : Work) h =>
    let gone := (w.routes h).filter fun r => r.ctx == c
    let w := (w.exr fun e => { e with routes := SMap.mod [] e.routes h fun l => l.filter fun r => r.ctx != c }).showExr h
    gone.foldl (fun (w : Work) r => w.atHome r.page c fun w =>
      if (w.page r.page).ctx = some c ∧ (w.page r.page).outst.any (·.code == 0x2C) then w.complete r.page st else w) w)
    (w.exr fun e => { e with loops := SMap.drop e.loops c })

/-! ### The selection-bias loop (R269) -/

/-- One expert's bias adjusted and held to ±BMAX; whether it was clamped. -/
def biasStep (b bstep bmax load nen s : Nat) : Nat × Bool :=
  let x := if load * nen > s then f32Sub b bstep else if load * nen < s then f32Add b bstep else b
  if (ofF32 bmax).lt (ofF32 x) then (bmax, true)
  else if (ofF32 x).lt (ofF32 (f32Neg bmax)) then (f32Neg bmax, true)
  else (x, false)

/-- The biases of a table adjusted. -/
def Work.adjustTable (hub tab : Nat) (w : Work) : Work :=
  let p := exrPage hub
  let ne := w.exNe tab
  let on := (List.range ne).filter (w.exOn tab)
  let loads := fun (w : Work) e => w.le (exAt tab e + 12) 4
  let s := on.foldl (fun a e => a + loads w e) 0
  let w := (on.map fun e => (e, biasStep (w.exBias tab e) (w.le (tab + 8) 4) (w.le (tab + 12) 4) (loads w e) on.length s)).foldl
    (fun (w : Work) x =>
      let w := w.storeLE (exAt tab x.1) 4 x.2.1
      if x.2.2 then (w.count p 7 1).raise p 17 else w) w
  let w := (List.range ne).foldl (fun (w : Work) e => w.storeLE (exAt tab e + 12) 4 0) w
  (w.storeLE (tab + 4) 2 0).count p 6 1

/-- The loop at a commit of a context. -/
def Work.biasLoop (c : Nat) (w : Work) : Work :=
  let l := SMap.at [] w.dev.exr.loops c
  let w := l.foldl (fun (w : Work) x => (List.range x.routed.length).foldl (fun (w : Work) e =>
    w.storeLE (exAt x.table e + 12) 4 (min (2 ^ 32 - 1) (w.le (exAt x.table e + 12) 4 + x.routed.getD e 0))) w) w
  let tabs := (l.map fun x => (x.hub, x.table)).foldl (fun (a : List (Nat × Nat)) x => if a.any fun y => y.2 == x.2 then a else a ++ [x]) []
  let w := tabs.foldl (fun (w : Work) x =>
    let n := (w.le (x.2 + 4) 2 + 1) % 65536
    let w := w.storeLE (x.2 + 4) 2 n
    if w.le (x.2 + 2) 2 ≠ 0 ∧ n = w.le (x.2 + 2) 2 then w.adjustTable x.1 x.2 else w) w
  w.exr fun e => { e with loops := SMap.drop e.loops c }

/-! ### Moving rows (R270, R271) -/

/-- A row of an EXP_PACK put at its place: of this package, or of another by board-global writes (R44, R270). -/
def Work.packRow (p q : Nat) (t : SkpTask) (size row i : Nat) (w : Work) : TaskRes :=
  if q = w.ownPkg then w.copyRun p t.ctx t.src (row * size) t.dst (i * size) size
  else if isScr t.dst then (.fails .bound, w)
  else match w.taskBytes p t.ctx t.src (row * size) size with
    | .error r => r
    | .ok (data, bad, w) =>
      let (st, w) := w.writeTo { tag := 0, page := p, ctx := t.ctx, kind := 0, dst := 0 } (w.ctx t.ctx).part q (t.dst % 2 ^ 48 + i * size) data bad
      if st = .done then (.ran, w) else (.fails st, w)

/-- EXP_PACK. R270: rows in list order to a place of this package or, as board-global writes, of another. -/
def execExpPack (die inst : Nat) (s : State) : Host.Outcome State Fault Refusal :=
  .next (s.run fun w => w.runKind (skpPage die inst) 0x07 fun t w =>
    let p := skpPage die inst
    let size := t.p0 % 2 ^ 20
    let list := t.p1 % 2 ^ 48
    let pkg := bits t.p1 59 48
    let (phys, w') := w.physPkg (w.ctx t.ctx).part pkg
    if t.p0 / 2 ^ 20 ≠ 0 ∨ t.p1 / 2 ^ 60 ≠ 0 then (.fails .unknown, w)
    else if size < 16 ∨ 65536 < size ∨ size % 16 ≠ 0 then (.fails .shape, w)
    else match phys with
    | none => (.fails .bound, w')
    | some q =>
      eachItem (fun i w =>
        if list = 0 then w.packRow p q t size i i
        else match w.taskIndex p t.ctx list (4 * i) with
          | .error r => r
          | .ok (e, w) => w.packRow p q t size (e % 65536) i) (List.range t.len) w)

/-- Elements of a row of expert outputs as FP32. -/
def exElems (b16 : Bool) (d : Nat) (l : List Byte) : List Nat :=
  (List.range d).map fun i => if b16 then leNat ((l.drop (2 * i)).take 2) * 65536 else leNat ((l.drop (4 * i)).take 4)

/-- One token's outputs combined (R271): the sum over the ranks that are valid and kept. -/
def Work.unpackOne (p : Nat) (t : SkpTask) (d k : Nat) (in16 : Bool) (i : Nat) (w : Work) : Except TaskRes (List Nat × Bool × Work) :=
  let esz := if in16 then 2 else 4
  let cplan := t.p1 / 2 ^ 48
  (List.range k).foldl (fun (r : Except TaskRes (List Nat × Bool × Work)) j =>
    match r with
    | .error e => .error e
    | .ok (acc, bad, w) =>
      match w.taskBytes p t.ctx t.src (8 * (k * i + j)) 8 with
      | .error e => .error e
      | .ok (l, b1, w) =>
        let e := leNat l
        if !bit e 41 || !bit e 42 then .ok (acc, bad || b1, w)
        else match w.taskBytes p t.ctx (t.p1 % 2 ^ 48) ((bits e 40 32 * cplan + bits e 63 48) * d * esz) (d * esz) with
          | .error e => .error e
          | .ok (y, b2, w) => .ok (List.zipWith (fun a v => f32Fma (e % 2 ^ 32) v a) acc (exElems in16 d y), bad || b1 || b2, w))
    (.ok (List.replicate d 0, false, w))

/-- EXP_UNPACK. R271. -/
def execExpUnpack (die inst : Nat) (s : State) : Host.Outcome State Fault Refusal :=
  .next (s.run fun w => w.runKind (skpPage die inst) 0x08 fun t w =>
    let p := skpPage die inst
    let d := t.p0 % 65536
    let osz := if bit t.p0 18 then 2 else 4
    if t.p0 / 2 ^ 19 ≠ 0 then (.fails .unknown, w)
    else if d = 0 ∨ 16384 < d then (.fails .shape, w)
    else
      eachItem (fun i w => match w.unpackOne p t d (bits t.p0 17 17 + 1) (bit t.p0 16) i with
        | .error r => r
        | .ok (acc, bad, w) =>
          w.taskPut p t.ctx t.dst (i * d * osz) ((acc.map fun v => natLE osz (convElem (osz / 2 % 2) 0 v).2.1).flatten) bad) (List.range t.len) w)

end Sys2Proof.Machine
end

