-- ==== Sys2Proof/Machine/Sampling.lean ====
section
/-!
DEFINITION. Sampling.lean: SRV_SAMPLE: distributions, draws, verification of drafts, and the result area (R287–R290).
-/
namespace Sys2Proof.Machine

/-- A candidate record (R287): λ, and the candidates as (id, t). -/
structure CandRec where
  lam : Nat
  cands : List (Nat × Nat)
deriving DecidableEq, Repr

/-- Bytes of an output record, and of a candidate record. -/
def recSize : Nat := 68608
def candSize : Nat := 528

/-- FP32 bits are NaN or an infinity. -/
def notFinite (x : Nat) : Bool := bits x 30 23 == 255

/-- A candidate record read, or the cause of its failure (R289, Table 16.11). -/
def Work.candRec (w : Work) (a : Nat) : Except Nat CandRec :=
  let nc := w.le (a + 4) 1
  if nc = 0 ∨ 64 < nc then .error 1
  else
    let l := (List.range nc).map fun i => (w.le (a + 16 + 8 * i) 4 % 2 ^ 24, w.le (a + 20 + 8 * i) 4)
    if l.any fun x => notFinite x.2 then .error 2
    else if notFinite (w.le a 4) then .error 3
    else .ok ⟨w.le a 4, l⟩

/-- A candidate before another: larger t, or equal t and lower id. -/
def candBefore (a b : Nat × Nat) : Bool :=
  (ofF32 b.2).lt (ofF32 a.2) || (!(ofF32 a.2).lt (ofF32 b.2) && decide (a.1 < b.1))
def insCand (a : Nat × Nat) : List (Nat × Nat) → List (Nat × Nat)
  | [] => [a]
  | b :: l => if candBefore a b then a :: b :: l else b :: insCand a l

/-- A distribution: (id, weight) pairs (R290). -/
abbrev Dist := List (Nat × Nat)

/-- Cumulative sums of the weights, in FP32. -/
def cumSums : Nat → Dist → List Nat
  | _, [] => []
  | s, x :: l => f32Add s x.2 :: cumSums (f32Add s x.2) l
def Dist.total (p : Dist) : Nat := (cumSums 0 p).getLast?.getD 0

/-- FP32 not below. -/
def f32Ge (a b : Nat) : Bool := !(ofF32 a).lt (ofF32 b)

/-- filt(R) (R290). -/
def filt (r : CandRec) (rinv topk topp : Nat) : Dist :=
  let l := r.cands.foldl (fun l x => insCand x l) []
  let l := if topk = 0 then l else l.take topk
  if rinv = 0 then (l.take 1).map fun x => (x.1, 0x3F800000)
  else
    let t0 := (l.headD (0, 0)).2
    let p := l.map fun x => (x.1, f32Exp2 (f32Mul (f32Sub x.2 t0) rinv))
    if topp = 0 then p
    else
      let bar := toF32 ((ofF32 (Dist.total p)).mul (.fin false topp (-16)))
      match (cumSums 0 p).findIdx? fun s => f32Ge s bar with
      | some i => p.take (i + 1)
      | none => p

/-- prob(P, id) (R290). -/
def prob (p : Dist) (id : Nat) : Nat :=
  match p.find? fun x => x.1 == id with
  | some x => f32Mul x.2 (f32Rcp (Dist.total p))
  | none => 0

/-- The uniform of a node's position and a draw index (R290). -/
def uniform (seed pos k : Nat) : Fv := .fin false (bits (mix64 (seed ^^^ ((pos <<< 16) ||| k))) 31 8) (-24)

/-- draw(P, pos, k) (R290). -/
def drawFrom (p : Dist) (u : Fv) : Nat :=
  let x := toF32 (u.mul (ofF32 (Dist.total p)))
  match (p.zip (cumSums 0 p)).find? fun y => (ofF32 x).lt (ofF32 y.2) with
  | some y => y.1.1
  | none => ((p.filter fun y => y.2 % 2 ^ 31 != 0).getLast?.getD (p.getLast?.getD (0, 0))).1

/-- residual(P, Q) (R290). -/
def residual (p q : Dist) : Dist :=
  let r := p.map fun x => (x.1, f32Max 0 (f32Sub (prob p x.1) (prob q x.1)))
  if r.all fun x => x.2 == 0 then p else r

/-- A token emitted: id, flags of Table 16.7 as bits 24–30 of the slot, LOGP, position. -/
structure Emit where
  id : Nat
  flags : Nat
  logp : Nat
  pos : Nat
deriving DecidableEq, Repr

/-- What the sampling of one entry works on: the request, its record's address, the first node's position, the nodes, the tokens the
request has emitted before. -/
structure SampleOf where
  r : Req
  base : Nat
  pos0 : Nat
  nodes : Nat
  before : Nat
deriving DecidableEq, Repr

/-- What it has done: draws, and emitted tokens (the newest last). -/
structure SampleSt where
  draws : Nat := 0
  out : List Emit := []
  acc : Nat := 1
deriving DecidableEq, Repr

/-- TOKEN and PARENT of a node. -/
def Work.node (w : Work) (x : SampleOf) (v : Nat) : Nat × Nat :=
  let n := w.le (x.base + 33792 + 8 * v) 4
  (n % 2 ^ 24, bits n 29 24)

/-- Children of a node in ascending index; a node whose PARENT is not below it is nobody's child (DEDUCED, log entry 53). -/
def Work.children (w : Work) (x : SampleOf) (v : Nat) : List Nat :=
  (List.range x.nodes).filter fun k => k != 0 && decide (v < k) && (w.node x k).2 == v

/-- Emits a token from node v at `pos` (R290): flags, LOGP, and whether the loop stops. -/
def emitTok (x : SampleOf) (t : CandRec) (id pos : Nat) (spec : Bool) (s : SampleSt) : SampleSt × Bool :=
  let tid := match t.cands.find? fun c => c.1 == id with | some c => c.2 | none => ninf32
  let logp := (bf16.round rne .toInf (ofF32 (f32Mul (f32Sub tid t.lam) 0x3F317218))).1
  let stop := x.r.stopen && x.r.stopid == id
  let lim := decide (x.r.limit - x.r.prompt ≤ x.before + s.out.length + 1)
  let b := fun (c : Bool) n => if c then 2 ^ n else 0
  ({ s with out := s.out ++ [⟨id, b (stop || lim) 24 + b spec 25 + b stop 26 + b lim 27, logp, pos + 1⟩] }, stop || lim)

/-- The children of a node tested one after another by rejection (R290): the accepted child, the distribution left, draws made. -/
def rejectTest (w : Work) (x : SampleOf) (q : Dist) (pos : Nat) : List Nat → Nat → Dist → Nat → Option Nat × Dist × Nat
  | [], _, p, n => (none, p, n)
  | ch :: l, j, p, n =>
    let tok := (w.node x ch).1
    let pp := prob p tok
    let ok := (ofF32 0).lt (ofF32 pp)
    let n := if ok then n + 1 else n
    if ok && f32Ge pp (toF32 ((uniform x.r.seed pos (2 + j)).mul (ofF32 (prob q tok)))) then (some ch, p, n)
    else rejectTest w x q pos l (j + 1) (residual p q) n

/-- The loop of R290 from node v at depth `depth`; the cause where a record fails. -/
def sampleLoop (w : Work) (x : SampleOf) : Nat → Nat → Nat → SampleSt → Except Nat SampleSt
  | 0, _, _, s => .ok s
  | fuel + 1, v, depth, s =>
    let pos := x.pos0 + depth
    match w.candRec (x.base + candSize * v) with
    | .error e => .error e
    | .ok t =>
      let p := filt t x.r.rinv x.r.topk x.r.topp
      let kids := w.children x v
      let step : Except Nat (Option Nat × Dist × Nat) :=
        if x.r.accmode = 0 then
          let y := drawFrom p (uniform x.r.seed pos 1)
          .ok (kids.find? fun k => (w.node x k).1 == y, p, s.draws + 1)
        else if kids.isEmpty then .ok (none, p, s.draws)
        else match w.candRec (x.base + 34304 + candSize * v) with
          | .error e => .error e
          | .ok d => .ok (rejectTest w x (filt d x.r.rinv x.r.topk x.r.topp) pos kids 0 p s.draws)
      match step with
      | .error e => .error e
      | .ok (some ch, _, n) =>
        let (s, stop) := emitTok x t (w.node x ch).1 pos true { s with draws := n }
        if stop then .ok s else sampleLoop w x fuel ch (depth + 1) { s with acc := s.acc + 1 }
      | .ok (none, p, n) =>
        let y := drawFrom p (uniform x.r.seed pos 1)
        let n := if x.r.accmode = 0 then n else n + 1
        .ok (emitTok x t y pos false { s with draws := n }).1

/-- A batch entry as memory holds it: request, KIND, NPOS. -/
def Work.batchEnt (w : Work) (a b : Nat) : Nat × Nat × Nat :=
  let e := a + 16 + 16 * b
  (w.le e 2 % 2 ^ 13, bits (w.le e 2) 15 13, w.le (e + 4) 4)

/-- The request is one of the context's. -/
def Work.ctxReq (w : Work) (c rq : Nat) : Bool := (w.req rq).ctx == c && (w.req rq).part == (w.ctx c).part && (w.req rq).state != 0

/-- The entry emits: every one but a prefill that does not complete the prompt (R288). -/
def Work.emits (w : Work) (e : Nat × Nat × Nat) : Bool := e.2.1 != 0 || (w.req e.1).clen + e.2.2 == (w.req e.1).prompt

/-- CEND on the last entry of a result area. -/
def markLast : List Emit → List Emit
  | [] => []
  | [e] => [{ e with flags := e.flags + 2 ^ 28 }]
  | e :: l => e :: markLast l

/-- The lines that the sampling of an entry reads: the candidate records of its nodes, and with several of them the node table and the drafts' records (R287). -/
def Work.readNodes (x : SampleOf) (w : Work) : Work :=
  let w := w.readLines x.base (candSize * x.nodes)
  if x.nodes ≤ 1 then w
  else
    let w := w.readLines (x.base + 33792) (8 * x.nodes)
    if x.r.accmode = 0 then w else w.readLines (x.base + 34304) (candSize * x.nodes)

/-- One batch entry sampled (R288, R289). A prefill that emits nothing is marked OK, so that its positions commit (DEDUCED, log entry 54). -/
def Work.sampleEnt (c a out b : Nat) (w : Work) : Work :=
  let e := w.batchEnt a b
  let at_ := a + 16 + 16 * b + 12
  let r := w.req e.1
  if !w.ctxReq c e.1 then w
  else if !w.emits e then w.storeLE at_ 4 128
  else
    let x : SampleOf := { r := r, base := out + recSize * b, pos0 := if e.2.1 = 0 then r.prompt - 1 else r.clen
                          nodes := if e.2.1 = 2 then min e.2.2 64 else 1, before := if e.2.1 = 0 then 0 else r.clen - r.prompt + 1 }
    let w := (w.readNodes x).count (trgHub e.1) 0 1
    match sampleLoop w x 64 0 0 {} with
    | .error cause =>
      let p := trgHub e.1
      let w := ((w.set p R.TRG_LASTFAIL_RQIDX e.1).set p R.TRG_LASTFAIL_VALID 1).set p R.TRG_LASTFAIL_CAUSE cause
      let w := w.serve fun y => { y with batches := SMap.mod {} y.batches c fun z => { z with failed := e.1 :: z.failed } }
      (w.storeLE at_ 4 0).count p 3 1 |>.raise p 16
    | .ok s =>
      let w := w.serve fun y => { y with batches := SMap.mod {} y.batches c fun z => { z with failed := z.failed.filter (· != e.1) } }
      let w := w.count (trgHub e.1) 1 s.draws
      let l := markLast s.out
      let w := (List.range l.length).foldl (fun (w : Work) i =>
        let t := l.getD i ⟨0, 0, 0, 0⟩
        w.storeLE (x.base + 68096 + 8 * i) 8 (t.id + t.flags + t.logp * 2 ^ 32)) w
      w.storeLE at_ 4 (s.acc + 128 + s.out.length * 256)

/-- The common checks of SRV_SAMPLE. -/
def srvSampleSpec : CmdSpec :=
  { types := [4], code := 0x35, states := [.running], resv := fun c => c.addrOk 0 && c.addrOk 2 }

/-- SRV_SAMPLE. R288: arrays outside the granules are BOUND, poisoned ones POISON, before any entry is sampled. -/
def execSrvSample (q : Issue) (s : State) : Host.Outcome State Fault Refusal :=
  .next (s.run fun w => w.command q srvSampleSpec fun c w =>
    let x := (w.page c.page).ctx.getD 0
    let part := (w.ctx x).part
    let a := c.arg64 0
    let out := c.arg64 2
    let n := w.le a 4
    let es := (List.range (min n 2048)).filter fun b => w.ctxReq x (w.batchEnt a b).1 && w.emits (w.batchEnt a b)
    let w' := if w.inT1 part a (16 + 16 * n) then (w.accept c).readLines a (16 + 16 * n) else w.accept c
    match firstFail [
        (!w.inT1 part a 16 || decide (n > 2048) || !w.inT1 part a (16 + 16 * n) || !(es.all fun b => w.inT1 part (out + recSize * b) recSize), .bound),
        (w.poisoned a (16 + 16 * n) || es.any fun b => w.poisoned (out + recSize * b) recSize, .poison)] with
    | some st => w'.settle c.page st
    | none =>
      let hubs := (List.range 4).filter fun h => (List.range n).any fun b => (w.batchEnt a b).1 / 2048 == h
      let w' := hubs.foldl (fun (w : Work) h => w.set (trgPage h) R.TRG_STS_ACTIVE 1) w'
      ((List.range n).foldl (fun w b => w.sampleEnt x a out b) w').settle c.page .done)

end Sys2Proof.Machine
end

