-- ==== Sys2Proof/Machine/Abandon.lean ====
section
/-!
DEFINITION. Abandon.lean: how a step ends without commit (R369), and what makes a Ringlet member end it (R229).
-/
namespace Sys2Proof.Machine

/-- The requests of a context. -/
def Work.ctxReqs (w : Work) (c : Nat) : List Nat :=
  w.dev.serve.reqs.filterMap fun e => if w.ctxReq c e.1 then some e.1 else none

/-- What waited for the commit of a step that includes a request takes effect at once when no step does any more (R276, R293). -/
def Work.heldActs (rq : Nat) (w : Work) : Work :=
  let r := w.req rq
  if r.cancelling then ((w.stopNow rq 7).reqEvent rq 4 0).answerHold rq
  else (if r.pausing then (w.stopNow rq 5).reqEvent rq 5 0 else w).answerHold rq

/-! ### The commit trace (R391) -/

/-- Whether a tier-1 address lies in a granule bound to no partition. -/
def Work.t1Unbound (w : Work) (a n : Nat) : Bool := w.t1Populated a n && (w.owner kT1 (a / gib)).isNone && (w.owner kT1 ((a + n - 1) / gib)).isNone

/-- The trace ring: its base, the number of its records; whether the trace is on. -/
def Work.trBase (w : Work) : Nat := w.get (snpPage 16) R.SNP_TRBASE_LO_TB_LO * 4096 + 2 ^ 32 * w.get (snpPage 16) R.SNP_TRBASE_HI_TB_HI
def Work.trSize (w : Work) : Nat := 2 ^ w.get (snpPage 16) R.SNP_TRCFG_LOG2N
def Work.trOn (w : Work) : Bool := w.get (snpPage 16) R.SNP_TRCFG_TREN == 1

/-- A record of the commit trace (Table 22.3): KIND 0 COMMIT, 1 FAULT, 2 ABANDON, 3 TEARDOWN. A record that would lie outside the granules R391 allows
is not written (log entry 75). -/
def Work.trace (stamp c kind nreq ntok nprompt : Nat) (w : Work) : Work :=
  let p := snpPage 16
  let i := w.get p R.SNP_TRIDX_NEXT
  let a := w.trBase + 32 * i
  if !w.trOn then w
  else
    let x := w.ctx c
    let w := if w.t1Unbound a 32 then
        w.store a (natLE 8 stamp ++ natLE 1 c ++ natLE 1 x.part ++ natLE 2 kind ++ natLE 4 x.step.toNat ++ natLE 4 nreq ++ natLE 4 ntok ++
          natLE 4 nprompt ++ natLE 4 0)
      else w
    let n := (i + 1) % w.trSize
    let w := (w.set p R.SNP_TRIDX_NEXT n).count p 2 1
    if n = 0 then (w.set p R.SNP_TRIDX_WRAPPED 1).raise p 18 else w

/-- A commit that has not been stamped ends FAULT (R367, R369). -/
def Work.failCommit (c : Nat) (w : Work) : Work :=
  match (w.ctx c).commit with
  | some m =>
    if m.stamp.isSome then w
    else
      let w := (w.modCtx c fun x => { x with commit := none }).atHome m.page c fun w => w.complete m.page .fault
      let w := (w.seqPages c).foldl (fun (w : Work) p => w.endStall p 1) w
      w.trace (match (w.ctx c).fault with | some f => f.2.2.2.2.2 | none => w.now) c 1 0 0 0
  | none => w

/-- The step of a context ends without commit (R369): a commit that waits, pool edits undone, tasks, lists, routes and programs ended with a status, the prefetch ring
at phase 0, opens released, the batch dropped. -/
def Work.abandonStep (c : Nat) (st : Status) (w : Work) : Work :=
  let w := (w.ctxReqs c).foldl (fun (w : Work) rq => w.abandonTab rq) (w.failCommit c)
  let w := ((((w.skpDrop c).hwkDrop c st).tslDrop c st).exrDrop c st).collDrop c
  let w := w.modSave c fun x => { x with rings := x.rings.map fun e => (e.1, e.2.restart) }
  let w := (((w.restartRings c).releaseOpens c).dropBatch c).modCtx c fun x => { x with stalls := 0 }
  let w := w.fab fun f => { f with stalls := f.stalls.filter fun e => e.1 % 256 != c }
  (w.ctxReqs c).foldl (fun (w : Work) rq => w.heldActs rq) w

/-- A step abandoned, and traced (R369, R391). -/
def Work.stepAbandoned (c : Nat) (w : Work) : Work := (w.abandonStep c .fault).trace w.now c 2 0 0 0

/-- A member abandons the step (R229, R369): the run with its neighbours, and everything else of the step. -/
def Work.memberAbandons (p code : Nat) (w : Work) : Work :=
  if w.rstate p = 1 ∨ w.rstate p = 2 then
    let w := w.ringAbandon p code
    match (w.page p).ctx with
    | some c => w.stepAbandoned c
    | none => w
  else w

def rltAbandonSpec : CmdSpec := { types := [4], code := 0x5A, states := [.bound, .running] }

/-- A command of the group, legal while another one is outstanding where that is an RLT_RUN (R229: RLT_ABANDON ends the run it interrupts). -/
def Work.abandonCommand (q : Issue) (w : Work) : Work :=
  let run := match (w.page q.page).outst with | some o => o.code == 0x59 | none => false
  if run then
    match w.reach q.caller q.page with
    | .ignored => w
    | .denied => w.count pciPage 0 1
    | .ok => w.onWay q.caller q.page fun w =>
      let c := w.call q 0x5A
      if typeOf q.page != 4 || q.hi != 0 then w.reply c .unknown
      else if !w.mayIssue q.caller q.page then w.reply c .owner
      else if !rltAbandonSpec.states.contains (w.page q.page).state || w.rstate q.page != 2 then w.reply c .state
      else w.asUnit q.page fun w => (w.memberAbandons q.page 0x59).reply c .done
  else w.command q rltAbandonSpec fun c w =>
    w.checked c [(w.rstate c.page != 1 && w.rstate c.page != 2, .state)] fun w => (w.memberAbandons c.page 0x59).reply c .done

/-- RLT_ABANDON. R229, R231. -/
def execRltAbandon (q : Issue) (s : State) : Host.Outcome State Fault Refusal := .next (s.run fun w => w.abandonCommand q)

/-- RLT_ABANDON_MSG. R229: a neighbour has abandoned; a member saved off its page abandons too. -/
def execRltAbandonMsg (page : Nat) (s : State) : Host.Outcome State Fault Refusal :=
  .next (s.run fun w => if typeOf page = 4 then w.onRing page fun w => w.memberAbandons page 0x59 else w)

/-- A neighbour of a member owes it something (R229): a block that has a slot to land in, a FREE that its next block waits for, or the state of a decode step. -/
def Work.awaits (w : Work) (p : Nat) (r : RltRun) : Bool :=
  let g := w.rgroup p
  (decide (r.recv < r.arrivals g) && !r.occupied g (r.recv % g.nslot)) ||
    (decide (r.sent < r.sends g) && r.holds (r.ofSend g r.sent) && !r.free.contains (r.sent % g.nslot)) ||
    (r.decode && !r.stateIn && (decide (g.rank ≠ 0) || r.stateOut))

/-- RLT_TIMEOUT. R229: TIMEOUT has passed with a block, a FREE or a state awaited from a neighbour and none of them come; the context was not held meanwhile. -/
def execRltTimeout (page : Nat) (s : State) : Host.Outcome State Fault Refusal :=
  .next (s.run fun w =>
    match (w.rgroup page).run, (w.page page).ctx with
    | some r, some c =>
      if w.awaits page r ∧ (w.ctx c).state = .running ∧ r.last + w.rltTimeout page ≤ w.now then w.memberAbandons page 0x58 else w
    | _, _ => w)

end Sys2Proof.Machine
end

