-- ==== Sys2Proof/Machine/Speedwell.lean ====
section
/-!
DEFINITION. Speedwell.lean: contexts, the cyclic schedule, pre-emption and restore (R323–R335).
-/
namespace Sys2Proof.Machine

/-- The page of the replica that schedules (R333). -/
def Work.spwActing (w : Work) : Nat := spwPage w.dev.spw.standbyActs

/-- A register that both replicas show. -/
def Work.spwSet (f : Fld) (v : Nat) (w : Work) : Work := (w.set (spwPage false) f v).set (spwPage true) f v

/-! ### Windows (R326, R327) -/

/-- Windows and classes that GRANT allows. -/
def grantBit (x : Win) (part cls : Nat) : Bool := bit x.grant (3 * part + cls)

/-- Partition `part` may run class `cls` now; with no frame running every partition may. -/
def Work.granted (w : Work) (part cls : Nat) : Bool :=
  let s := w.dev.spw
  if s.started then match s.bank[s.win]? with | some x => grantBit x part cls | none => true else true

/-- Start of the window in force and of the next one. -/
def Speedwell.winStart (s : Speedwell) : Nat := s.frameStart + 1000 * ((s.bank.take s.win).map (·.len)).sum
def Speedwell.nextStart (s : Speedwell) : Nat := if s.started then s.frameStart + 1000 * ((s.bank.take (s.win + 1)).map (·.len)).sum else s.t0

/-- The window that comes next; none where the frame ends for good. -/
def Speedwell.nextWin (s : Speedwell) : Option Win :=
  if !s.started then s.bank[0]?
  else if s.win + 1 < s.bank.length then s.bank[s.win + 1]?
  else if s.stopReq then none
  else (if s.shadowFull then s.shadowBank else s.bank)[0]?

/-- A context's class may run at this scheduling point; from the lead point on, class 0 of the next window too (R331). -/
def Work.mayRank (w : Work) (x : Ctx) : Bool :=
  w.granted x.part x.cls ||
    (w.dev.spw.lead && x.cls == 0 && match w.dev.spw.nextWin with | some v => grantBit v x.part 0 | none => true)

/-! ### Ranking (R328, R329) -/

/-- Two placements share a resource. -/
def Ctx.clash (x y : Ctx) : Bool :=
  x.groups &&& y.groups != 0 || x.seqs &&& y.seqs != 0 || x.hwks &&& y.hwks != 0 || x.skps &&& y.skps != 0 || x.tsls &&& y.tsls != 0

/-- The effective deadline of a class-1 context; 0 for none. -/
def Ctx.effective (x : Ctx) : Nat :=
  if x.deadline = 0 then x.batchDeadline.toNat else if x.batchDeadline = 0 then x.deadline.toNat else min x.deadline.toNat x.batchDeadline.toNat

/-- The place of a context in the ranking as one number: class; running contexts before their own class unless their step has just been committed or
their turn has ended; then what the class goes by. -/
def Work.rankKey (w : Work) (free : Option Nat) (c : Nat) : Nat :=
  let x := w.ctx c
  let keep := (x.state == .running || x.state == .restoring) && free != some c
  let k := match x.cls with
    | 0 => c
    | 1 => (if x.effective = 0 then 2 ^ 64 else x.effective) * 256 + c
    | _ =>
      let s := w.dev.spw
      (x.tenant + 4096 - SMap.at 0 s.turnAt x.part) % 4096 * 256 + (c + 256 - SMap.at 0 s.turnCtx (x.part * 4096 + x.tenant)) % 256
  x.cls * 2 ^ 90 + (if keep then 0 else 2 ^ 80) + k

/-- A list of contexts in ascending order of a key. -/
def insKey (key : Nat → Nat) (c : Nat) : List Nat → List Nat
  | [] => [c]
  | d :: l => if key c < key d then c :: d :: l else d :: insKey key c l

/-- The contexts that take part, ranked. -/
def Work.ranked (w : Work) (free : Option Nat) : List Nat :=
  let part := w.dev.ctxs.filter fun e =>
    (match e.2.state with | .ready => true | .restoring => true | .running => true | .saving => true | .saved => true | _ => false) && w.mayRank e.2
  (part.map (·.1)).foldl (fun l c => insKey (w.rankKey free) c l) []

/-- The contexts that are assigned their placement. -/
def Work.assigned (w : Work) (free : Option Nat) : List Nat :=
  (w.ranked free).foldl (fun l c => if l.any fun d => (w.ctx c).clash (w.ctx d) then l else l ++ [c]) []

/-! ### Starting, stopping, restoring (R325, R330, R331) -/

/-- A turn of a class-2 context begins (R329). -/
def Work.beginTurn (c : Nat) (w : Work) : Work :=
  let x := w.ctx c
  let weight := SMap.at 256 w.dev.spw.weights x.tenant
  let len := 1000 * w.get w.spwActing R.SPW_SLICE_SLICE * weight / 256
  (w.modCtx c fun x => { x with turnLeft := len, runSince := BitVec.ofNat 64 w.now }).spw fun s =>
    { s with turnAt := SMap.put 0 s.turnAt x.part x.tenant, turnCtx := SMap.put 0 s.turnCtx (x.part * 4096 + x.tenant) (c + 1) }

/-- The latency of a class-0 start, from the start of the window (R332). -/
def Work.noteStart (c : Nat) (w : Work) : Work :=
  let s := w.dev.spw
  if (w.ctx c).cls ≠ 0 ∨ !s.started then w
  else
    let p := w.spwActing
    let lat := w.now - s.winStart
    let w := w.set p R.SPW_RTLAT_MAXLAT (max (w.get p R.SPW_RTLAT_MAXLAT) (min lat 65535))
    if lat > 25000 then (w.count p 5 1).raise p 17 else w

/-- A restored context starts to run. -/
def Work.runCtx (c : Nat) (w : Work) : Work :=
  let w := (w.ctxPages c).foldl (fun (w : Work) p =>
    if (w.page p).state = .bound ∨ (w.page p).state = .quiesced then w.toState p .running else w) w
  let w := ((w.modCtx c fun x => { x with state := .running, restored := false, runSince := BitVec.ofNat 64 w.now }).thaw c).noteStart c
  if (w.ctx c).cls = 2 ∧ (w.ctx c).turnLeft = 0 then w.beginTurn c else w

/-- A running context is pre-empted: its units stop, its Skippers return what they had not begun (R243, R330). -/
def Work.preempt (c : Nat) (w : Work) : Work :=
  let x := w.ctx c
  let w := (w.ctxPages c).foldl (fun (w : Work) p => if (w.page p).state = .running then w.toState p .quiescing else w) w
  let w := (w.skpReturn c).modCtx c fun x => { x with
    state := .saving, stopAt := w.now + 1, turnLeft := if x.cls = 2 then max 1 (x.turnLeft - (w.now - x.runSince.toNat)) else 0 }
  w.count w.spwActing (if x.discard then 3 else 1) 1

/-- Every resource of a context is free: no context that clashes with it holds its own, and no page is fenced. -/
def Work.resourcesFree (w : Work) (c : Nat) : Bool :=
  !(w.dev.ctxs.any fun e => e.1 != c && (match e.2.state with | .restoring => true | .running => true | .saving => true | .ending => true | _ => false) &&
    (w.ctx c).clash e.2) &&
    (w.ctx c).pages.all fun p => (w.page p).state == .bound || (w.page p).state == .quiesced

/-- A page taken from another context: what that one has left there moves into its record, reads of its prefetch engine under way are given up, and the cell's
memories are cleared, so that nothing of it is read through a pair of the context that comes (R131; DEDUCED, log entry 125). -/
def Work.takeOver (p o c : Nat) (w : Work) : Work := (((w.dropReads p fun _ => true).evict p o).wipeCell p).unevict p c

/-- An assigned context takes its pages, and its own state comes back to them. The bounds that its sequencers show follow its dies (Table 5.7). -/
def Work.beginRestore (c : Nat) (w : Work) : Work :=
  let w := (w.ctx c).pages.foldl (fun (w : Work) p =>
    match (w.page p).ctx with
    | some o => if o = c then w else w.takeOver p o c
    | none => w.unevict p c) w
  let w := (w.ctx c).pages.foldl (fun (w : Work) p => w.modPage p fun g => { g with owner := ownerWord g.part (some c) }) w
  let w := (w.seqPages c).foldl (fun (w : Work) p => w.publishSeq p) w
  w.modCtx c fun x => { x with state := .restoring, restored := false }

/-- A scheduling point (R328). `free` names the context whose step has just been committed or whose turn has ended. -/
def Work.schedule (free : Option Nat) (w : Work) : Work :=
  let w := (SMap.keys w.dev.ctxs).foldl (fun (w : Work) c =>
    let x := w.ctx c
    if x.state = .restoring ∧ x.restored ∧ w.granted x.part x.cls then w.runCtx c else w) w
  let a := w.assigned free
  let w := (SMap.keys w.dev.ctxs).foldl (fun (w : Work) c => if (w.ctx c).state = .running ∧ c ∉ a then w.preempt c else w) w
  a.foldl (fun (w : Work) c =>
    if ((w.ctx c).state = .ready ∨ (w.ctx c).state = .saved) ∧ w.resourcesFree c then w.beginRestore c else w) w

/-- CONTEXT_SAVED. R67, R209, R330: the save of a context completes; with DISCARD its step is abandoned and every slot is EMPTY. -/
def execContextSaved (ctx : Nat) (s : State) : Host.Outcome State Fault Refusal :=
  .next (s.run fun w =>
    if (w.ctx ctx).state ≠ .saving then w
    else
      let w := (w.ctxPages ctx).foldl (fun (w : Work) p =>
        let w := if (w.page p).state = .running then w.toState p .quiescing else w
        if (w.page p).state = .quiescing then ((if (w.ctx ctx).discard then w else (w.saveEngine p).saveBag p).toState p .quiesced) else w) w
      if (w.ctx ctx).discard then
        let cells := (w.ctx ctx).cells.filter fun e => w.siteCtx e.1 e.2 == some ctx
        let w := w.stepAbandoned ctx
        let w := (cells.foldl (fun (w : Work) e => w.voidSite (siteKey e.1 e.2)) w).modCfg ctx fun g => { g with drains := [] }
        let w := w.modCtx ctx fun x => { x with state := .ready, stopAt := 0 }
        let w := (w.ctxPages ctx).foldl (fun (w : Work) p => if typeOf p = 4 then w.raise p 22 else w) w
        w.schedule none
      else ((w.saveCells ctx).modCtx ctx fun x => { x with state := .saved, hasSave := true }).schedule none)

/-- Time that a context did not run is taken out of what its units measure (R164, R229, R359). -/
def Work.resumeTimers (c : Nat) (w : Work) : Work :=
  let t := (w.ctx c).stopAt
  if t = 0 then w
  else
    let d := w.now + 1 - t
    let w := (w.seqPages c).foldl (fun (w : Work) p => if (w.stallsOf p).isEmpty then w else w.shiftStalls p d) w
    ((w.ringShift c d).collShift c d).modCtx c fun x => { x with stopAt := 0 }

/-- CONTEXT_RESTORED. R325, R330, R131: the restore completes; the context runs once a granted window is in force. -/
def execContextRestored (ctx : Nat) (s : State) : Host.Outcome State Fault Refusal :=
  .next (s.run fun w =>
    let x := w.ctx ctx
    if x.state ≠ .restoring ∨ x.restored then w
    else
      let w := w.restoreCells ctx
      -- a context that brings nothing back begins with empty slots at its epoch
      let w := if x.hasSave then w else
        x.cells.foldl (fun (w : Work) e => w.modSite (siteKey e.1 e.2) fun y => { y with epoch := x.epoch.toNat }) w
      let w := (w.dropSaved ctx).modCtx ctx fun x => { x with hasSave := false, restored := true }
      let w := (w.pfResume ctx).resumeTimers ctx
      ((w.count w.spwActing 2 1).schedule none).rltPumpCtx ctx)

/-! ### Context commands (R324, Table 18.6) -/

/-- The common checks of the commands of an SPW page: issued on the page of the replica that schedules, by the physical function or the KMC. -/
def spwSpec (code : Nat) (resv : Call → Bool) : CmdSpec := { types := [0x19], code := code, who := .priv, resv := resv }

/-- A command of the SPW page; STATE on the page of the other replica (R333). -/
def Work.spwCommand (q : Issue) (code : Nat) (resv : Call → Bool) (body : Call → Work → Work) (w : Work) : Work :=
  w.command q (spwSpec code resv) fun c w => if c.page = w.spwActing then body c w else w.reply c .state

/-- A context descriptor (Table 18.5) as fields. -/
def Work.ctxDesc (w : Work) (a : Nat) : Ctx :=
  { state := .created, part := bits (w.le (a + 1) 1) 5 0, cls := bits (w.le (a + 2) 1) 1 0, discard := bit (w.le (a + 2) 1) 2
    tenant := bits (w.le (a + 4) 2) 11 0, saveA := w.le (a + 8) 6, saveSz := w.le (a + 16) 1, spillSz := w.le (a + 20) 4 % 2 ^ 15
    spillA := w.le (a + 24) 6, groups := w.le (a + 32) 32, seqs := w.le (a + 64) 8, hwks := w.le (a + 72) 16, skps := w.le (a + 88) 64
    tsls := w.le (a + 152) 4 }

/-- Reserved fields of a descriptor are zero. -/
def Work.ctxClean (w : Work) (a : Nat) : Bool :=
  bits (w.le (a + 1) 1) 7 6 == 0 && bits (w.le (a + 2) 1) 7 3 == 0 && w.le (a + 3) 1 == 0 && bits (w.le (a + 4) 2) 15 12 == 0 && w.le (a + 6) 2 == 0 &&
    w.le (a + 14) 2 == 0 && w.le (a + 17) 3 == 0 && bits (w.le (a + 20) 4) 31 15 == 0 && w.le (a + 30) 2 == 0 && w.le (a + 156) 36 == 0

/-- Every resource that a placement names is bound to its partition. -/
def Work.placed (w : Work) (x : Ctx) : Bool :=
  let own := fun k n m => (setBitsOf n m).all fun i => w.owner k i == some x.part
  own kCG 256 x.groups && own kSEQ 64 x.seqs && own kHWK 128 x.hwks && own kSKP 512 x.skps && own kTSL 32 x.tsls

/-- CTX_CREATE. R76, R323, R324. -/
def execCtxCreate (q : Issue) (s : State) : Host.Outcome State Fault Refusal :=
  .next (s.run fun w => w.spwCommand q 0xA0 (fun c => c.addrOk 0) fun c w =>
    let a := c.arg64 0
    if a % 64 ≠ 0 ∨ !w.t1Populated a 192 then w.reply c .bound
    else
      let w := w.readLines a 192
      let id := w.le a 1
      let x := w.ctxDesc a
      let dies := x.places
      let n := dies.length
      let save := n * x.saveSz * 2 ^ 20
      let spill := n * x.spillSz * 1024
      w.checked c [
        (!w.placed x || x.saveA % 4096 != 0 || x.spillA % 4096 != 0 || !w.inT1 x.part x.saveA save || !w.inT1 x.part x.spillA spill, .bound),
        (w.poisoned a 192, .poison),
        (!w.ctxClean a || x.cls == 3 || x.groups == 0 || x.seqs == 0 || decide (180 < x.saveSz) || decide (x.spillSz < 64) ||
          decide (16384 < x.spillSz), .unknown),
        ((w.ctx id).state != .none, .state),
        ((w.dev.ctxs.any fun e => e.2.state != .none && e.2.skps &&& x.skps != 0) || w.zeroingIn x.saveA save || w.zeroingIn x.spillA spill, .busy),
        (dies.any fun d => decide (x.saveSz * 2 ^ 20 < groupState * x.groupsOn d) || (x.cls == 0 && decide (8 < x.groupsOn d)), .capacity)] fun w =>
        let map := (List.range 16).map fun k => dies.getD k 16
        ((w.modCtx id fun _ => x).modCfg id fun _ => { ({} : CfgCtx) with dieMap := map }).reply c .done)

/-- CTX_START. R324. -/
def execCtxStart (q : Issue) (s : State) : Host.Outcome State Fault Refusal :=
  .next (s.run fun w => w.spwCommand q 0xA1 (fun c => c.arg 0 < 256) fun c w =>
    w.checked c [((w.ctx (c.arg 0)).state != .created, .state)] fun w =>
      ((w.modCtx (c.arg 0) fun x => { x with state := .ready }).schedule none).reply c .done)

/-- CTX_END. R324, R370: the teardown begins; the command completes with it. -/
def execCtxEnd (q : Issue) (s : State) : Host.Outcome State Fault Refusal :=
  .next (s.run fun w => w.spwCommand q 0xA2 (fun c => c.arg 0 < 256) fun c w =>
    let id := c.arg 0
    w.checked c [((w.ctx id).state == .none || (w.ctx id).state == .ending, .state)] fun w =>
      (((w.accept c).beginTeardown id 4 0 c.page).modCtx id fun x => { x with endPage := c.page + 1 }).schedule none)

/-- CTX_DEADLINE. R324, R329. -/
def execCtxDeadline (q : Issue) (s : State) : Host.Outcome State Fault Refusal :=
  .next (s.run fun w => w.spwCommand q 0xA3 (fun c => c.arg 0 < 256) fun c w =>
    w.checked c [((w.ctx (c.arg 0)).state == .none, .state)] fun w =>
      ((w.modCtx (c.arg 0) fun x => { x with deadline := BitVec.ofNat 64 (c.arg64 1) }).schedule none).reply c .done)

/-- The code of a context state (Table 18.7). -/
def CtxState.code : CtxState → Nat
  | .none => 0 | .created => 1 | .ready => 2 | .restoring => 3 | .running => 4 | .saving => 5 | .saved => 6 | .ending => 7

/-- CTX_QUERY. R324. -/
def execCtxQuery (q : Issue) (s : State) : Host.Outcome State Fault Refusal :=
  .next (s.run fun w => w.spwCommand q 0xA4 (fun c => c.arg 0 < 256) fun c w =>
    let x := w.ctx (c.arg 0)
    let w := w.setArg c.page 1 (setBits (c.arg 1) 2 0 x.state.code)
    ((w.setArg c.page 2 (x.effective % 2 ^ 32)).setArg c.page 3 (x.effective / 2 ^ 32)).reply c .done)

/-! ### The schedule (R327, R331, R333) -/

/-- A window entry (Table 18.8). -/
def Work.winAt (w : Work) (a : Nat) : Win := { len := w.le a 4 % 2 ^ 20, grant := w.le (a + 8) 24 }

/-- SPW_LOAD. R326, R327. NWIN of 0 or beyond 256 is UNKNOWN, judged with the entries (DESIGN CHOICE, log entry 72). -/
def execSpwLoad (q : Issue) (s : State) : Host.Outcome State Fault Refusal :=
  .next (s.run fun w => w.spwCommand q 0xA8 (fun c => c.addrOk 0 && decide (c.arg 2 < 512)) fun c w =>
    let a := c.arg64 0
    let n := c.arg 2
    let l := (List.range n).map fun i => w.winAt (a + 32 * i)
    let ok := a % 32 == 0 && w.t1Populated a (32 * n)
    let bad := w.poisoned a (32 * n)
    (if ok then w.readLines a (32 * n) else w).checked c [
      (!ok, .bound), (bad, .poison),
      (n == 0 || decide (256 < n) || (List.range n).any fun i => bits (w.le (a + 32 * i) 4) 31 20 != 0 || w.le (a + 32 * i + 4) 4 != 0, .unknown),
      ((l.any fun x => decide (x.len < 10) || decide (10 ^ 6 < x.len)) || decide (10 ^ 6 < (l.map (·.len)).sum), .shape)] fun w =>
      ((w.spw fun s => { s with shadowBank := l, shadowFull := true }).spwSet R.SPW_STS_PENDLOAD 1).reply c .done)

/-- The shadow bank takes effect. -/
def Work.takeBank (w : Work) : Work :=
  if w.dev.spw.shadowFull then
    (w.spw fun s => { s with bank := s.shadowBank, shadowBank := [], shadowFull := false }).spwSet R.SPW_STS_PENDLOAD 0
  else w

/-- SPW_START. R327. -/
def execSpwStart (q : Issue) (s : State) : Host.Outcome State Fault Refusal :=
  .next (s.run fun w => w.spwCommand q 0xA9 (fun _ => true) fun c w =>
    let s := w.dev.spw
    let t0 := c.arg64 0
    w.checked c [(s.running || (s.bank.isEmpty && !s.shadowFull), .state), (decide (t0 < w.now + 100000), .shape)] fun w =>
      (w.takeBank.spw fun s => { s with running := true, started := false, stopReq := false, t0 := t0, win := 0, lead := false }).reply c .done)

/-- SPW_STOP. R327: the frame ends at its next boundary, and the command with it. -/
def execSpwStop (q : Issue) (s : State) : Host.Outcome State Fault Refusal :=
  .next (s.run fun w => w.spwCommand q 0xAA (fun _ => true) fun c w =>
    w.checked c [(!w.dev.spw.running, .state)] fun w => (w.accept c).spw fun s => { s with stopReq := true, stopPage := c.page + 1 })

/-- TEN_WEIGHT. R327. -/
def execTenWeight (q : Issue) (s : State) : Host.Outcome State Fault Refusal :=
  .next (s.run fun w => w.spwCommand q 0xAB (fun c => c.arg 0 < 4096 && c.arg 1 < 65536) fun c w =>
    (w.spw fun s => { s with weights := SMap.put 256 s.weights (c.arg 0) (max 1 (c.arg 1)) }).reply c .done)

/-- The replica takes over (R333). -/
def Work.takeover (w : Work) : Work :=
  let w := w.spw fun s => { s with standbyActs := true, primaryLost := false }
  let p := spwPage true
  ((w.set p R.SPW_STS_ACTING 1).count p 7 1).raise p 18

/-- A window starts: shown, counted, and a scheduling point. -/
def Work.windowStarts (start win : Nat) (w : Work) : Work :=
  let w := w.spw fun s => { s with started := true, frameStart := start, win := win, lead := false }
  let w := (w.spwSet R.SPW_STS_WINDOW win).spwSet R.SPW_STS_FRAME 1
  let w := (w.spwSet R.SPW_FRAME_LO_FS_LO start).spwSet R.SPW_FRAME_HI_FS_HI (start / 2 ^ 32)
  (w.count w.spwActing 0 1).schedule none

/-- The frame ends for good: every class is granted again. -/
def Work.frameEnds (w : Work) : Work :=
  let p := w.dev.spw.stopPage
  let w := w.spw fun s => { s with running := false, started := false, stopReq := false, stopPage := 0, lead := false, win := 0 }
  let w := ((w.spwSet R.SPW_STS_WINDOW 0).spwSet R.SPW_STS_FRAME 0).schedule none
  if p = 0 then w else w.complete (p - 1) .done

/-- SPW_WINDOW_START. R327, R328: the next window starts; at the end of the frame the next frame does, or the frame ends for good. -/
def execSpwWindowStart (s : State) : Host.Outcome State Fault Refusal :=
  .next (s.run fun w =>
    let s := w.dev.spw
    if !s.running ∨ w.now < s.nextStart then w
    else
      let w := if s.primaryLost then w.takeover else w
      if !s.started then (if s.stopReq then w.frameEnds else w.windowStarts s.t0 0)
      else if s.win + 1 < s.bank.length then w.windowStarts s.frameStart (s.win + 1)
      else if s.stopReq then w.frameEnds
      else w.takeBank.windowStarts s.nextStart 0)

/-- SPW_LEAD_POINT. R331: pre-emption begins for the class-0 contexts of the next window; a lead below the bound of their dies is noted. -/
def execSpwLeadPoint (s : State) : Host.Outcome State Fault Refusal :=
  .next (s.run fun w =>
    let s := w.dev.spw
    let p := w.spwActing
    let lead := w.get p R.SPW_LEAD_LEAD
    if !s.running ∨ s.lead ∨ w.now + lead < s.nextStart then w
    else match s.nextWin with
      | none => w
      | some v =>
        let cs := w.dev.ctxs.filter fun e => e.2.cls == 0 && grantBit v e.2.part 0 &&
          (match e.2.state with | .ready => true | .restoring => true | .running => true | .saving => true | .saved => true | _ => false)
        let bound := (cs.flatMap fun e => e.2.places).foldl (fun m d => max m (1000 * w.get (pwrPage d) R.PWR_PREEMPT_BOUND_BOUND)) 0
        let w := if lead < bound then (w.count p 4 1).raise p 16 else w
        (w.spw fun s => { s with lead := true }).schedule none)

/-- SPW_TURN_END. R329: the turn of a class-2 context is over; it goes on with a new one unless a waiting context takes its place. -/
def execSpwTurnEnd (ctx : Nat) (s : State) : Host.Outcome State Fault Refusal :=
  .next (s.run fun w =>
    let x := w.ctx ctx
    if x.cls ≠ 2 ∨ x.state ≠ .running ∨ w.now < x.runSince.toNat + x.turnLeft then w
    else
      let w := (w.count w.spwActing 6 1).spw fun s => { s with turnAt := SMap.put 0 s.turnAt x.part ((x.tenant + 1) % 4096) }
      let w := (w.modCtx ctx fun x => { x with turnLeft := 0, runSince := BitVec.ofNat 64 w.now }).schedule (some ctx)
      if (w.ctx ctx).state = .running then w.beginTurn ctx else w.modCtx ctx fun x => { x with turnLeft := 0 })

/-- SPW_HEARTBEAT_LOSS. R333: 5 µs without the primary; with no frame running the replica takes over at once. -/
def execSpwHeartbeatLoss (s : State) : Host.Outcome State Fault Refusal :=
  .next (s.run fun w =>
    if w.dev.spw.standbyActs then w
    else
      let w := w.spw fun s => { s with primaryLost := true }
      if w.dev.spw.running then w else w.takeover)

/-- SPW_TAKEOVER. R333: at the window boundary. -/
def execSpwTakeover (s : State) : Host.Outcome State Fault Refusal :=
  .next (s.run fun w =>
    let s := w.dev.spw
    if s.primaryLost ∧ (!s.running ∨ s.nextStart ≤ w.now) then w.takeover else w)

end Sys2Proof.Machine
end

