-- ==== Sys2Proof/Machine/Commit.lean ====
section
/-!
DEFINITION. Commit.lean: step commit, its publication, abandonment, contained faults and teardown (R291, R365–R371, R377).
-/
namespace Sys2Proof.Machine

/-! ### Waiting (R366) -/

/-- Another commit or abandonment of the context is outstanding on one of its SEQ pages. -/
def Work.commitBusy (w : Work) (c : Nat) : Bool :=
  (w.seqPages c).any fun p => match (w.page p).outst with | some o => o.code == 0x3E || o.code == 0x3F | none => false

/-- Requests of the context's formed batch. -/
def Work.batchReqs (w : Work) (c : Nat) : List Nat := (w.batch c).ents.map (·.1)

/-- A context's commits are mirrored (R376). -/
def Work.mirrors (w : Work) (c : Nat) : Bool := w.get (rqtPage 0) (R.RQT_MIRTGT_MEN.i (w.ctx c).part) == 1

/-- Conditions of Table 21.2 other than MIRROR that are not met, as bits [7:1] of SEQ_CMTSTS counted from 0. -/
def Work.waitOther (w : Work) (c : Nat) : Nat :=
  let b := fun (x : Bool) n => if x then 2 ^ n else 0
  b (w.hasTasks c) 0 + b ((w.dev.hwk.lists.any fun e => e.2.any fun l => l.ctx == c) || (w.dev.tsl.any fun e => e.2.any fun l => l.ctx == c)) 1 +
    b (w.dev.exr.routes.any fun e => e.2.any fun r => r.ctx == c) 2 + b (!(w.collPages c).isEmpty) 3 +
    b ((w.batchReqs c).any fun rq => (w.tab rq).reg && (w.tab rq).oldOpen) 4 + b (w.pfDue c 255).isSome 6

/-- MIRROR: a mirror write that has not been accepted, or records not yet sent. -/
def Work.waitMirror (w : Work) (c : Nat) (m : Commit) : Bool :=
  (w.mirrors c && !m.recordsSent) || w.dev.gyl.pend.any fun t => t.ctx == c && t.kind == 2

/-- WAITFOR of a context's SEQ_CMTSTS. -/
def Work.waitFor (w : Work) (c : Nat) : Nat :=
  match (w.ctx c).commit with
  | some m => if m.stamp.isSome then 0 else w.waitOther c + if w.waitMirror c m then 32 else 0
  | none => 0

def stepCommitSpec : CmdSpec := { types := [4], code := 0x3E, states := [.running], resv := fun c => c.addrOk 0 && c.addrOk 2 }

/-- STEP_COMMIT. R366: the commit waits; what the prefetch engines still owe is a stall. -/
def execStepCommit (q : Issue) (s : State) : Host.Outcome State Fault Refusal :=
  .next (s.run fun w => w.command q stepCommitSpec fun c w =>
    let x := (w.page c.page).ctx.getD 0
    w.checked c [(w.commitBusy x, .busy)] fun w =>
      let w := (w.accept c).modCtx x fun y =>
        { y with commit := some { page := c.page, batch := c.arg64 0, outBase := c.arg64 2, recordsSent := false, stamp := none } }
      if (w.pfDue x 255).isSome then w.pfStall x 1 255 else w)

/-! ### What a commit makes of a request (R288, R289, R291) -/

/-- An entry of the batch array as the commit reads it: request, KIND, NPOS, ACC, OK, NEMIT, and its number in the array. -/
structure CommitEnt where
  rq : Nat
  kind : Nat
  npos : Nat
  acc : Nat
  ok : Bool
  nemit : Nat
  ix : Nat

/-- The entries of a context's commit, in ascending request index: those of requests of the batch that SRV_FORM formed (log entry 75). -/
def Work.commitEnts (w : Work) (c : Nat) (m : Commit) : List CommitEnt :=
  let n := if m.batch = 0 then 0 else min 2048 (w.le m.batch 4)
  let l := (List.range n).map fun b =>
    let e := w.batchEnt m.batch b
    let v := w.le (m.batch + 16 + 16 * b + 12) 4
    ({ rq := e.1, kind := e.2.1, npos := e.2.2, acc := bits v 6 0, ok := bit v 7, nemit := min 64 (bits v 15 8), ix := b } : CommitEnt)
  let l := l.filter fun e => w.ctxReq c e.rq && (w.batchReqs c).contains e.rq
  l.foldl (fun a e => a.filter (fun y => decide (y.rq < e.rq)) ++ [e] ++ a.filter (fun y => decide (e.rq < y.rq))) []

/-- Bytes that the commit reads of an entry's output record. -/
def CommitEnt.area (e : CommitEnt) (out : Nat) : Nat × Nat := (out + recSize * e.ix + 68096, if e.ok then 8 * e.nemit else 0)

/-- What a commit makes of a request: its entry as published; whether its table's edits are; its token slots as (word 0, LOGP, POS); prompt positions;
events as (code, status). -/
structure ReqCommit where
  rq : Nat
  entry : Req
  publishes : Bool
  toks : List (Nat × Nat × Nat)
  nprompt : Nat
  events : List (Nat × Nat)

/-- Accepted draft tokens among the slots. -/
def ReqCommit.drafts (r : ReqCommit) : Nat := (r.toks.filter fun t => bit t.1 25).length

/-- The outcome of an entry: ABORTED by CANCEL or by a failed sample, nothing, or its positions and tokens (R276, R289, R291, R294). -/
def Work.reqCommit (w : Work) (c out : Nat) (e : CommitEnt) : ReqCommit :=
  let r := w.req e.rq
  let aborted := fun st => ({ rq := e.rq, entry := { r with state := 7, cancelling := false, pausing := false }, publishes := false, toks := []
                              nprompt := 0, events := [(4, st)] } : ReqCommit)
  if r.cancelling then aborted 0
  else if (w.batch c).failed.contains e.rq && !e.ok then aborted 0x20
  else if !e.ok then { rq := e.rq, entry := r, publishes := false, toks := [], nprompt := 0, events := [] }
  else
    let a := (e.area out).1
    let base := if e.kind = 0 then r.prompt else r.clen + 1
    let toks := (List.range e.nemit).map fun i =>
      let v := w.le (a + 8 * i) 8
      (bits v 30 0, bits v 47 32, base + i)
    let clen := r.clen + if e.kind = 0 then e.npos else e.acc
    let done := match toks.getLast? with | some t => bit t.1 24 | none => false
    let st := if done then 6 else if clen < r.prompt then 2 else if r.spec = 0 then 3 else 4
    let r := { r with clen := clen, state := st }
    let r := match toks.getLast? with | some t => { r with pending := t.1 % 2 ^ 24, pvalid := true } | none => r
    let paused := r.pausing && !done
    let r := if paused then { r with prior := st, state := 5 } else r
    { rq := e.rq, entry := { r with pausing := false }, publishes := true, toks := toks, nprompt := if e.kind = 0 then e.npos else 0
      events := (if done then [(3, 0)] else []) ++ if paused then [(5, 0)] else [] }

/-- Token slots as words (R282). -/
def tokWords (stamp : Nat) (t : Nat × Nat × Nat) : List Word :=
  [BitVec.ofNat 32 t.1, BitVec.ofNat 32 t.2.1, BitVec.ofNat 32 stamp, BitVec.ofNat 32 t.2.2]

/-! ### Mirroring (R377) -/

/-- A piece of a table written to the same place on the cache package. -/
def Work.mirrorPut (c page a : Nat) (data : List Byte) (w : Work) : Work :=
  let part := (w.ctx c).part
  let (st, w) := w.writeTo { tag := 0, page := page, ctx := c, kind := 2, dst := 0 } part (w.get (rqtPage 0) (R.RQT_MIRTGT_MPKG.i part)) a data false
  if st = .done then w else w.ctxFault c page 0xC4 none

/-- The table of a request: header and logged rows to both banks, GEN last. -/
def Work.mirrorTable (c page rq : Nat) (w : Work) : Work :=
  let t := w.tab rq
  if !t.reg then w
  else
    let b := t.shadow
    let bank := w.rdN (t.addr + 32 + 32 * b) 32
    let rows := ((t.admLog ++ t.log).filter (· < 8192)).eraseDups
    let n := 8 * w.tPlanes t
    let w := w.mirrorPut c page (t.addr + 4) (w.rdN (t.addr + 4) 28 ++ bank ++ bank ++ w.rdN (t.addr + 96) 32)
    let w := rows.foldl (fun (w : Work) i =>
      let data := w.rdN (w.tRowAt t b i) n
      (w.mirrorPut c page (w.tRowAt t 0 i) data).mirrorPut c page (w.tRowAt t 1 i) data) w
    w.mirrorPut c page t.addr (natLE 4 (t.gen + 1))

/-- COMMIT_MIRROR_RECORDS. R377: once nothing but MIRROR is waited for. The stamp in the slots of a record is not taken yet: word 2 is a free value. -/
def execCommitMirrorRecords (ctx : Nat) (s : State) : Host.Outcome State Fault Refusal :=
  .next (s.run fun w =>
    let x := w.ctx ctx
    match x.commit with
    | none => w
    | some m =>
      if x.state ≠ .running ∨ m.stamp.isSome ∨ m.recordsSent ∨ !w.mirrors ctx ∨ w.waitOther ctx ≠ 0 then w
      else
        let w := w.modCtx ctx fun y => { y with commit := some { m with recordsSent := true } }
        ((w.commitEnts ctx m).map (w.reqCommit ctx m.outBase)).foldl (fun (w : Work) r =>
          let w := if r.publishes then w.mirrorTable ctx m.page r.rq else w
          let (v, w) := w.fresh
          if r.publishes || !r.events.isEmpty then w.mirrorRecord m.page ctx r.rq r.entry (r.toks.map (tokWords v.toNat)) else w) w)

/-! ### The decision (R367) -/

/-- What a commit reads lies outside the context's granules; or is poisoned. -/
def Work.commitBound (w : Work) (c : Nat) (m : Commit) : Bool :=
  let part := (w.ctx c).part
  m.batch != 0 && (!w.inT1 part m.batch 16 || decide (w.le m.batch 4 > 2048) || !w.inT1 part m.batch (16 + 16 * w.le m.batch 4) ||
    (w.commitEnts c m).any fun e => (e.area m.outBase).2 != 0 && !w.inT1 part (e.area m.outBase).1 (e.area m.outBase).2)
def Work.commitPoison (w : Work) (c : Nat) (m : Commit) : Bool :=
  m.batch != 0 && (w.poisoned m.batch (16 + 16 * w.le m.batch 4) ||
    (w.commitEnts c m).any fun e => w.poisoned (e.area m.outBase).1 (e.area m.outBase).2)

/-- One request taken into the committed state at the stamp; what is still to be written for it. -/
def Work.settleReq (r : ReqCommit) (w : Work) : PubReq × Work :=
  let old := w.req r.rq
  let late := r.publishes && old.deadline != 0 && decide (old.deadline ≤ w.now) && !old.missed
  let w := if r.publishes then (if (w.tab r.rq).reg then w.publishTab r.rq else w) else w.abandonTab r.rq
  let w := (w.modReq r.rq fun _ => { r.entry with missed := old.missed || late }).showUsed r.rq
  let w := (w.count (rqHub r.rq) 3 r.toks.length).count (rqHub r.rq) 6 r.drafts
  let w := if late then (w.count (rqHub r.rq) 7 1).raise (rqHub r.rq) 17 else w
  let w := if r.publishes then w.charge old.tenant r.toks.length r.nprompt else w
  let ev := fun (code st : Nat) => eventWords code r.rq st r.entry.state r.entry.usertag r.entry.clen w.now
  -- what waited for a commit that leaves the request as it was takes effect too
  let w := if r.publishes || !r.events.isEmpty then w.answerHold r.rq else w.heldActs r.rq
  ({ rq := r.rq, slots := r.toks.map (tokWords w.now), events := r.events.map (fun e => ev e.1 e.2) ++ if late then [ev 7 0] else [] }, w)

/-- The stamp of a commit (R367, R291, R269, R302, R328): every request of the batch, the expert loops, the rings and the opens at once; publication is
left to TOKEN_PUBLISH. Slots of a commit stamped while the host's link is down are lost (R398). -/
def Work.takeStamp (c : Nat) (m : Commit) (w : Work) : Work :=
  let rs := (w.commitEnts c m).map (w.reqCommit c m.outBase)
  let resv := (w.batch c).resv
  let (pubs, w) := rs.foldl (fun (acc : List PubReq × Work) r => let (p, w) := acc.2.settleReq r; (acc.1 ++ [p], w)) ([], w)
  let pub : Publication := { stamp := w.now, reqs := pubs, resv := resv, ntok := (rs.map fun r => r.toks.length).sum, nprompt := (rs.map (·.nprompt)).sum
                             lost := !w.dev.host.link }
  let w := w.serve fun y => { y with batches := SMap.drop y.batches c, publish := SMap.put none y.publish c (some pub) }
  let w := (pubs.map fun p => p.rq / 2048).eraseDups.foldl (fun (w : Work) h => w.set (trgPage h) R.TRG_STS_WRITING 1) w
  let w := ((w.biasLoop c).stepRings c).releaseOpens c
  let w := w.modCtx c fun x => { x with commit := some { m with stamp := some w.now }, stalls := 0 }
  let w := w.fab fun f => { f with stalls := f.stalls.filter fun e => e.1 % 256 != c }
  let w := (w.seqPages c).foldl (fun (w : Work) p => w.endStall p 1) w
  let w := match rs.find? (·.publishes) with | some r => w.ringNotice c r.entry.clen | none => w
  (w.pfRelease c).schedule (some c)

/-- Rank 0 of a Ringlet whose step has run commits only after the group's barrier has ended with AND = 1 (R228). -/
def Work.barrierOwed (w : Work) (c : Nat) : Bool :=
  match w.anchorOf c with
  | some p => let g := w.rgroup p; g.rank == 0 && g.owed && (w.rstate p == 1 || w.rstate p == 2)
  | none => false

/-- What the commit reads before its stamp: the batch array and the outputs of its entries (R367). -/
def Work.readBatch (c : Nat) (m : Commit) (w : Work) : Work :=
  if m.batch = 0 then w
  else (w.commitEnts c m).foldl (fun (w : Work) e => w.readLines (e.area m.outBase).1 (e.area m.outBase).2) (w.readLines m.batch (16 + 16 * w.le m.batch 4))

/-- COMMIT_STAMP. R367: with every condition met, the commit fails, or takes its stamp. What its prefetch wait ends at the limit or later has come too late
(R166). -/
def execCommitStamp (ctx : Nat) (s : State) : Host.Outcome State Fault Refusal :=
  .next (s.run fun w =>
    let x := w.ctx ctx
    match x.commit with
    | none => w
    | some m =>
      if x.state ≠ .running ∨ w.fatal ∨ m.stamp.isSome ∨ w.waitFor ctx ≠ 0 ∨ w.barrierOwed ctx then w
      else match w.lateStall ctx 1 with
      | some (p, t) => w.stallOut p ctx t
      | none =>
        -- FAULT is logged as the final status (R39), and after it the fault itself
        let fail := fun code => (w.failCommit ctx).ctxFault ctx m.page code none
        if w.commitBound ctx m then fail 0xC1
        else if w.commitPoison ctx m then ((w.readBatch ctx m).failCommit ctx).ctxFault ctx m.page 0xC0 none
        else if (w.commitEnts ctx m).any fun e => (w.reqCommit ctx m.outBase e).publishes && (w.tab e.rq).reg && (w.tab e.rq).gen == 2 ^ 32 - 1 then
          fail 0x18
        else (w.readBatch ctx m).takeStamp ctx m)

/-! ### Publication (R291) -/

/-- A token slot written, word 0 last (R278, R282). The device writes only a slot of its own for which the head has made room; a token that finds none is not
written (DESIGN CHOICE, log entry 126). -/
def Work.writeTok (part ring : Nat) (l : List Word) (w : Work) : Work :=
  let r := w.tokRing ring
  let a := w.winBase part + r.off + r.next % 2 ^ r.lg * 16
  let room := (r.head + 8192 - r.next) % 8192
  let bytes := wordBytes l
  if 1 ≤ room ∧ room ≤ 2 ^ r.lg ∧ w.slotOurs a then
    ((w.post part (a + 4) (bytes.drop 4)).post part a (bytes.take 4)).modRingTok ring fun r => { r with next := (r.next + 1) % 8192 }
  else w

/-- The token slots and events of one request written: slots in ascending POS, then the events. -/
def Work.writeReq (part : Nat) (p : PubReq) (w : Work) : Work :=
  let ring := (w.req p.rq).ring
  let w := (if w.winOn part && (w.tokRing ring).isSet then p.slots else []).foldl (fun (w : Work) l => w.writeTok part ring l) w
  let w := (w.count (trgHub p.rq) 2 p.slots.length).count (trgHub p.rq) 4 (16 * p.slots.length)
  p.events.foldl (fun (w : Work) e => if w.winOn part then w.writeEvent part e else w) w

/-- The publication of a commit ends (R291, R367). -/
def Work.publishOut (ctx : Nat) (w : Work) : Work :=
  match SMap.at none w.dev.serve.publish ctx, (w.ctx ctx).commit with
  | some p, some m =>
    let part := (w.ctx ctx).part
    let up := w.dev.host.link
    let w := w.host fun h => { h with link := up && !p.lost }
    let w := (p.reqs.foldl (fun (w : Work) r => w.writeReq part r) w).host fun h => { h with link := up }
    let w := (w.modHwin part fun x => { x with resv := x.resv - p.resv }).showWin part
    let w := (p.reqs.map fun r => r.rq / 2048).eraseDups.foldl (fun (w : Work) h => w.set (trgPage h) R.TRG_STS_WRITING 0) w
    let w := w.serve fun y => { y with publish := SMap.drop y.publish ctx }
    let w := w.modCtx ctx fun x => { x with commit := none, step := x.step + 1, cmtStamp := BitVec.ofNat 64 p.stamp }
    let w := w.drainOwed part (w.hwin part).owed.length
    (w.atHome m.page ctx fun w => w.complete m.page .done).trace p.stamp ctx 0 p.reqs.length p.ntok p.nprompt
  | _, _ => w

/-- TOKEN_PUBLISH. R291, R367: SEQ_STEP and SEQ_CMTSTAMP follow the publication, and STEP_COMMIT completes DONE. -/
def execTokenPublish (ctx : Nat) (s : State) : Host.Outcome State Fault Refusal := .next (s.run (Work.publishOut ctx))

/-! ### Abandonment and faults (R369–R371) -/

def stepAbandonSpec : CmdSpec := { types := [4], code := 0x3F, states := [.running] }

/-- STEP_ABANDON. R369, R366: in a ring the member abandons (R229). -/
def execStepAbandon (q : Issue) (s : State) : Host.Outcome State Fault Refusal :=
  .next (s.run fun w => w.command q stepAbandonSpec fun c w =>
    let x := (w.page c.page).ctx.getD 0
    w.checked c [(w.commitBusy x, .busy)] fun w =>
      let w := w.accept c
      let w := match w.anchorOf x with
        | some p => if w.rstate p = 2 then w.memberAbandons p 0x59 else w.stepAbandoned x
        | none => w.stepAbandoned x
      w.settle c.page .done)

/-- CONTAINED_FAULT. R370; code 0xC2 CTL_UNC fences the block (R372). -/
def execContainedFault (ctx page code detail : Nat) (s : State) : Host.Outcome State Fault Refusal :=
  .next (s.run fun w =>
    if (w.ctx ctx).state = .none ∨ (w.ctx ctx).state = .ending then w
    else
      let w := w.ctxFault ctx page (code % 256) (some detail)
      if code % 256 = 0xC2 ∧ (w.page page).state ≠ .off then w.toState page .fenced else w)

/-- Registers in which a page records its last failure. Like the error log (R390) they outlast the teardown that the failure brings (log entry 87). -/
def recordWords (p : Nat) : List Nat :=
  match typeOf p with
  | 2 => [R.MC_SCRSTS_LINE.off / 4]
  | 4 => [R.SEQ_PFERR_INDEX.off / 4, R.SEQ_PFTAG_TAG.off / 4, R.SEQ_COLLSTS_PC.off / 4]
  | 5 => [R.HWK_LFAIL_FAILJOB.off / 4]
  | 6 => [R.SKP_LASTFAIL_STATUS.off / 4, R.SKP_LASTTAG_TAG.off / 4]
  | 0x12 => [R.TSL_LFAIL_FAILJOB.off / 4]
  | _ => []

/-- Fields of a page's registers that software does not write go back to their reset values, bounds of the die apart. -/
def Work.clearStatus (p : Nat) (w : Work) : Work :=
  let keep := keptWords p ++ recordWords p
  (w.dev.regs.range (p * 1024) (p * 1024 + 1024)).foldl (fun (w : Work) e =>
    let n := e.1 % 1024
    if keep.contains n then w
    else match specAt p n with
      | none => w
      | some r =>
        let v := r.flds.foldl (fun v f =>
          if f.acc = .rw ∨ f.acc = .rwq then setBits v f.hi f.lo (bits e.2.toNat f.hi f.lo) else v) (resetWord p n).toNat
        w.setReg p n (BitVec.ofNat 32 v)) w

/-- A cell and its switch cleared (R82, R132): slots EMPTY, queues and steering empty, memories zero, windows closed, pairs disabled. An open window closes as a
forced close (R138); one that still closes ends timed out, and shows it (log entry 87). -/
def Work.clearCell (d site : Nat) (w : Work) : Work :=
  let p := cellPage d site
  if isMc site then
    let w := (List.range 16).foldl (fun (w : Work) n => if w.winState p n = 1 then w.closeWin p n else w) w
    let w := (List.range 16).foldl (fun (w : Work) n => if w.winState p n = 2 then w.winClosed p n true else w) w
    let late := (List.range 16).filter fun n => w.get p (R.MC_WCFG_TIMEDOUT.i n) == 1
    late.foldl (fun (w : Work) n => w.set p (R.MC_WCFG_TIMEDOUT.i n) 1) (((w.voidSite (siteKey d site)).wipeCell p).clearStatus p)
  else ((w.voidSite (siteKey d site)).wipeCell p).clearStatus p

/-- What a page that is not a cell keeps of a context, gone. -/
def Work.clearUnit (p : Nat) (w : Work) : Work :=
  let w := w.d fun d => { d with
    tiers := { d.tiers with rings := SMap.drop d.tiers.rings p, stalls := SMap.drop d.tiers.stalls p }
    hwk := { d.hwk with engs := if typeOf p = 5 then SMap.drop d.hwk.engs (engKey (dieOf p) (blockOf p).2) else d.hwk.engs, lists := SMap.drop d.hwk.lists p }
    rlt := { d.rlt with groups := SMap.drop d.rlt.groups p }
    tsl := SMap.drop d.tsl p
    coll := SMap.drop d.coll p
    skp := SMap.mod {} d.skp p fun g => { g with deque := [] } }
  let c := (w.page p).ctx
  -- a task of another context in hand runs on (R243)
  let w := match (w.skp p).run with
    | some r => if c = some r.task.ctx then w.letGo p else w
    | none => w
  if typeOf p = 6 then (w.clearStatus p).showSkp p else w.clearStatus p

/-- The record of a context that is evicted is given up; accounts of its windows are told (R138, R370). -/
def Work.dropSave (c : Nat) (w : Work) : Work :=
  let accs := (w.save c).wins.flatMap fun e => e.2.accts.map (·.acc)
  let w := accs.foldl (fun (w : Work) a => w.credit 2 a 0) w
  (w.d fun d => { d with saves := SMap.drop d.saves c }).dropSaved c

/-- What the device keeps under a context's number, gone. -/
def Work.dropCtx (c : Nat) (w : Work) : Work :=
  let w := w.d fun d => { d with
    cfg := SMap.drop d.cfg c
    tiers := { d.tiers with phase := SMap.drop d.tiers.phase c, prevPhase := SMap.drop d.tiers.prevPhase c }
    fab := { d.fab with lastHs := d.fab.lastHs.filter fun e => e.1 % 256 != c, stalls := d.fab.stalls.filter fun e => e.1 % 256 != c }
    rlt := { d.rlt with merges := SMap.drop d.rlt.merges c, merging := SMap.drop d.rlt.merging c }
    exr := { d.exr with loops := SMap.drop d.exr.loops c }
    ctxs := SMap.drop d.ctxs c }
  w.dropSave c

/-- A window of the context's cells still waits for an account to confirm its close (R138, Table 21.3). -/
def Work.winsClosing (w : Work) (c : Nat) : Bool :=
  (w.ctxPages c).any fun p => typeOf p == 2 && (List.range 16).any fun n => w.winState p n == 2

/-- An event delivered by MSI-X alone (R370, R371). -/
def Work.raiseOut (p b : Nat) (w : Work) : Work :=
  let r := (w.page p).route
  ((w.modPage p fun g => { g with route := r &&& ~~~1 }).raise p b).modPage p fun g => { g with route := r }

/-- TEARDOWN_DONE. R370, R371, Table 21.3: the step is abandoned, outstanding commands end FAULT, cells and switches are cleared, blocks go to QUIESCED
and BOUND, and the context is NONE. It waits for a publication that is under way, and for windows that close. -/
def execTeardownDone (ctx : Nat) (s : State) : Host.Outcome State Fault Refusal :=
  .next (s.run fun w =>
    let x := w.ctx ctx
    if x.state ≠ .ending ∨ (SMap.at none w.dev.serve.publish ctx).isSome ∨ w.winsClosing ctx then w
    else
      let (code, t, i, d, cause, stamp) := x.fault.getD (0, 0, 0, 0, 0, w.now)
      let w := (((w.ringDrop ctx).abandonStep ctx .fault).gylDrop ctx).dropMover ctx
      let pages := w.ctxPages ctx
      let w := (pages ++ SMap.keys (w.save ctx).pages).foldl (fun (w : Work) p =>
        w.atHome p ctx fun w => if (w.page p).outst.isSome then w.complete p .fault else w) w
      let w := ((x.cells.filter fun e => w.siteCtx e.1 e.2 == some ctx)).foldl (fun (w : Work) e => w.clearCell e.1 e.2) w
      let w := pages.foldl (fun (w : Work) p => if typeOf p = 1 ∨ typeOf p = 2 then w else w.clearUnit p) w
      let w := pages.foldl (fun (w : Work) p =>
        let w := if (w.page p).state = .quiescing then w.toState p .quiesced else w
        let w := if (w.page p).state = .fenced then w else w.toState p .bound
        w.modPage p fun g => { g with owner := ownerWord g.part none }) w
      let w := pages.foldl (fun (w : Work) p => if typeOf p = 4 then w.publishSeq p else w) w
      let w := (SMap.keys w.dev.rem.waits).foldl (fun (w : Work) d => w.retryWrites d) w
      let w := w.trace w.now ctx 3 0 0 0
      let end_ := x.endPage
      let w := w.dropCtx ctx
      let p := spwPage false
      let w := (((w.set p (R.SPW_CTXFAULT_CODE.i ctx) code).set p (R.SPW_CTXFAULT_TYPE.i ctx) t).set p (R.SPW_CTXFAULT_INSTANCE.i ctx) i)
      let w := ((w.set p (R.SPW_CTXFAULT_DIE.i ctx) d).set p (R.SPW_CTXFAULT_CAUSE.i ctx) cause).set p (R.SPW_CTXFSTAMP_STAMP_LO.i ctx) (stamp % 2 ^ 32)
      let w := (setBitsOf 64 x.seqs).foldl (fun (w : Work) n => w.raiseOut (seqPage (n / 4) (n % 4)) 25) w
      let w := if end_ = 0 then w else w.complete (end_ - 1) .done
      w.schedule none)

end Sys2Proof.Machine
end

