-- ==== Sys2Proof/Machine/Binding.lean ====
section
/-!
DEFINITION. Binding.lean: the binding table: re-binding, its checks and its stamp, zeroisation, the function-level reset of a virtual function
(R316–R322, R334).
-/
namespace Sys2Proof.Machine

/-! ### Resources (Table 18.1) -/

/-- Indices of a kind; none for a reserved kind. -/
def Work.kindRange (w : Work) (k : Nat) : Option Nat :=
  match k with
  | 1 => some 256 | 2 => some 64 | 3 => some 128 | 4 => some 512 | 5 => some 32 | 6 => some 960 | 7 => some w.t2Cap
  | 8 => some 512 | 9 => some 128 | 10 => some 128 | 11 => some 1 | _ => none

/-- The block pages of a resource. -/
def resPages (kind ix : Nat) : List Nat :=
  match kind with
  | 1 => (groupSites (2 ^ (ix % 16))).flatMap fun s => [cellPage (ix / 16) s, swtPage (ix / 16) s]
  | 2 => [seqPage (ix / 4) (ix % 4)]
  | 3 => [hwkPage (ix / 8) (ix % 8)]
  | 4 => [skpPage (ix / 32) (ix % 32)]
  | 5 => [tslPage (ix / 8) (ix % 8)]
  | _ => []

/-- The resource lies in a placement. -/
def Ctx.has (x : Ctx) (kind ix : Nat) : Bool :=
  match kind with
  | 1 => bit x.groups ix
  | 2 => bit x.seqs ix
  | 3 => bit x.hwks ix
  | 4 => bit x.skps ix
  | 5 => bit x.tsls ix
  | _ => false

/-- Contexts of partition `part` whose placement holds a resource. -/
def Work.holders (w : Work) (part kind ix : Nat) : List Nat :=
  w.dev.ctxs.filterMap fun e => if e.2.state != .none && e.2.part == part && e.2.has kind ix then some e.1 else none

/-! ### Binding entries (R317) -/

/-- A binding entry (Table 18.2) as its 64 bits. -/
structure BindEntry where
  x : Nat

def BindEntry.kind (e : BindEntry) : Nat := bits e.x 3 0
def BindEntry.rel (e : BindEntry) : Bool := bit e.x 4
def BindEntry.part (e : BindEntry) : Nat := bits e.x 10 5
def BindEntry.role (e : BindEntry) : Nat := bits e.x 12 11
def BindEntry.first (e : BindEntry) : Nat := bits e.x 27 16
def BindEntry.count (e : BindEntry) : Nat := bits e.x 43 32

/-- An entry that R318 calls UNKNOWN by itself. -/
def BindEntry.bad (e : BindEntry) : Bool :=
  bits e.x 15 13 != 0 || bits e.x 31 28 != 0 || bits e.x 63 44 != 0 || e.kind == 0 || decide (11 < e.kind) || e.count == 0 ||
    (if e.kind = 11 then e.count != 1 || e.rel || e.role == 3 else e.role != 0) || (e.rel && e.part != 0)

/-- Two entries name one resource, or the role of one partition. -/
def BindEntry.twice (a b : BindEntry) : Bool :=
  a.kind == b.kind && (if a.kind = 11 then a.part == b.part else overlaps a.first a.count b.first b.count)

def anyTwice : List BindEntry → Bool
  | [] => false
  | e :: l => l.any e.twice || anyTwice l

/-- A binding of a resource: kind, index, and the partition + 1 that gets it, 0 for none. -/
structure Rebind where
  kind : Nat
  ix : Nat
  owner1 : Nat
deriving DecidableEq, Repr

/-- What an entry asks for, resource by resource, where the owner changes. -/
def Work.changes (w : Work) (es : List BindEntry) : List Rebind :=
  (es.filter fun e => e.kind != 11).flatMap fun e =>
    let owner1 := if e.rel then 0 else e.part + 1
    ((List.range e.count).map fun i => (⟨e.kind, e.first + i, owner1⟩ : Rebind)).filter fun r => SMap.at 0 w.dev.bnd.owner (r.kind * 4096 + r.ix) != owner1

/-! ### The checks of BND_COMMIT (R318) -/

/-- Memory that a model entry takes in tier 1 (R314). -/
def Work.modelAreas (w : Work) : List (Nat × Nat) :=
  (w.dev.mdl.models.filter fun e => e.2.state != 0).flatMap fun e =>
    let n := (span e.2.layers).1 + (span e.2.layers).2
    [(e.2.area, n), (e.2.map, 16 * e.2.nlayer)] ++ (if e.2.free = 0 then [] else [(e.2.free, n)]) ++
      match e.2.repl with
      | some r => if r.area = 0 then [] else [(r.area, match w.newShard e.2 r with | some x => x.1.2.1 | none => n)]
      | none => []

/-- A list, route or task of an engine is outstanding: its own, or one that names it (R214, R246, R257). -/
def Work.engineBusy (w : Work) (kind ix : Nat) : Bool :=
  match kind with
  | 2 => w.dev.exr.routes.any fun e => e.2.any fun r => r.page == seqPage (ix / 4) (ix % 4)
  | 3 => w.dev.hwk.lists.any fun e => match e.2 with
    | some l => e.1 == hwkPage (ix / 8) (ix % 8) || (dieOf e.1 == ix / 8 && bit l.mask (ix % 8))
    | none => false
  | 4 => let k := w.skp (skpPage (ix / 32) (ix % 32)); !k.deque.isEmpty || k.run.isSome
  | 5 => (w.tlist (tslPage (ix / 8) (ix % 8))).isSome
  | _ => false

/-- A resource that changes hands is held by something other than a context (R318). One that keeps its partition is not judged, since the entry changes nothing
for it (R317; DEDUCED, log entry 76). -/
def Work.heldRes (w : Work) (r : Rebind) : Bool :=
  let within := fun a n => overlaps (r.ix * gib) gib a n && decide (n ≠ 0)
  w.engineBusy r.kind r.ix ||
    w.ringBusy r.kind r.ix ||
    match r.kind with
    | 6 => w.modelAreas.any (fun e => within e.1 e.2) || (w.trOn && within w.trBase (32 * w.trSize)) ||
        (List.range 16).any fun t => w.regValid t && decide (w.regFirst t / gib ≤ r.ix) && decide (r.ix < w.regFirst t / gib + w.regGrans t)
    | 7 => match w.outCall ldr0 with
      | some c => c.code == 0x80 && within (c.arg64 2 - t2Base) (c.arg 4 * 4096)
      | none => false
    | 9 => w.dev.serve.reqs.any fun e => e.1 / 64 == r.ix && (e.2.state != 0 || e.2.held)
    | 10 => w.dev.serve.reqs.any fun e => e.2.state != 0 && e.2.ring / 64 == r.ix
    | _ => false

/-- A role change that R313 refuses. -/
def Work.roleRefused (w : Work) (part role : Nat) : Bool :=
  role != w.role part && w.dev.serve.reqs.any fun e => e.2.part == part &&
    (match role with
      | 0 => e.2.state == 3 || e.2.state == 4 || e.2.state == 5
      | 2 => e.2.state != 0
      | _ => false)

/-- The verdict on a commit, in the order of the table of R318. -/
def Work.bindFails (w : Work) (c : Call) : Option Status :=
  let a := c.arg64 0
  let n := bits (c.arg 2) 10 0
  let force := bit (c.arg 2) 16
  let es := (List.range (min n 1024)).map fun i => (⟨w.le (a + 8 * i) 8⟩ : BindEntry)
  let chs := w.changes es
  let pages := (es.filter fun e => e.kind != 11).flatMap fun e => (List.range e.count).flatMap fun i => resPages e.kind (e.first + i)
  firstFail [
    (a % 64 != 0 || !w.t1Populated a (8 * n) || es.any (fun e => match w.kindRange e.kind with
        | some r => decide (r < e.first + e.count) || (e.kind == 6 && !((List.range e.count).all fun i => w.t1Present (e.first + i)))
        | none => false), .bound),
    (w.poisoned a (8 * n), .poison),
    (n == 0 || decide (1024 < n) || es.any BindEntry.bad || anyTwice es, .unknown),
    (bit (c.arg 3) 22 && w.get (bndPage 0) (R.BND_EPOCH_EPOCH.i (bits (c.arg 3) 21 16)) != c.arg 3 % 65536, .epoch),
    (pages.any (fun p => (w.page p).bindLock) || chs.any w.heldRes || es.any (fun e => e.kind == 11 && w.roleRefused e.part e.role) ||
      (!force && chs.any fun r => match w.owner r.kind r.ix with | some p => !(w.holders p r.kind r.ix).isEmpty | none => false), .busy)]

def bndCommitSpec : CmdSpec :=
  { types := [0x18], code := 0x90, who := .priv
    resv := fun c => c.page == bndPage 0 && c.addrOk 0 && bits (c.arg 2) 15 11 == 0 && c.arg 2 < 2 ^ 17 && c.arg 3 < 2 ^ 23 }

/-- BND_COMMIT. R318, R319 step 1: judged at once; with FORCE the teardowns begin. -/
def execBndCommit (q : Issue) (s : State) : Host.Outcome State Fault Refusal :=
  .next (s.run fun w => w.command q bndCommitSpec fun c w =>
    let bad := w.bindFails c
    let n := 8 * bits (c.arg 2) 10 0
    let w := if w.t1Populated (c.arg64 0) n then (w.accept c).readLines (c.arg64 0) n else w.accept c
    match bad with
    | some st => (if st = .busy then w.count c.page 1 1 else w).settle c.page st
    | none =>
      let force := bit (c.arg 2) 16
      let es := (List.range (bits (c.arg 2) 10 0)).map fun i => (⟨w.le (c.arg64 0 + 8 * i) 8⟩ : BindEntry)
      let gone := ((w.changes es).flatMap fun r => match w.owner r.kind r.ix with | some p => w.holders p r.kind r.ix | none => []).eraseDups
      let bc : BndCommit := { page := c.page, entries := es.map fun e => (e.kind, e.rel, e.part, e.role, e.first, e.count), force := force }
      let w := (w.bnd fun b => { b with commit := some bc }).set c.page R.BND_STS_COMMITTING 1
      gone.foldl (fun (w : Work) x => ((if (w.ctx x).state = .ending then w else w.count c.page 3 1).beginTeardown x 2 0 c.page)) w)

/-! ### The commit stamp (R319, R320, R390) -/

/-- A block leaves its partition: cleared (R82, R132, R390) and IDLE; on a fenced die it stays FENCED (R374). -/
def Work.releasePage (p : Nat) (w : Work) : Work :=
  let w := if typeOf p = 1 ∨ typeOf p = 2 then w.clearCell (dieOf p) (siteOf p) else w.clearUnit p
  let w := w.d fun d => { d with ctrs := SMap.dropRange d.ctrs (p * 8) (p * 8 + 8) }
  let w := w.modPage p fun g => { g with owner := 0, log0 := 0, log1 := 0, log2 := 0, log3 := 0 }
  let st := (w.page p).state
  if st = .off ∨ w.fenced (dieOf p) then w else w.toState p .idle

/-- A block is assigned to a partition. -/
def Work.assignPage (p part : Nat) (w : Work) : Work :=
  let w := w.modPage p fun g => { g with owner := ownerWord (some part) none }
  if (w.page p).state = .idle then w.toState p .bound else w

/-- ZGRAN of the hubs: tier-1 granules on the hub of their quadrant, tier-2 granules on HD0. -/
def Work.showZeroing (w : Work) : Work :=
  (List.range 4).foldl (fun (w : Work) h =>
    w.set (bndPage h) R.BND_STS_ZGRAN (w.dev.bnd.zeroing.filter fun e => (if e.1 < 4096 then e.1 / 240 else 0) == h).length) w

/-- A granule leaves its partition: its bytes are zero from here on, and it is ZEROING until GRANULE_ZERO_DONE (log entry 40). -/
def Work.leaveGranule (tier2 : Bool) (g : Nat) (w : Work) : Work :=
  let w := w.zeroMem (if tier2 then t2Base + g * gib else g * gib) gib
  (w.bnd fun b => { b with zeroing := SMap.put false b.zeroing (g + if tier2 then 4096 else 0) true }).count (bndPage (if tier2 then 0 else g / 240)) 2 1

/-- One resource changes hands. -/
def Work.rebind (r : Rebind) (w : Work) : Work :=
  let old := w.owner r.kind r.ix
  let w := if old.isSome then
      let w := (resPages r.kind r.ix).foldl (fun (w : Work) p => w.releasePage p) w
      match r.kind with
      | 6 => w.leaveGranule false r.ix
      | 7 => w.leaveGranule true r.ix
      | 10 => w.serve fun y => { y with rings := SMap.dropRange y.rings (64 * r.ix) (64 * r.ix + 64) }
      | _ => w
    else w
  let w := w.bnd fun b => { b with owner := SMap.put 0 b.owner (r.kind * 4096 + r.ix) r.owner1 }
  if r.owner1 = 0 then w else (resPages r.kind r.ix).foldl (fun (w : Work) p => w.assignPage p (r.owner1 - 1)) w

/-- A list of changes and roles applied at one stamp: tables, owners, epochs, stamps on all four hubs, and the event of
the page that commits (log entry 89). -/
def Work.applyBinding (chs : List Rebind) (roles : List (Nat × Nat)) (w : Work) : Work :=
  let parts := (chs.flatMap fun r => (match w.owner r.kind r.ix with | some p => [p] | none => []) ++ if r.owner1 = 0 then [] else [r.owner1 - 1]).eraseDups
  let w := chs.foldl (fun (w : Work) r => w.rebind r) w
  let w := roles.foldl (fun (w : Work) r => w.bnd fun b => { b with role := SMap.put 1 b.role r.1 r.2 }) w
  let w := parts.foldl (fun (w : Work) p => w.set (bndPage 0) (R.BND_EPOCH_EPOCH.i p) ((w.get (bndPage 0) (R.BND_EPOCH_EPOCH.i p) + 1) % 65536)) w
  let w := (List.range 4).foldl (fun (w : Work) h => w.set64 (bndPage h) R.BND_LAST_LO_STAMP_LO w.now) w
  (((w.count (bndPage 0) 0 1).raise (bndPage 0) 16).showZeroing.rejudge).schedule none

/-- BND_COMMIT_STAMP. R319: once the contexts torn down are gone, every entry is applied and the commit completes. -/
def execBndCommitStamp (s : State) : Host.Outcome State Fault Refusal :=
  .next (s.run fun w =>
    match w.dev.bnd.commit with
    | none => w
    | some b =>
      let es := b.entries.map fun e =>
        (⟨e.1 + (if e.2.1 then 16 else 0) + e.2.2.1 * 2 ^ 5 + e.2.2.2.1 * 2 ^ 11 + e.2.2.2.2.1 * 2 ^ 16 + e.2.2.2.2.2 * 2 ^ 32⟩ : BindEntry)
      let chs := w.changes es
      if chs.any fun r => match w.owner r.kind r.ix with | some p => !(w.holders p r.kind r.ix).isEmpty | none => false then w
      else
        let w := w.applyBinding chs ((es.filter fun e => e.kind == 11).map fun e => (e.part, e.role))
        ((w.bnd fun x => { x with commit := none }).set b.page R.BND_STS_COMMITTING 0).complete b.page .done)

/-- A BAR4 access performed at a local address: a write is a line write, a read is completed, poisoned where a line is (R395). -/
def Work.bar4 (a : Nat) (wr : Bool) (data : List Byte) (w : Work) : Work :=
  if wr then w.store a data
  else
    let bad := w.poisoned a data.length
    let w := w.readLines a data.length
    w.send (.cpl (if bad then 1 else 0) (w.rdN a data.length))

/-- The BAR4 accesses that waited and need wait no longer (R320, R395). -/
def Work.bar4Go (w : Work) : Work :=
  let l := w.dev.host.bar4Wait
  let w := w.host fun h => { h with bar4Wait := [] }
  l.foldl (fun (w : Work) e =>
    if w.zeroingIn e.1 e.2.2.length then w.host fun h => { h with bar4Wait := h.bar4Wait ++ [e] } else w.bar4 e.1 e.2.1 e.2.2) w

/-- GRANULE_ZERO_DONE. R320: accesses that waited go on; EV_ZERO_DONE when the hub has no granule left. -/
def execGranuleZeroDone (tier gran : Nat) (s : State) : Host.Outcome State Fault Refusal :=
  .next (s.run fun w =>
    let tier2 := tier == 2
    if !(tier == 1 || tier2) || !w.zeroing tier2 gran then w
    else
      let h := if tier2 then 0 else gran / 240
      let w := (w.bnd fun b => { b with zeroing := SMap.put false b.zeroing (gran + if tier2 then 4096 else 0) false }).showZeroing
      let w := if w.get (bndPage h) R.BND_STS_ZGRAN = 0 then w.raise (bndPage h) 17 else w
      w.rejudge.bar4Go)

def bndQuerySpec : CmdSpec := { types := [0x18], code := 0x91, resv := fun c => bits (c.arg 0) 15 4 == 0 && c.arg 0 < 2 ^ 28 }

/-- BND_QUERY. R334: on any hub's page (log entry 76). -/
def execBndQuery (q : Issue) (s : State) : Host.Outcome State Fault Refusal :=
  .next (s.run fun w => w.command q bndQuerySpec fun c w =>
    let k := bits (c.arg 0) 3 0
    let i := bits (c.arg 0) 27 16
    w.checked c [((w.kindRange k).isNone, .unknown), (decide ((w.kindRange k).getD 0 ≤ i), .bound)] fun w =>
      let v := (match w.owner k i with | some p => p + 64 | none => 0) + if (k == 6 && w.zeroing false i) || (k == 7 && w.zeroing true i) then 128 else 0
      (w.setArg c.page 1 (setBits (c.arg 1) 7 0 v)).reply c .done)

/-! ### Function-level reset of a virtual function (R322) -/

/-- A request made FREE without an event: its table is given up with it, what admission put into the shadow before any generation of it was
published included. -/
def Work.flushReq (rq : Nat) (w : Work) : Work :=
  let w := w.abandonTab rq
  let t := w.tab rq
  let w := if t.reg then t.oldRel.foldl (fun (w : Work) r => w.freeRef r) (w.dropTable rq (if t.admLog.isEmpty then t.gen % 2 else t.shadow)) else w
  (w.modReq rq fun _ => {}).showUsed rq

/-- A function-level reset of partition `p` (R322): teardowns, requests FREE without events, the window off, the tier-3 slices invalid; bindings
stay. A commit that has its stamp publishes in full before (R396). -/
def Work.flrPart (p : Nat) (w : Work) : Work :=
  let cs := w.dev.ctxs.filterMap fun e => if e.2.part = p ∧ e.2.state ≠ .none then some e.1 else none
  let w := cs.foldl (fun (w : Work) c => (w.publishOut c).beginTeardown c 3 0 (bndPage 0)) w
  let rqs := w.dev.serve.reqs.filterMap fun e => if e.2.part = p ∧ (e.2.state ≠ 0 ∨ e.2.held) then some e.1 else none
  let w := rqs.foldl (fun (w : Work) rq => w.flushReq rq) w
  let w := (w.set dbPage (R.DB_WINCFG_ENABLE.i p) 0).modHwin p fun x => { x with owed := [] }
  (List.range 128).foldl (fun (w : Work) i =>
    if w.get (xltPage 0) (R.XLT_T3MAP_LO_PARTITION.i i) = p then w.set (xltPage 0) (R.XLT_T3MAP_LO_VALID.i i) 0 else w) w

/-- VF_FLR. R322. -/
def execVfFlr (vf : Nat) (s : State) : Host.Outcome State Fault Refusal :=
  .next (s.run fun w => if vf = 0 ∨ w.get pciPage R.PCI_NUMVF_NUMVF < vf then w else w.flrPart (vf - 1))

end Sys2Proof.Machine
end

