-- ==== Sys2Proof/Machine/Recovery.lean ====
section
/-!
DEFINITION. Recovery.lean: die fencing and the spare commit (R373, R374), package-fatal errors (R375, R399), in-package links that fail (R13), and the
adoption of mirrored requests (R378).
-/
namespace Sys2Proof.Machine

/-! ### Die fencing (R373) -/

/-- A task of context `c` lies on a Skipper of die `d`, or a task of one of its Hawkmoth lists on an engine there. -/
def Work.tasksOn (w : Work) (d c : Nat) : Bool :=
  ((List.range 32).any fun i =>
    let k := w.skp (skpPage d i)
    k.deque.any (fun t => t.ctx == c) || match k.run with | some r => r.task.ctx == c | none => false) ||
  ((List.range 8).any fun i =>
    let e := SMap.at {} w.dev.hwk.engs (d * 8 + i)
    let mine := fun (t : HwkTask) => match SMap.at none w.dev.hwk.lists t.page with | some l => l.ctx == c | none => false
    e.deque.any mine || match e.cur with | some r => mine r.task | none => false)

/-- A context with a resource on die `d`, or with work there. -/
def Work.touches (w : Work) (d c : Nat) : Bool :=
  let x := w.ctx c
  x.state != .none && (bits x.groups (16 * d + 15) (16 * d) != 0 || bits x.seqs (4 * d + 3) (4 * d) != 0 || bits x.hwks (8 * d + 7) (8 * d) != 0 ||
    bits x.skps (32 * d + 31) (32 * d) != 0 || w.tasksOn d c)

/-- A compute die becomes DIE_FATAL (R373): every block FENCED, the cause logged on its PWR page, the contexts torn down, the spare commit due. -/
def Work.dieFence (d : Nat) (w : Work) : Work :=
  if 16 ≤ d ∨ w.fenced d ∨ !w.dieOn d then w
  else
    let w := (List.range 0x255).foldl (fun (w : Work) i =>
      let p := pg d i
      if typeOf p = 0 ∨ (w.page p).state = .off then w else w.toState p .fenced) w
    let w := w.flt fun f => { f with fencedDies := SMap.put false f.fencedDies d true }
    let w := (w.logOpen (pwrPage d) none none 0xC3 0).raise (pwrPage d) 16
    let w := ((SMap.keys w.dev.ctxs).filter (w.touches d)).foldl (fun (w : Work) c => w.beginTeardown c 1 0xC3 (pwrPage d)) w
    w.bnd fun b => { b with spareDue := b.spareDue ++ [d] }

/-- VCORE_OUT_OF_RANGE. R373, R422. -/
def execVcoreOutOfRange (die : Nat) (s : State) : Host.Outcome State Fault Refusal := .next (s.run fun w => w.dieFence die)

/-- DIE_OVERTEMP. R373: 110 °C is code 440. -/
def execDieOvertemp (die temp : Nat) (s : State) : Host.Outcome State Fault Refusal :=
  .next (s.run fun w =>
    let w := if w.rtmOn die then w.takeTemp die temp else w
    if toSigned 12 temp ≥ 440 then w.dieFence die else w)

/-- DIE_FATAL_UNC_ERROR. R373: the configuration path, save engine, deadlock detector, rate monitor or PWR block, all alike. -/
def execDieFatalUncError (die _unit : Nat) (s : State) : Host.Outcome State Fault Refusal := .next (s.run fun w => w.dieFence die)

/-! ### The spare commit (R374) -/

/-- Resources of a die by kind: those of index `n * d` to `n * d + n - 1`. -/
def dieRes (d : Nat) : List (Nat × List Nat) :=
  [(kCG, 16), (kSEQ, 4), (kHWK, 8), (kSKP, 32)].map fun e => (e.1, (List.range e.2).map fun i => e.2 * d + i)

/-- A resource may be taken as a spare: unbound, its blocks IDLE and not locked (log entry 78). -/
def Work.spareFree (w : Work) (kind ix : Nat) : Bool :=
  (w.owner kind ix).isNone && (resPages kind ix).all fun p => (w.page p).state == .idle && !(w.page p).bindLock

/-- The quadrants searched for cell groups: the die's own, then the others upwards. -/
def quadOrder (q : Nat) : List Nat := (List.range 4).map fun i => (q + i) % 4

/-- The changes of one partition's spare commit: releases first, then the resources bound in their place; and how many are cell groups. -/
def Work.spareChanges (w : Work) (d part : Nat) : List Rebind × Nat :=
  let mine := (dieRes d).map fun e => (e.1, e.2.filter fun i => w.owner e.1 i == some part)
  let room := w.get (bndPage 0) (R.BND_SPARE_ALLOW.i part) - w.get (bndPage 0) (R.BND_SPARE_USED.i part)
  let repl := mine.map fun e =>
    let per := match e.1 with | 1 => 64 | 2 => 16 | 3 => 32 | _ => 128
    let quads := if e.1 = kCG then quadOrder (d / 4) else [d / 4]
    let cand := (quads.flatMap fun q => (List.range per).map fun i => per * q + i).filter (w.spareFree e.1)
    (e.1, cand.take (if e.1 = kCG then min e.2.length room else e.2.length))
  (mine.flatMap (fun e => e.2.map fun i => (⟨e.1, i, 0⟩ : Rebind)) ++ repl.flatMap (fun e => e.2.map fun i => (⟨e.1, i, part + 1⟩ : Rebind)),
    ((repl.filter fun e => e.1 == kCG).flatMap (·.2)).length)

/-- One partition's spare commit. -/
def Work.spareFor (d part : Nat) (w : Work) : Work :=
  let (chs, n) := w.spareChanges d part
  if chs.isEmpty then w
  else
    let f := R.BND_SPARE_USED.i part
    let w := w.applyBinding chs []
    (w.set (bndPage 0) f (w.get (bndPage 0) f + n)).raise (bndPage 0) 18

/-- SPARE_COMMIT. R374, Table 21.7: die by die as they were fenced; once the contexts torn down with the die hold none of its resources, one commit for every
partition that does. -/
def execSpareCommit (die : Nat) (s : State) : Host.Outcome State Fault Refusal :=
  .next (s.run fun w =>
    if w.dev.bnd.spareDue.head? ≠ some die ∨ (SMap.keys w.dev.ctxs).any (fun c => (w.ctx c).state == .ending && w.touches die c) then w
    else
      let w := w.bnd fun b => { b with spareDue := b.spareDue.drop 1 }
      (List.range 64).foldl (fun (w : Work) p => w.spareFor die p) w)

/-- BND_SPARE_WRITE. R381: ALLOW is written and USED cleared; HD0 alone has the register. -/
def execBndSpareWrite (by_ : Caller) (off : Nat) (v : Word) (s : State) : Host.Outcome State Fault Refusal :=
  .next (s.run fun w =>
    let i := (off % 4096 - 0x300) / 4
    if off / 4096 ≠ bndPage 0 ∨ off % 4096 < 0x300 ∨ 64 ≤ i ∨ off % 4 ≠ 0 then w
    else w.access by_ (bndPage 0) fun w =>
      (w.set (bndPage 0) (R.BND_SPARE_ALLOW.i i) (bits v.toNat 8 0)).set (bndPage 0) (R.BND_SPARE_USED.i i) 0)

/-! ### Package-fatal errors (R375, R399) -/

/-- The package becomes PKG_FATAL, before ready a failed start-up too (R411): the fatal stamp, FATAL_N, FATAL on every UP port and its end, FATAL and ERR_FATAL to the host. -/
def Work.pkgFatal (w : Work) : Work :=
  if w.fatal then w
  else
    let w := (w.flt fun f => { f with fatalStamp := some w.now }).pwr fun q => { q with fatalN := true }
    let w := (List.range 8).foldl (fun (w : Work) n => if w.lstate n = 2 then (w.send (.fatalCtl n)).linkOff n else w) w
    let w := (w.earlyFail.set pciPage R.PCI_STS_FATAL 1).raise pciPage 17
    if w.dev.host.fatalReporting then w.send .errFatal else w

/-- PKG_FATAL. R375: a hub error that no die fence covers, the loss of PD27, the failure of both KMCs. -/
def execPkgFatal (_cause : Nat) (s : State) : Host.Outcome State Fault Refusal := .next (s.run fun w => w.pkgFatal)

/-- STACK_LOSS. R148, R375: after start-up. -/
def execStackLoss (stack : Nat) (s : State) : Host.Outcome State Fault Refusal :=
  .next (s.run fun w =>
    if stack < 20 ∧ w.ready ∧ w.get (stackPage stack) R.MEM_STS_CHSTATE = 1 then
      ((w.set (stackPage stack) R.MEM_STS_CHSTATE 2).raise (stackPage stack) 17).pkgFatal
    else w)

/-- RAIL_OUT_OF_RANGE. R422: a VCORE_C rail fences its die; any other, after start-up, is package-fatal. -/
def execRailOutOfRange (rail : Nat) (s : State) : Host.Outcome State Fault Refusal :=
  .next (s.run fun w => if rail < 16 then w.dieFence rail else if rail < 28 ∧ w.ready then w.pkgFatal else w)

/-- PEER_FATAL. R375: FATAL arrives on a port. -/
def execPeerFatal (hub inst : Nat) (s : State) : Host.Outcome State Fault Refusal :=
  .next (s.run fun w => if hub < 4 ∧ inst < 2 ∧ w.lstate (2 * hub + inst) = 2 then w.raise (gylPage hub inst) 20 else w)

/-! ### In-package links (R13, R14) -/

/-- The DDL pages of both ends of a link. -/
def ddlEnds (d inst : Nat) : List Nat := ddlPage d inst :: match ddlPeer d inst with | some e => [ddlPage e.1 e.2] | none => []

/-- DDL_LANE_REPAIR. R13: a spare lane is taken into service at both ends. -/
def execDdlLaneRepair (die inst : Nat) (s : State) : Host.Outcome State Fault Refusal :=
  .next (s.run fun w =>
    let st := w.get (ddlPage die inst) R.DDL_STS_LSTATE
    if (ddlPeer die inst).isNone ∨ !(st = 1 ∨ st = 2) then w
    else (ddlEnds die inst).foldl (fun (w : Work) p =>
      (((w.set p R.DDL_STS_LSTATE 2).set p R.DDL_STS_SPARES (min 63 (w.get p R.DDL_STS_SPARES + 1))).count p 4 1).raise p 16) w)

/-- The number under which Campion knows a link's removal. -/
def ddlScope (d inst : Nat) : Nat := (ddlEnds d inst).foldl min (ddlPage d inst)

/-- A link is removed: both ends REMOVED with no bandwidth; without its hub link a compute die is fatal (R13). -/
def Work.removeLink (p : Nat) (w : Work) : Work :=
  let d := dieOf p
  let inst := (blockOf p).2
  let w := (ddlEnds d inst).foldl (fun (w : Work) p => ((w.set p R.DDL_STS_LSTATE 3).set p R.DDL_RATE_RATE 0).raise p 17) w
  if d < 16 ∧ inst = 0 then w.dieFence d else w

/-- DDL_LINK_REMOVE. R13: admitted by Campion, the link is removed; else the removal waits. -/
def execDdlLinkRemove (die inst : Nat) (s : State) : Host.Outcome State Fault Refusal :=
  .next (s.run fun w =>
    let sc := ddlScope die inst
    let st := w.get (ddlPage die inst) R.DDL_STS_LSTATE
    if (ddlPeer die inst).isNone ∨ !(st = 1 ∨ st = 2) ∨ w.dev.flt.pendingActs.any (fun a => a.act == 4 && a.scope == sc) then w
    else match w.request 4 sc 0 with
      | (true, w) => (w.removeLink sc).finishAct 4 sc
      | (false, w) => w)

/-! ### Adoption of mirrored requests (R378) -/

def rqtAdoptSpec : CmdSpec :=
  { types := [0x14], code := 0x73, who := .priv, resv := fun c => c.page == rqtPage 0 && c.arg 0 < 64 && c.arg 1 < 512 }

/-- The mirror record of a request index (Table 21.4). -/
def Work.mirrorAt (w : Work) (rq : Nat) : Nat :=
  let h := rqtPage (rq / 2048)
  w.get h R.RQT_MIRBASE_LO_MB_LO * 2048 + 2 ^ 32 * w.get h R.RQT_MIRBASE_HI_MB_HI + rq % 2048 * 2048

/-- The entry of a mirror record, bytes 0–63, under a new context; USERTAG is in no record and is a free value. -/
def Work.mirrorEntry (rq ctx : Nat) (w : Work) : Req × Work :=
  let a := w.mirrorAt rq
  let v := w.le a 4
  let (u, w) := w.fresh
  ({ reqOf (fun off n => w.le (a + off) n) with
      state := bits v 3 0, pclass := bits v 5 4, part := bits v 11 6, tenant := bits v 23 12, ctx := ctx, clen := w.le (a + 4) 4 % 2 ^ 25
      usertag := u.toNat }, w)

/-- The held requests of a partition. -/
def Work.heldReqs (w : Work) (p : Nat) : List Nat := w.dev.serve.reqs.filterMap fun e => if e.2.held && e.2.part == p then some e.1 else none

/-- The table of a held request as its record names it. -/
def Work.heldTab (w : Work) (p ctx rq : Nat) : Tab :=
  let a := w.le (w.mirrorAt rq + 16) 8 % 2 ^ 48
  { reg := true, addr := a, part := p, ctx := ctx, gen := w.le a 4 }

/-- A region has pages allocated. -/
def Work.regUsed (w : Work) (tag : Nat) : Bool :=
  w.dev.pool.refs.any fun e => decide (w.regFirst tag ≤ e.1 * 4096) && decide (e.1 * 4096 < w.regEnd tag)

/-- One use of a page counted. -/
def Work.useRef (r : PageRef) (w : Work) : Work := w.putRef r ((SMap.at (0, 0) w.dev.pool.refs (r.addr / 4096)).1 + 1) r.k

/-- The pages a table names: those of its published rows once a row, its staging pages. -/
def Work.countTab (t : Tab) (w : Work) : Work :=
  let b := t.gen % 2
  let w := (List.range (w.tRows t b)).foldl (fun (w : Work) i => (List.range (w.tPlanes t)).foldl (fun (w : Work) j =>
    w.useRef (entryRef (w.tEntry t b i j))) w) w
  (List.range (w.tPlanes t)).foldl (fun (w : Work) j => w.useRef ⟨w.tTag t j, w.tStage t j, w.tMaxk t⟩) w

/-- The free blocks that pages (address, class) in rising order leave of [a, e). -/
def gapsFree (ts e fuel : Nat) : Nat → List (Nat × Nat) → List (Nat × Nat)
  | a, [] => fillFree ts e fuel a
  | a, (p, k) :: l => fillFree ts p fuel a ++ gapsFree ts e fuel (p + 2 ^ (k + ts)) l

/-- The free list of a region rebuilt from the counts. -/
def Work.rebuildRegion (tag : Nat) (w : Work) : Work :=
  let used := (w.dev.pool.refs.filter fun e => decide (w.regFirst tag ≤ e.1 * 4096) && decide (e.1 * 4096 < w.regEnd tag)).map fun e => (e.1 * 4096, e.2.2)
  w.setRegion tag { free := gapsFree (w.tshift tag) (w.regEnd tag) (fillFuel (w.tshift tag) (w.regGrans tag)) (w.regLow tag) used, zeroing := [] }

/-- The token slots of a record written to the request's ring again. -/
def Work.reemit (p rq : Nat) (w : Work) : Work :=
  let a := w.mirrorAt rq
  let slots := (List.range (w.le (a + 64) 1 % 128)).map fun k => (List.range 4).map fun i => BitVec.ofNat 32 (w.le (a + 128 + 16 * k + 4 * i) 4)
  w.writeReq p { rq := rq, slots := slots, events := [] }

/-- RQT_ADOPT. R378. -/
def execRqtAdopt (q : Issue) (s : State) : Host.Outcome State Fault Refusal :=
  .next (s.run fun w => w.command q rqtAdoptSpec fun c w =>
    let p := c.arg 0
    let ctx := c.arg 1 % 256
    let rqs := w.heldReqs p
    let tags := (rqs.flatMap fun rq => w.tTags (w.heldTab p ctx rq)).eraseDups
    w.checked c [(w.role p == 2, .state), (tags.any fun t => !w.regValid t || w.regPart t != p || w.regUsed t, .busy)] fun w =>
      let w := w.accept c
      let w := rqs.foldl (fun (w : Work) rq =>
        let t := w.heldTab p ctx rq
        ((w.modTab rq fun _ => t).showTabs rq).countTab t) w
      let w := tags.foldl (fun (w : Work) t => w.rebuildRegion t) w
      let w := rqs.foldl (fun (w : Work) rq =>
        let (r, w) := w.mirrorEntry rq ctx
        (w.modReq rq fun _ => r).showUsed rq) w
      let w := if bit (c.arg 1) 8 then rqs.foldl (fun (w : Work) rq => w.reemit p rq) w else w
      w.settle c.page .done)

end Sys2Proof.Machine
end

