-- ==== Sys2Proof/Machine/Deadlock.lean ====
section
/-!
DEFINITION. Deadlock.lean: the deadlock detector and the spill of full banks (R83–R86), and a write of the fold schedule (R64).
-/
namespace Sys2Proof.Machine

/-! ### When a stall is declared (R83) -/

/-- The windows of a context do not run: its units do not, a slot is held, or a unit waits for something outside the fabric. -/
def Work.dldFrozen (w : Work) (c : Nat) : Bool :=
  (w.ctx c).state != .running ||
    (w.dev.pages.any fun e => e.2.ctx == some c && (e.2.state == .quiescing || e.2.state == .quiesced)) || (w.ctxSlots c 255).any (fun k => (w.slot k).hold) ||
    (w.dev.rem.sends.any fun e => e.2.any fun x => x.acc.ctx == c && !x.queue.isEmpty) ||
    ((w.seqPages c).any fun p => !(w.stallsOf p).isEmpty) || w.hasTasks c ||
    (w.dev.pages.any fun e => e.2.ctx == some c && match e.2.outst with | some o => external.contains o.code | none => false)

/-- A bank of the context on the die holds something. -/
def Work.dldBusy (w : Work) (d c : Nat) : Bool :=
  (w.ctxSlots c 255).any fun k => k / 2048 == d && ((w.slot k).banks.any (fun e => !e.2.isEmpty) || (w.slot k).spill.any fun e => !e.2.isEmpty)

/-! ### Wait-for edges (R84) -/

/-- A bank: the key of its slot × 16 + its number. -/
def bankKey (k b : Nat) : Nat := k * 16 + b

/-- The full banks for whose room a transfer waits that stands at input `src` of a switch: through switches, die edges and steering units. -/
def Work.blockedBanks (w : Work) (net slot : Nat) : Nat → Nat → Nat → Nat → List Nat
  | 0, _, _, _ => []
  | n + 1, d, site, src =>
    let t := w.site (siteKey d site)
    let wait := (t.selecting slot net src).filter fun o => !bit (SMap.at 0 t.given (stageKey slot net src)) o && !(t.staged (stageKey slot net o)).isEmpty
    wait.flatMap fun o =>
      if o < 4 then
        match beyond d site o with
        | some (nd, ns, _) => w.blockedBanks net slot n nd ns ((o + 2) % 4 + 1)
        | none => []
      else if o < 8 then
        let k := slotKey d site slot
        let b := net * 4 + (o - 4)
        if ((w.slot k).bank b).length ≥ bankCap net then [bankKey k b] else []
      else
        let (unit, which) := if net = 2 then (o - 8, 2) else (net, o - 8)
        if (t.held (steerKey slot unit which)).length < steerCap which then []
        else ([0, 1] : List Nat).flatMap fun i => if (t.sout (steerOutKey slot unit i)).isEmpty then [] else w.blockedBanks unit slot n d site (7 + i)

/-- The full banks that a slot of a cell waits for: it has its inputs and lacks room at an output. The fuel is as long as a way through every input of every
switch. -/
def Work.waitOf (w : Work) (d site slot : Nat) : List Nat :=
  let f := w.firing d site slot
  if !f.s.runs || f.isSkipz || !f.inReady || f.outReady then []
  else (List.range 6).flatMap fun o =>
    if bit (mOen f.m) o ∧ !(f.s.out o).isEmpty then w.blockedBanks (o / 2) slot 40960 d site (5 + o % 2) else []

/-- The full banks that the cell at a site waits for, in any slot of its fold schedule. -/
def Work.waitBanks (w : Work) (d site : Nat) : List Nat :=
  if !w.cellRuns d site then [] else (w.foldSlots (cellPage d site)).eraseDups.flatMap (w.waitOf d site)

/-- The site that consumes a bank. -/
def bankSite (b : Nat) : Nat := b / 128

/-- Edges of the waiting cells of a context: the site that waits and the bank it waits for. -/
def Work.waitEdges (w : Work) (c : Nat) : List (Nat × Nat) :=
  (w.ctxSites c).flatMap fun k => ((w.waitBanks (k / 256) (k % 256)).eraseDups).map fun b => (k, b)

/-- Sites reached from a set along the edges. -/
def reachSites (es : List (Nat × Nat)) : Nat → List Nat → List Nat
  | 0, l => l
  | n + 1, l => reachSites es n ((l ++ (es.filter fun e => l.contains e.1).map fun e => bankSite e.2).eraseDups)

/-- The full banks that lie on a cycle of the edges, in ascending order. -/
def cycleBanks (es : List (Nat × Nat)) : List Nat :=
  ((es.filter fun e => (reachSites es es.length [bankSite e.2]).contains e.1).map (·.2)).eraseDups.mergeSort (· ≤ ·)

/-! ### The stall (R84, R85) -/

/-- Spill space that a context takes on a die once a list of banks has been spilled. -/
def Work.spillAfter (w : Work) (d c : Nat) (banks : List Nat) : Nat :=
  banks.foldl (fun a b =>
    let s := w.slot (b / 16)
    let n := (s.spilled (b % 16)).length
    a + bankCharge (b % 16 / 4) (n + (s.bank (b % 16)).length) - bankCharge (b % 16 / 4) n) (w.spillUsed d c)

/-- The context is faulted by the detector of a die (R85). -/
def Work.dldFault (d c code : Nat) (w : Work) : Work := (((w.count (dldPage d) 3 1).raise (dldPage d) 17).ctxFault c (dldPage d) code none)

/-- DLD_STALL. R83–R85. -/
def execDldStall (die ctx : Nat) (s : State) : Host.Outcome State Fault Refusal :=
  .next (s.run fun w =>
    let p := dldPage die
    let key := die * 256 + ctx
    let window := max (w.get p R.DLD_WINDOW_WINDOW) (w.get p R.DLD_MINWIN_MINWIN)
    if 16 ≤ die ∨ (w.page p).state = .off ∨ w.dldFrozen ctx ∨ !w.dldBusy die ctx ∨ w.now < SMap.at 0 w.dev.fab.lastHs key + window then w
    else
      let w := (w.count p 0 1).set p R.DLD_STS_CONTEXT ctx
      let w := w.fab fun f => { f with lastHs := SMap.put 0 f.lastHs key w.now, stalls := SMap.mod 0 f.stalls key (· + 1) }
      let banks := cycleBanks (w.waitEdges ctx)
      let mine := fun d => (banks.filter fun b => b / 32768 == d).take 64
      if banks.isEmpty then w.dldFault die ctx 0x40
      else if SMap.at 0 w.dev.fab.stalls key > w.get p R.DLD_LIMIT_LIMIT then w.dldFault die ctx 0x41
      else if (List.range 16).any fun d => !(mine d).isEmpty && decide (w.spillRoom ctx < w.spillAfter d ctx (mine d)) then w.dldFault die ctx 0x42
      else (List.range 16).foldl (fun (w : Work) d =>
        if (mine d).isEmpty then w
        else w.fab fun f => { f with spilling := SMap.mod [] f.spilling d fun l => (l ++ mine d).eraseDups }) w)

/-- SPILL_COMPLETE. R84: every bank of the stall on the die is in the spill area; suspended while the context is (R84). -/
def execSpillComplete (die : Nat) (s : State) : Host.Outcome State Fault Refusal :=
  .next (s.run fun w =>
    let l := SMap.at [] w.dev.fab.spilling die
    if l.isEmpty ∨ l.any (fun b => !w.linkRuns die (b / 128 % 256)) then w
    else
      let w := l.foldl (fun (w : Work) b => w.spillBank die b) w
      (w.fab fun f => { f with spilling := SMap.drop f.spilling die }).raise (dldPage die) 16)

/-- BANK_REFILL. R84: the head of the spill area's entries for a bank goes back into it, in order. -/
def execBankRefill (die site slot net inp : Nat) (s : State) : Host.Outcome State Fault Refusal :=
  .next (s.run fun w =>
    let k := slotKey die site slot
    let b := net * 4 + inp
    match (w.slot k).spilled b with
    | x :: rest =>
      if 8 ≤ slot ∨ 3 ≤ net ∨ 4 ≤ inp ∨ !w.linkRuns die site ∨ bankCap net ≤ ((w.slot k).bank b).length ∨
          (SMap.at [] w.dev.fab.spilling die).contains (bankKey k b) then w
      else (w.modSlot k fun s => (s.setBank b (s.bank b ++ [x])).setSpill b rest).handshake die (w.siteCtx die site)
    | [] => w)

/-! ### The fold schedule written (R64, R65) -/

/-- CELL_FOLD_WRITE. R64: an RWQ write of CELL_FOLD or a CELL_FOLDENT; the fold position goes to entry 0 with a fresh count. -/
def execCellFoldWrite (by_ : Caller) (off : Nat) (v : Word) (s : State) : Host.Outcome State Fault Refusal :=
  .next (s.run fun w =>
    let p := off / 4096
    let r := off % 4096
    if !(typeOf p = 1 ∨ typeOf p = 2) ∨ r < 0x144 ∨ 0x168 ≤ r ∨ r % 4 ≠ 0 then w
    else w.access by_ p fun w =>
      let st := (w.page p).state
      if st ≠ .idle ∧ st ≠ .quiesced then w.dropWrite p (r / 4) v
      else
        let w := if r = 0x144 then (w.set p R.CELL_FOLD_NENT (min 8 (bits v.toNat 3 0))).set p R.CELL_FOLD_YIELD_BLOCK (bits v.toNat 4 4)
          else (w.set p (R.CELL_FOLDENT_SLOT.i ((r - 0x148) / 4)) (bits v.toNat 2 0)).set p (R.CELL_FOLDENT_FIRINGS.i ((r - 0x148) / 4)) (bits v.toNat 27 4)
        w.modSite (siteKey (dieOf p) (siteOf p)) fun t => { t with foldPos := 0, foldCount := 0 })

end Sys2Proof.Machine
end

