-- ==== Sys2Proof/Machine/Views.lean ====
section
/-!
DEFINITION. Views.lean: what a page reads as: the common registers (R29–R31), the block-specific registers, those computed from what the device holds
among them, and the latches of two-word values (R37).
-/
namespace Sys2Proof.Machine

/-! ### Common registers (Table 3.2) -/

/-- PAGE_CAP: command interface, snapshot shadow, NCOUNT; the rest is open. -/
def pageCap (p : Nat) : Nat :=
  let c := Config.pageCap (typeOf p)
  3 + bits c 3 2 * 4 + ncount p * 16 + bits c 31 16 * 2 ^ 16

/-- A cell has a firing to do: its current microinstruction can fire. -/
def Work.cellBusy (w : Work) (p : Nat) : Bool :=
  let d := dieOf p
  let site := siteOf p
  w.cellRuns d site && (w.firing d site (w.activeSlot p (w.site (siteKey d site)))).able

/-- A switch has a transfer, in its stages or its steering units. -/
def Work.switchBusy (w : Work) (p : Nat) : Bool :=
  let t := w.site (siteKey (dieOf p) (blockOf p).2)
  !t.stage.isEmpty || !t.steer.isEmpty || !t.steerOut.isEmpty

/-- BUSY: a command is outstanding, or the block has work in hand (R30). Which work counts on which block the manual does not say (DEDUCED, log entry 80). -/
def Work.pageBusy (w : Work) (p : Nat) : Bool :=
  (w.page p).outst.isSome ||
    match typeOf p with
    | 1 => w.cellBusy p
    | 2 => w.cellBusy p
    | 3 => w.switchBusy p
    | 4 => (w.ring p).runs.any (fun e => ((w.ring p).st e).st == 1) || (w.coll p).prog.isSome
    | 8 => !(SMap.at [] w.dev.fab.spilling (dieOf p)).isEmpty
    | 0x10 => w.dev.flt.running.any fun a => a.act == 1 && stackPage a.scope == p
    | 0x11 => w.dev.flt.running.any fun a => a.act == 2 && chanPage a.scope == p
    | 0x15 => w.get p R.TRG_STS_ACTIVE == 1 || w.get p R.TRG_STS_WRITING == 1
    | 0x16 => w.get p R.GYL_STS_LSTATE == 1
    | 0x18 => w.get p R.BND_STS_ZGRAN != 0
    | 0x20 => w.get p R.CMP_STS_RUNNING != 0
    | 0x21 => w.dev.pool.regions.any fun e => regPage e.1 == p && !e.2.zeroing.isEmpty
    | 5 => (w.hlist p).isSome || (w.eng (engKey (dieOf p) (blockOf p).2)).cur.isSome
    | 6 => !(w.skp p).deque.isEmpty || (w.skp p).run.isSome
    | 0x12 => (w.tlist p).isSome
    | 0x1F => !(w.routes (dieOf p - 16)).isEmpty
    | _ => false

/-- PAGE_STS. -/
def Work.pageSts (w : Work) (p : Nat) : Nat := (w.page p).state.code + if w.pageBusy p then 8 else 0

/-- PAGE_CTL as it reads (R30). -/
def Work.pageCtlWord (w : Work) (p : Nat) : Nat :=
  let g := w.page p
  (if g.state.enableBit then 1 else 0) + (if g.state.quiesceBit then 2 else 0) + if g.bindLock then 4 else 0

/-- PAGE_ID. -/
def pageId (p : Nat) : Nat := dieOf p + (blockOf p).2 * 256 + typeOf p * 2 ^ 16

/-! ### Block-specific registers -/

/-- The code of a slot state (Table 5.4). -/
def SlotState.code : SlotState → Nat
  | .empty => 0 | .staged => 1 | .live => 2 | .draining => 3 | .drained => 4 | .halted => 5

/-- Bits of a list of Booleans, the first lowest. -/
def bitsOf : List Bool → Nat
  | [] => 0
  | b :: l => (if b then 1 else 0) + 2 * bitsOf l

/-- CELL_EDGE as it reads (Table 6.10). -/
def Edge.word (e : Edge) : Nat :=
  let c := e.cur.getD ⟨0, 0, false, 0, 0⟩
  c.valid + c.tctr * 2 ^ 9 + (if c.ten then 2 ^ 12 else 0) + c.kind * 2 ^ 13 + c.lg * 2 ^ 15 + min 2 e.pend.length * 2 ^ 19 +
    if e.cur.isSome then 2 ^ 21 else 0

/-- A computed register of a cell's page at a word, if it is one (Table 4.11, R79). -/
def Work.cellView (w : Work) (p n : Nat) : Option Nat :=
  let d := dieOf p
  let site := siteOf p
  let t := w.site (siteKey d site)
  let slots := (List.range 8).map fun i => w.slot (slotKey d site i)
  let s := slots.getD (w.get p R.CELL_DBGSEL_DBGSEL) {}
  let o := 4 * n
  if o = 0x140 then
    let a := w.activeSlot p t
    let f := w.firing d site a
    some (a + f.s.pc * 8 + (if f.s.latch then 2 ^ 9 else 0) + (if (f.s.st = .live ∨ f.s.st = .draining) ∧ !f.able then 2 ^ 10 else 0) +
      ((w.siteCtx d site).elim 0 fun c => (w.ctx c).epoch.toNat) * 2 ^ 16)
  else if o = 0x168 then some (bitsOf (slots.map (·.st != .empty)) + bitsOf (slots.map (·.st == .halted)) * 256)
  else if o = 0x170 then some (if typeOf p = 1 then s.fmt else 0)
  else if o = 0x174 then some ((List.range 8).foldl (fun a i => a + (slots.getD i {}).st.code * 2 ^ (3 * i)) 0 + bitsOf (slots.map (·.hold)) * 2 ^ 24)
  else if 0x200 ≤ o ∧ o < 0x400 then some (SMap.at 0 s.mstore ((o - 0x200) / 8) / 2 ^ (32 * (n % 2)) % 2 ^ 32)
  else if 0x400 ≤ o ∧ o < 0x480 then
    let c := s.ctrs.getD ((o - 0x400) / 16) {}
    some (match o % 16 with | 0 => c.value | 4 => c.bound | 8 => c.stride | _ => c.cfg)
  else if 0x480 ≤ o ∧ o < 0x580 then some (SMap.at {} (slots.getD ((o - 0x480) / 32) {}).edges ((o - 0x480) / 4 % 8)).word
  else none

/-- SEQ_STALLNS of a cause: what is stored, and the time of the stalls that run; none runs while the context is held (R164, R167). -/
def Work.stallNs (w : Work) (p c cause : Nat) : Nat :=
  let t := (w.ctx c).stopAt
  let now := if t = 0 then w.now else t - 1
  (w.stallsOf p).foldl (fun a s => if s.cause = cause then a + (now - s.since) else a) (w.get64 p (R.SEQ_STALLNS_LO_NS_LO.i cause)) % 2 ^ 64

/-- A computed register of a SEQ page: what belongs to its context (R79, R119, R167, R381). -/
def Work.seqView (w : Work) (p n : Nat) : Option Nat :=
  match (w.page p).ctx with
  | none => none
  | some c =>
    let x := w.ctx c
    let g := w.cfg c
    let half := fun (v : DWord) => some (v.toNat / 2 ^ (32 * (n % 2)) % 2 ^ 32)
    if 0x328 ≤ 4 * n ∧ 4 * n < 0x370 then half (BitVec.ofNat 64 (w.stallNs p c ((4 * n - 0x320) / 8)))
    else match 4 * n with
    | 0x140 => some (x.epoch.toNat + (if g.drained then 2 ^ 8 else 0) + (if (w.ctxSlots c 255).any fun k => (w.slot k).hold then 2 ^ 9 else 0) +
        if w.cfgBusy c then 2 ^ 10 else 0)
    | 0x160 => half g.srNext
    | 0x164 => half g.srNext
    | 0x168 => half x.srKey
    | 0x16C => half x.srKey
    | 0x500 => half x.step
    | 0x504 => half x.step
    | 0x508 => half x.cmtStamp
    | 0x50C => half x.cmtStamp
    | 0x510 => some ((if x.commit.isSome then 1 else 0) + 2 * w.waitFor c)
    | _ => none

/-- A register of the SNP or TMB page of HD0 that every die shows (R392, R23). -/
def sharedWord (p n : Nat) : Nat := if typeOf p = 0x1D ∧ 0x154 ≤ 4 * n ∧ 4 * n ≤ 0x15C then snpPage 16 else p

/-- The route and steering words of a switch (Table 4.4). -/
def Work.switchView (w : Work) (p n : Nat) : Option Nat :=
  if 0x80 ≤ n ∧ n < 0xA0 then some ((w.site (siteKey (dieOf p) (blockOf p).2)).route ((n - 0x80) / 4) (n % 4)) else none

/-- A computed register. -/
def Work.view (w : Work) (p n : Nat) : Option Nat :=
  match typeOf p with
  | 1 => w.cellView p n
  | 2 => w.cellView p n
  | 3 => w.switchView p n
  | 4 => w.seqView p n
  | 8 => if 4 * n = 0x14C then
      some (setBits (w.reg p n).toNat 0 0 (if (SMap.at [] w.dev.fab.spilling (dieOf p)).isEmpty then 0 else 1)) else none
  | 0x1C => if 4 * n = 0x140 then some (w.now % 2 ^ 32) else if 4 * n = 0x144 then some (w.now / 2 ^ 32 % 2 ^ 32)
    else if 4 * n = 0x148 ∧ p = tmb ∧ w.get tmb R.TMB_CTL_MASTER = 1 ∧ w.dev.time.counting then some (setBits (w.reg p n).toNat 1 1 1) else none
  | _ => none

/-- Write-only fields read zero (R6). -/
def maskWo (p n : Nat) (v : Nat) : Nat :=
  match specAt p n with
  | some r => r.flds.foldl (fun v f => if f.acc = .wo then setBits v f.hi f.lo 0 else v) v
  | none => v

/-- A block-specific register as it reads. -/
def Work.blockReg (w : Work) (p n : Nat) : Word :=
  let q := sharedWord p n
  BitVec.ofNat 32 ((w.view q n).getD (maskWo q n (w.reg q n).toNat))

/-! ### The snapshot shadow (R386) -/

/-- The device that a latch has kept, to be looked at. -/
def Work.frozenWork (w : Work) (f : Frozen) : Work := { w with dev := f.dev, now := f.stamp }

/-- Word n of the shadow of a page; zero before the first latch, of absent pages, and of pages whose domain was off (R31, R385). -/
def Work.shadowWord (w : Work) (p n : Nat) : Word :=
  match w.shadow with
  | none => 0
  | some f =>
    let z := w.frozenWork f
    if !z.live p then 0
    else match n with
    | 0 => BitVec.ofNat 32 f.stamp
    | 1 => BitVec.ofNat 32 (f.stamp / 2 ^ 32)
    | 2 => BitVec.ofNat 32 (f.seqno + f.source * 2 ^ 16)
    | 3 => BitVec.ofNat 32 (z.pageSts p % 2 ^ 16 + (z.page p).evt.toNat % 2 ^ 16 * 2 ^ 16)
    | _ => z.blockReg p (0x50 + (n - 4))

/-! ### Reads -/

/-- Byte offsets of the low words of two-word values that a read latches (R37). -/
def latchLow (p o : Nat) : Bool :=
  if 0x80 ≤ o ∧ o < 0x100 then o % 8 == 0
  else match typeOf p with
    | 2 => decide (0x640 ≤ o) && decide (o < 0x840) && o % 32 == 0x10
    | 4 => (decide (0x320 ≤ o) && decide (o < 0x370) && o % 8 == 0) || o == 0x410 || o == 0x500 || o == 0x508
    | 0x12 => o == 0x148
    | 0x18 => o == 0x144
    | 0x19 => o == 0x148
    | 0x1C => o == 0x140
    | 0x1D => o == 0x158
    | _ => false

/-- A counter as it reads: CNT_IDLE_NS of a Skipper goes on while it is idle (R246). -/
def Work.ctrView (w : Work) (p i : Nat) : Nat :=
  let from_ := (w.skp p).idleFrom
  (w.ctr p i).toNat + if typeOf p = 6 ∧ i = 6 ∧ from_ ≠ 0 then w.now + 1 - from_ else 0

/-- A word of a page whose domain is on, latches apart. -/
def Work.pageWord (w : Work) (p n : Nat) : Word :=
  let g := w.page p
  let o := 4 * n
  let v := fun (x : Nat) => BitVec.ofNat 32 x
  if 0x40 ≤ o ∧ o < 0x80 then w.shadowWord p ((o - 0x40) / 4)
  else if 0x80 ≤ o ∧ o < 0x100 then
    (if (o - 0x80) / 8 < ncount p then v (w.ctrView p ((o - 0x80) / 8) / 2 ^ (32 * (n % 2))) else 0)
  else if 0x104 ≤ o ∧ o ≤ 0x130 then g.args.getD ((o - 0x104) / 4) 0
  else if 0x140 ≤ o then w.blockReg p n
  else match o with
  | 0x00 => v (pageId p)
  | 0x04 => 0x00010001#32
  | 0x08 => v (pageCap p)
  | 0x0C => v (w.pageCtlWord p)
  | 0x10 => v (w.pageSts p)
  | 0x14 => g.evt
  | 0x18 => g.evten
  | 0x1C => g.route
  | 0x20 => g.owner
  | 0x24 => g.log0
  | 0x28 => g.log1
  | 0x2C => g.log2
  | 0x30 => g.log3
  | 0x134 => g.cmdSts
  | 0x138 => g.tag
  | _ => 0

/-- A requester of R37: each PCIe function, the acting KMC, each sequencer core. -/
def requester : Caller → Nat
  | .pf => 0
  | .vf n => n
  | .kmc => 100
  | .seq d i => 101 + 4 * d + i

/-- What a read may see of a page (R31, R46, R397, R399). -/
def Work.readable_ (w : Work) (by_ : Caller) (p n : Nat) : Bool :=
  let early := p == pciPage || p == kmcPage false || p == snpPage 16 || p == pwrPage 16
  let fatalOk := p == pciPage || typeOf p == 0x1B || p == snpPage 16 || (decide (9 ≤ n) && decide (n ≤ 12))
  let host := (w.ready || early) && (!w.fatal || fatalOk)
  match by_ with
  | .pf => host
  | .vf f => host && ((f != 0 && (w.page p).part == some (f - 1)) || typeOf p == 0x1C || typeOf p == 9 || typeOf p == 0x1B)
  | _ => true

/-- Where BAR0 ends and the model numbers the offsets of BAR2 on (log entry 115). -/
def bar2Base : Nat := 2 ^ 28

/-- What an offset of a function's BAR2 names (R283): the block of doorbells, and the offset in it. -/
def bar2 (by_ : Caller) (off : Nat) : Option (Nat × Nat) :=
  let x := off - bar2Base
  match by_ with
  | .pf => if x < 2048 then some (x / 32, x % 32) else none
  | .vf n => if n ≠ 0 ∧ x < 32 then some (n - 1, x) else none
  | _ => none

/-- A read of BAR2 (R283). -/
def Work.readBar2 (w : Work) (by_ : Caller) (off : Nat) : Word :=
  match bar2 by_ off with
  | some (part, o) =>
    let there := match by_ with | .vf n => decide (n ≤ w.get pciPage R.PCI_NUMVF_NUMVF) | _ => true
    if there && w.ready && !w.fatal && w.dieOn (dieOf dbPage) then w.pageWord dbPage ((0x800 + 32 * part + o) / 4) else 0
  | none => 0

/-- A read of the register at a register-space offset, or of BAR2: the data, and the latch it sets; before READY one of BAR2 is an Unsupported Request
(R31, R37, R43, R283, R397). -/
def Work.readReg (by_ : Caller) (off : Nat) (w : Work) : Word × Work :=
  if bar2Base ≤ off then (w.readBar2 by_ off, if w.ready ∨ (bar2 by_ off).isNone then w else w.send (.cpl 2 []))
  else
  let p := off / 4096
  let o := off % 4096
  let n := o / 4
  if typeOf p = 0 ∨ !w.readable_ by_ p n then (0, w)
  else if !w.dieOn (dieOf p) then (if n ≤ 2 then w.pageWord p n else 0, w)
  else
    let key := fun (m : Nat) => (requester by_ * 2 ^ 16 + p) * 1024 + m
    if latchLow p o then (w.pageWord p n, w.d fun d => { d with latches := SMap.put 0 d.latches (key (n + 1)) (w.pageWord p (n + 1)) })
    else if 4 ≤ o ∧ latchLow p (o - 4) then (SMap.at 0 w.dev.latches (key n), w)
    else (w.pageWord p n, w)

/-- LATCHING_LOW_READ. R37: the data go to the requester, the high word to its latch. -/
def execLatchingLowRead (by_ : Caller) (off : Nat) (s : State) : Host.Outcome State Fault Refusal :=
  .next (s.run fun w =>
    if off % 4 ≠ 0 then w
    else
      let (v, w) := w.readReg by_ off
      w.d fun d => { d with bus := v })

end Sys2Proof.Machine
end

