-- ==== Sys2Proof/Machine/Snapshot.lean ====
section
/-!
DEFINITION. Snapshot.lean: snapshot triggers, their release, SNAPOUT, and the dump of the shadows (R384–R389).
-/
namespace Sys2Proof.Machine

/-- A dump of the shadows runs (R389). -/
def Work.dumping (w : Work) : Bool := w.runs 8 0

/-- RELEASE (R387): FROZEN clears; while a dump runs, at its end. -/
def Work.snpRelease (w : Work) : Work :=
  if w.dumping then w.flt fun f => { f with releaseWaits := true } else w.set (snpPage 16) R.SNP_STS_FROZEN 0

/-- A write of SNP_TRIG (R384, R387): with both bits 1 the order is open (log entry 81). -/
def Work.snpWrite (v : Nat) (w : Work) : Work :=
  match bit v 0, bit v 1 with
  | false, false => w
  | true, false => w.trigger 1
  | false, true => w.snpRelease
  | true, true =>
    let (x, w) := w.fresh
    if x.getLsbD 0 then (w.trigger 1).snpRelease else w.snpRelease.trigger 1

/-- SNP_TRIG. R384: only the page of HD0 has the register. -/
def execSnpTrig (by_ : Caller) (v : Word) (s : State) : Host.Outcome State Fault Refusal :=
  .next (s.run fun w => w.access by_ (snpPage 16) fun w => w.snpWrite v.toNat)

/-- SNP_RELEASE. R387. -/
def execSnpRelease (by_ : Caller) (v : Word) (s : State) : Host.Outcome State Fault Refusal :=
  .next (s.run fun w => w.access by_ (snpPage 16) fun w => w.snpWrite v.toNat)

/-- SNP_TIME_TRIGGER. R384: the timebase reaches SNP_MATCH; it fires once. -/
def execSnpTimeTrigger (s : State) : Host.Outcome State Fault Refusal :=
  .next (s.run fun w =>
    let p := snpPage 16
    if w.get p R.SNP_CTL_TIMEEN = 1 ∧ w.get64 p R.SNP_MATCH_LO_MATCH_LO ≤ w.now then (w.set p R.SNP_CTL_TIMEEN 0).trigger 2 else w)

/-- SNAPIN_EDGE. R384. -/
def execSnapinEdge (s : State) : Host.Outcome State Fault Refusal :=
  .next (s.run fun w => if w.get (snpPage 16) R.SNP_CTL_PINEN = 1 then w.trigger 4 else w)

/-- SNAPOUT_PULSE_END. R388. -/
def execSnapoutPulseEnd (s : State) : Host.Outcome State Fault Refusal :=
  .next (s.run fun w => w.pwr fun q => { q with snapout := false })

/-- Bytes of a dump: 20 dies, 2048 pages each, 64 bytes (R389). -/
def dumpBytes : Nat := 20 * 2048 * 64

/-- The area lies in a granule that is bound. -/
def Work.boundArea (w : Work) (a n : Nat) : Bool := !granulesAll a n fun g => (w.owner kT1 g).isNone

def snpDumpSpec : CmdSpec := { types := [0x1D], code := 0x01, who := .priv, resv := fun c => c.page == snpPage 16 && c.addrOk 0 }

/-- The dump, once admitted: every shadow is written; nothing can change them before its completion. -/
def Work.dumpStart (a : Nat) (w : Work) : Work :=
  (List.range (20 * 2048)).foldl (fun (w : Work) p =>
    w.store (a + 64 * p) ((List.range 16).flatMap fun n => natLE 4 (w.shadowWord p n).toNat)) w

/-- SNP_DUMP. R389: STATE unless FROZEN; BOUND for an area that is misaligned, not there, or bound; then Campion. -/
def execSnpDump (q : Issue) (s : State) : Host.Outcome State Fault Refusal :=
  .next (s.run fun w => w.command q snpDumpSpec fun c w =>
    let a := c.arg64 0
    w.checked c [(w.get (snpPage 16) R.SNP_STS_FROZEN == 0, .state),
        (a % 4096 != 0 || !w.t1Populated a dumpBytes || w.boundArea a dumpBytes, .bound)] fun w =>
      match w.request 8 0 (c.page + 1) with
      | (true, w) => ((w.accept c).dumpStart a).settle c.page .done
      | (false, w) => w.hold c)

/-- A dump ends: a RELEASE that waited takes effect (R389). -/
def Work.dumpEnd (w : Work) : Work :=
  let w := w.finishAct 8 0
  if w.dev.flt.releaseWaits then (w.flt fun f => { f with releaseWaits := false }).snpRelease else w

end Sys2Proof.Machine
end

