-- ==== Sys2Proof/Machine/Host.lean ====
section
/-!
DEFINITION. Host.lean: the PCIe endpoint (R393–R399), the management cores (R400–R402), sideband, regulators and test port (R403–R405), and register
accesses of peers (R45).
-/
namespace Sys2Proof.Machine

/-! ### Configuration requests (R397) -/

/-- The host's requests reach the endpoint: PERST# is released and the link is up. -/
def Work.linked (w : Work) : Bool := w.dev.host.link && !w.dev.host.perst

/-- Messages of a function that were held and can now be sent (R35). -/
def Work.msixFlush (fn : Nat) (w : Work) : Work :=
  let l := ((SMap.keys w.dev.host.pendVec).filter fun k => k / 2048 == fn && SMap.at false w.dev.host.unmasked k)
  if SMap.at false w.dev.host.msixEn fn && !SMap.at false w.dev.host.fnMask fn then
    l.foldl (fun (w : Work) k => (w.host fun h => { h with pendVec := SMap.put false h.pendVec k false }).msix fn (k % 2048)) w
  else w

/-- A configuration write taken by a function. -/
def Work.cfgWrite (fn : Nat) (reg : CfgReg) (v : Nat) (w : Work) : Work :=
  match reg with
  | .msixControl =>
    (w.host fun h => { h with msixEn := SMap.put false h.msixEn fn (bit v 15), fnMask := SMap.put false h.fnMask fn (bit v 14) }).msixFlush fn
  | .numVf => if fn = 0 ∧ v ≤ 64 then w.set pciPage R.PCI_NUMVF_NUMVF v else w
  | .devControl => if fn = 0 then w.host fun h => { h with fatalReporting := bit v 2 } else w
  | .other _ => w

/-- What a configuration register reads as: what the device keeps of it; the rest is the PCI Express specification's, not this manual's. -/
def Work.cfgRead (fn : Nat) (reg : CfgReg) (w : Work) : Nat × Work :=
  let (x, w) := w.fresh
  let h := w.dev.host
  let one := fun (b : Bool) => if b then 1 else 0
  let v := x.toNat % 2 ^ 32
  (match reg with
    | .msixControl => setBits (setBits v 15 15 (one (SMap.at false h.msixEn fn))) 14 14 (one (SMap.at false h.fnMask fn))
    | .numVf => if fn = 0 then w.get pciPage R.PCI_NUMVF_NUMVF else v
    | .devControl => if fn = 0 then setBits v 2 2 (one h.fatalReporting) else v
    | .other _ => v, w)

/-- PCIE_CONFIG_REQUEST. R397: no answer before 100 ms, Request Retry Status before ready, then normally. -/
def execPcieConfigRequest (fn : Nat) (reg : CfgReg) (wr : Bool) (v : Word) (s : State) : Host.Outcome State Fault Refusal :=
  .next (s.run fun w =>
    if !w.linked ∨ w.now < w.dev.host.perstAt then w
    else if !w.ready then w.send (.cpl 3 [])
    else if w.get pciPage R.PCI_NUMVF_NUMVF < fn then w.send (.cpl 2 [])
    else if wr then (w.cfgWrite fn reg v.toNat).send (.cpl 0 [])
    else
      let (x, w) := w.cfgRead fn reg
      w.send (.cpl 0 (natLE 4 x)))

/-! ### BAR4 (R394, R395) -/

/-- The local address of a BAR4 offset: of the PF the offset, of a VF within the first 64 of its partition's granules in ascending order (its BAR4 ends at 64 GiB). -/
def Work.bar4Addr (w : Work) (fn off : Nat) : Option Nat :=
  if fn = 0 then some off
  else if 64 * gib ≤ off then none
  else
    let gs := (List.range 960).filter fun g => w.owner kT1 g == some (fn - 1)
    (gs[off / gib]?).map fun g => g * gib + off % gib

/-- BAR4_ACCESS. R395: `data` of a read gives its length alone. -/
def execBar4Access (fn off : Nat) (wr : Bool) (data : List Byte) (s : State) : Host.Outcome State Fault Refusal :=
  .next (s.run fun w =>
    let n := data.length
    if !w.linked then w
    else if !w.ready ∨ w.get pciPage R.PCI_NUMVF_NUMVF < fn then w.send (.cpl 2 [])
    else if w.fatal then (if wr then w else w.send (.cpl 0 (List.replicate n 0)))
    else match w.bar4Addr fn off with
      | none => w.send (.cpl 2 [])
      | some a =>
        if !w.t1Populated a n ∨ (fn ≠ 0 ∧ gib < off % gib + n) then w.send (.cpl 2 [])
        else if w.zeroingIn a n then w.host fun h => { h with bar4Wait := h.bar4Wait ++ [(a, wr, data)] }
        else w.bar4 a wr data)

/-! ### The link (R398, R406, R424) -/

/-- PCIE_LINK_UP. R406: the PHY of PD26 reaches L0. -/
def execPcieLinkUp (speed width : Nat) (flit : Bool) (s : State) : Host.Outcome State Fault Refusal :=
  .next (s.run fun w =>
    if w.dev.host.perst ∨ !bit (w.get (pwrPage 16) R.PWR_DOMAINS_DON) 26 then w
    else
      let w := (w.host fun h => { h with link := true }).tm fun t => { t with refclk := true }
      (((w.set pciPage R.PCI_STS_LINKUP 1).set pciPage R.PCI_STS_SPEED speed).set pciPage R.PCI_STS_WIDTH width).setB pciPage R.PCI_STS_FLIT flit)

/-- The link goes down; once READY tier-3 reads fail, what is queued for host windows is lost, EV_PCIE_DOWN is raised (R398). -/
def Work.linkLost (w : Work) : Work :=
  if !w.dev.host.link then w
  else
    let w := (w.host fun h => { h with link := false }).set pciPage R.PCI_STS_LINKUP 0
    if !w.ready then w
    else
      let w := (SMap.keys w.dev.tiers.reads).foldl (fun (w : Work) t => w.failRead t) w
      let w := w.serve fun y => { y with publish := y.publish.map fun e => (e.1, e.2.map fun p => { p with lost := true }) }
      w.raise pciPage 16

/-- PCIE_LINK_DOWN. R398. -/
def execPcieLinkDown (s : State) : Host.Outcome State Fault Refusal := .next (s.run Work.linkLost)

/-- REFCLK_LOSS. R424: the link goes down and every UP port retrains. -/
def execRefclkLoss (s : State) : Host.Outcome State Fault Refusal :=
  .next (s.run fun w =>
    let w := (w.tm fun t => { t with refclk := false }).linkLost
    (List.range 8).foldl (fun (w : Work) n => if w.lstate n = 2 then w.retrainNow n else w) w)

/-- A conventional reset of the endpoint (R393, R418): what the host has configured is gone. -/
def Work.endpointReset (w : Work) : Work :=
  (w.host fun h => { h with msixEn := [], fnMask := [], unmasked := [], pendVec := [], fatalReporting := false, bar4Wait := [] }).set
    pciPage R.PCI_NUMVF_NUMVF 0

/-- PERST_ASSERT. R393. -/
def execPerstAssert (s : State) : Host.Outcome State Fault Refusal :=
  .next (s.run fun w => w.linkLost.endpointReset.host fun h => { h with perst := true })

/-- PERST_RELEASE. R397. -/
def execPerstRelease (s : State) : Host.Outcome State Fault Refusal :=
  .next (s.run fun w => if w.dev.host.perst then w.host fun h => { h with perst := false, perstAt := w.now + 100000000 } else w)

/-- PF_FLR. R396: every partition reset as by R322, the frame stopped, every slice of the tier-3 map invalid. -/
def execPfFlr (s : State) : Host.Outcome State Fault Refusal :=
  .next (s.run fun w =>
    if !w.ready then w
    else
      let w := (List.range 64).foldl (fun (w : Work) p => w.flrPart p) w
      let w := if w.dev.spw.running then w.frameEnds else w
      (List.range 128).foldl (fun (w : Work) i => w.set (xltPage 0) (R.XLT_T3MAP_LO_VALID.i i) 0) w)

/-! ### The management cores (R400–R402, R407) -/

/-- The boot flash changed. -/
def Work.flash (f : NonVolatile → NonVolatile) (w : Work) : Work := { w with nv := f w.nv }

/-- A slot's image: verifies, number, version. -/
def NonVolatile.slot (n : NonVolatile) (b : Bool) : Bool × Nat × Nat := if b then n.slotB else n.slotA

/-- The slots in the order in which the boot ROM tries them: a staged image first (R400, R401). -/
def NonVolatile.order (n : NonVolatile) : List Bool :=
  if n.staged = 1 then [false, true] else if n.staged = 2 then [true, false] else [n.prefB, !n.prefB]

/-- The slot that boots, if one does: its signature verifies, and its number is not below the fused one (R400). -/
def NonVolatile.boots (n : NonVolatile) : Option Bool := n.order.find? fun b => (n.slot b).1 && decide (n.fused ≤ (n.slot b).2.1)

/-- A field set on both KMC pages. -/
def Work.kmcSet (f : Fld) (v : Nat) (w : Work) : Work := (w.set (kmcPage false) f v).set (kmcPage true) f v

/-- Domains switched on. -/
def Work.domainsOn (l : List Nat) (w : Work) : Work :=
  let p := pwrPage 16
  let w := w.set p R.PWR_DOMAINS_DON (l.foldl (fun v n => setBits v n n 1) (w.get p R.PWR_DOMAINS_DON))
  (l.filter (· < 20)).foldl (fun (w : Work) n => w.set (pwrPage n) R.PWR_STS_ON 1) w

/-- A register held in PD27: those of the timebase root and of snapshot control, PWR_CTL and PWR_IOCFG (R418, R427). -/
def inPd27 (p n : Nat) : Bool :=
  p == tmb || p == snpPage 16 || (p == pwrPage 16 && (n == 0x56 || (decide (0x60 ≤ n) && decide (n < 0x68))))

/-- A page comes up at start-up: its registers at their reset values, but for those held in PD27 (R33, R410, R418). -/
def Work.startPage (p : Nat) (w : Work) : Work :=
  let held := w.dev.regs.filter fun e => e.1 / 1024 == p && inPd27 p (e.1 % 1024)
  let w' := ((w.resetRegs p).kept p w).d fun d => { d with
    regs := held.foldl (fun m e => SMap.ins m e.1 e.2) d.regs
    ctrs := if p = tmb ∨ p = snpPage 16 then w.dev.ctrs else d.ctrs }
  w'.toState p .idle

/-- Pages of a die that are OFF come up. -/
def Work.pagesUp (d : Nat) (f : Nat → Bool) (w : Work) : Work :=
  (List.range 0x40).foldl (fun (w : Work) i =>
    let p := pg d i
    if typeOf p ≠ 0 ∧ f p ∧ (w.page p).state = .off then w.startPage p else w) w

/-- A link of the package is up at both ends, at its full rate, once both have left OFF (R11, R13). -/
def Work.linkPair (d inst : Nat) (w : Work) : Work :=
  match ddlPeer d inst with
  | some (e, i) =>
    if (w.page (ddlPage d inst)).state = .off ∨ (w.page (ddlPage e i)).state = .off then w
    else [ddlPage d inst, ddlPage e i].foldl (fun (w : Work) p =>
      ((w.set p R.DDL_STS_LSTATE 1).set p R.DDL_STS_SPARES 0).set p R.DDL_RATE_RATE (ddlRate d inst)) w
  | none => w

/-- Start-up once firmware runs (Table 24.2, steps 3 to 5): hubs, SerDes, HBM and compute domains on, hub blocks IDLE, links in training. -/
def Work.firmwareUp (w : Work) : Work :=
  let w := w.domainsOn ([17, 18, 19, 25, 20, 21, 22, 23] ++ List.range 16)
  let w := (List.range 4).foldl (fun (w : Work) q => w.pagesUp (16 + q) fun p => typeOf p != 0x10 && typeOf p != 0x11) w
  let w := (List.range 4).foldl (fun (w : Work) q => w.linkPair (16 + q) 4) w
  let w := (List.range 8).foldl (fun (w : Work) n => if w.get (portPage n) R.GYL_CTL_LINKEN = 1 ∧ w.lstate n = 0 then w.setLstate n 1 else w) w
  w.pwr fun q => { q with bringUp := (List.range 16).map fun d => (d, 1) }

/-- KMC_BOOT_DONE. R400, R401, R410: the boot ROM ends with what it finds in the slots; the early pages of HD0 come up whatever it finds. -/
def execKmcBootDone (okA okB : Bool) (numA numB verA verB : Nat) (s : State) : Host.Outcome State Fault Refusal :=
  .next (s.runNv fun w =>
    if w.dev.pwr.porst ∨ w.dev.pwr.wrst ∨ !bit w.dev.pwr.startup 0 ∨ bit w.dev.pwr.startup 2 then w
    else
      let w := w.flash fun n => { n with slotA := (okA, numA % 2 ^ 16, verA), slotB := (okB, numB % 2 ^ 16, verB) }
      let w := w.pwr fun q => { q with startup := setBits q.startup 2 2 1 }
      let early := [pciPage, kmcPage false, snpPage 16, pwrPage 16]
      let w := early.foldl (fun (w : Work) p => w.startPage p) w
      match w.nv.boots with
      | none => (w.set (kmcPage false) R.KMC_STS_BOOT 2).suFail
      | some b =>
        let im := w.nv.slot b
        let raise := decide (w.nv.staged = if b then 2 else 1)
        let w := w.flash fun n => { n with fused := if raise then max n.fused im.2.1 else n.fused, staged := 0 }
        let w := w.firmwareUp
        let w := ((w.kmcSet R.KMC_STS_BOOT 1).kmcSet R.KMC_STS_SLOT (if b then 1 else 0)).kmcSet R.KMC_FWVER_FWVER im.2.2
        (w.kmcSet R.KMC_ROLLBACK_FUSED w.nv.fused).kmcSet R.KMC_ROLLBACK_IMAGE im.2.1)

/-- A firmware image as the staging finds it: it verifies, and its number is not below the fused one. -/
def Work.imageFound (w : Work) (im : Bool × Nat × Nat) : Bool × Nat × Nat := (im.1 && decide (w.nv.fused ≤ im.2.1 % 2 ^ 16), im.2.1 % 2 ^ 16, im.2.2)

/-- The image is in the slot not booted; where it verifies it is staged (R401). -/
def Work.stagedImage (im : Bool × Nat × Nat) (w : Work) : Work :=
  let toB := w.get (kmcPage false) R.KMC_STS_SLOT == 0
  let w := w.flash fun n =>
    let n := if toB then { n with slotB := im } else { n with slotA := im }
    { n with staged := if im.1 then (if toB then 2 else 1) else 0 }
  let w := w.kmcSet R.KMC_STS_STAGED (if im.1 then 1 else 0)
  if im.1 then w.raise (kmcPage (w.get (kmcPage true) R.KMC_STS_ACTING == 1)) 17 else w

def kmcStageSpec : CmdSpec := { types := [0x1B], code := 0x10, who := .pf, resv := fun c => c.addrOk 0 }

/-- The staging of the outstanding KMC_STAGE begins: what its image is found to be decides its final status. -/
def Work.stageStart (c : Call) (w : Work) : Work :=
  let a := c.arg64 0
  let n := c.arg 2 * 1024
  let im := w.imageFound (Config.imageOf (w.rdN a n))
  let im := if w.poisoned a n then (false, im.2) else im
  let w := (w.readLines a n).d fun d => { d with kmc := { d.kmc with found := im } }
  w.settle c.page (if im.1 then .done else .fault)

/-- KMC_STAGE. R401. -/
def execKmcStage (q : Issue) (s : State) : Host.Outcome State Fault Refusal :=
  .next (s.run fun w => w.command q kmcStageSpec fun c w =>
    let a := c.arg64 0
    let n := c.arg 2 * 1024
    w.checked c [(w.get c.page R.KMC_STS_ACTING != 1 || w.get c.page R.KMC_STS_BOOT != 1, .state), (c.arg 2 == 0 || decide (32768 < c.arg 2), .shape),
        (!w.t1Populated a n || w.boundArea a n, .bound)] fun w =>
      match w.request 9 0 (c.page + 1) with
      | (true, w) => (w.accept c).stageStart c
      | (false, w) => w.hold c)

/-- PLDM_FW_UPDATE. R401, R403: an image over the sideband, also where no firmware booted (R400); staging waits for Campion. -/
def execPldmFwUpdate (ok : Bool) (num ver : Nat) (s : State) : Host.Outcome State Fault Refusal :=
  .next (s.runNv fun w =>
    if !bit w.dev.pwr.startup 2 then w
    else
      let w := w.send (.sideband 5 [])
      match w.request 9 0 0 with
      | (true, w) => (w.stagedImage (w.imageFound (ok, num, ver))).finishAct 9 0
      | (false, w) => w.d fun d => { d with kmc := { d.kmc with offers := d.kmc.offers ++ [(ok, num, ver)] } })

/-- KMC_HEARTBEAT_TIMEOUT. R402: the standby takes over. -/
def execKmcHeartbeatTimeout (s : State) : Host.Outcome State Fault Refusal :=
  .next (s.run fun w =>
    let p := kmcPage false
    let q := kmcPage true
    if !w.live q ∨ w.get q R.KMC_STS_BOOT ≠ 1 ∨ w.get q R.KMC_STS_ACTING = 1 then w
    else
      let w := ((w.set p R.KMC_STS_ACTING 0).set q R.KMC_STS_ACTING 1)
      let held := w.dev.flt.pendingActs.any fun a => a.page == p + 1
      let w := (w.flt fun f => { f with pendingActs := f.pendingActs.filter fun a => a.page != p + 1 }).cmpSts
      let w := if (w.page p).outst.isSome && !held then w.finishAct 9 0 else w
      (((w.complete p .fault).raise p 16).raise q 16))

/-! ### Sideband (R403) -/

/-- I3C_ENTDAA. R403. -/
def execI3cEntdaa (addr : Nat) (s : State) : Host.Outcome State Fault Refusal :=
  .next (s.run fun w => if w.dev.pwr.porst then w else w.host fun h => { h with i3cAddr := addr % 128 })

/-- PLDM_REQUEST. R403: types 0, 2 and 5 are served; without firmware the firmware update alone (R400). What a base or an update response holds is the
matter of their specifications: a free value. -/
def execPldmRequest (type _cmd : Nat) (s : State) : Host.Outcome State Fault Refusal :=
  .next (s.run fun w =>
    let booted := w.get (kmcPage false) R.KMC_STS_BOOT
    if type = 2 ∧ booted = 1 then w.send (.sideband 2 (w.dev.host.sensors.flatMap fun e => [e.1, e.2]))
    else if (type = 0 ∧ booted = 1) ∨ (type = 5 ∧ booted ≠ 0) then
      let (x, w) := w.fresh
      w.send (.sideband type [x.toNat])
    else w)

/-- The sensors: RTM_TEMP of die n (n), VOLT of die n (32 + n), HBM stacks (64 + n), DIMMs (96 + n), package power (128), package-fatal (129). -/
def Work.sensorValues (w : Work) : List (Nat × Nat) :=
  ((List.range 16).map fun d => (d, w.get (rtmPage d) R.RTM_TEMP_TEMP)) ++ ((List.range 16).map fun d => (32 + d, w.get (rtmPage d) R.RTM_VOLT_VOLT)) ++
    ((List.range 20).map fun i => (64 + i, w.get (stackPage i) R.MEM_TEMP_TEMP)) ++
    ((List.range 16).map fun i => (96 + i, w.get (chanPage i) R.MEM_TEMP_TEMP)) ++
    [(128, w.get (pwrPage 16) R.PWR_PKG_PKGW), (129, if w.fatal then 1 else 0)]

/-- SENSOR_REFRESH. R403. -/
def execSensorRefresh (s : State) : Host.Outcome State Fault Refusal :=
  .next (s.run fun w =>
    if w.get (kmcPage false) R.KMC_STS_BOOT = 1 then w.host fun h => { h with sensors := w.sensorValues.filter fun e => e.2 != 0 } else w)

/-! ### Regulators (R404) -/

/-- The AVSBus master of a hub reads a domain back. -/
def avsReads (hub d : Nat) : Bool := (decide (d < 16) && d / 4 == hub) || d == 16 + hub || d == 20 + hub || (hub == 0 && decide (24 ≤ d) && decide (d ≤ 27))

/-- A power domain is on. -/
def Work.domainOn (w : Work) (d : Nat) : Bool := bit (w.get (pwrPage 16) R.PWR_DOMAINS_DON) d

/-- The package power P in W from the last readbacks (R414). -/
def Work.pkgPower (w : Work) : Nat := ((List.range 28).filter w.domainOn).foldl (fun a d => a + SMap.at 0 w.dev.pwr.power d) 0 / 1000000

/-- PKGW of HD0 from the readbacks. -/
def Work.showPkg (w : Work) : Work := w.set (pwrPage 16) R.PWR_PKG_PKGW (min 8191 w.pkgPower)

/-- AVS_READBACK. R404, R414: the power of each domain is the sum over its rails of voltage times current. -/
def execAvsReadback (hub : Nat) (vals : List (Nat × Nat × Nat)) (s : State) : Host.Outcome State Fault Refusal :=
  .next (s.run fun w =>
    if 4 ≤ hub ∨ !w.domainOn (16 + hub) then w
    else
      let ds := ((vals.map (·.1)).eraseDups).filter fun d => avsReads hub d && w.domainOn d
      (ds.foldl (fun (w : Work) d =>
        let uw := (vals.filter fun e => e.1 == d).foldl (fun a e => a + e.2.1 * e.2.2) 0
        let w := w.pwr fun q => { q with power := SMap.put 0 q.power d uw }
        if d < 20 then w.set (pwrPage d) R.PWR_POWER_POWER (min 65535 (uw / 100000)) else w) w).showPkg)

/-- AVS_TIMEOUT. R404. -/
def execAvsTimeout (die : Nat) (s : State) : Host.Outcome State Fault Refusal :=
  .next (s.run fun w =>
    if die < 16 ∧ w.dieOn die then (w.pwr fun q => { q with frozenRail := SMap.put false q.frozenRail die true }).raise (pwrPage die) 18 else w)

/-! ### The test port (R405) -/

/-- BYPASS selected: its one-bit register captures zero. -/
def Work.bypass (w : Work) : Work := w.host fun h => { h with tapIr := 0, tapDr := 0 }

/-- An instruction of the boundary register: what the cells hold is not the manual's. -/
def Work.boundary (ir : Nat) (w : Work) : Work :=
  let (x, w) := w.fresh
  w.host fun h => { h with tapIr := ir, tapDr := x.setWidth 32 }

/-- An instruction that takes effect under PORSTn alone. -/
def Work.onlyPor (ir : Nat) (w : Work) : Work := if w.dev.pwr.porst then w.boundary ir else w.bypass

/-- TAP_BYPASS. R405. -/
def execTapBypass (s : State) : Host.Outcome State Fault Refusal := .next (s.run Work.bypass)

/-- TAP_IDCODE. R405. -/
def execTapIdcode (s : State) : Host.Outcome State Fault Refusal :=
  .next (s.run fun w => w.host fun h => { h with tapIr := 1, tapDr := 0x2D20433B#32 })

/-- TAP_SAMPLE. R405. -/
def execTapSample (s : State) : Host.Outcome State Fault Refusal := .next (s.run fun w => w.boundary 2)

/-- TAP_EXTEST. R405. -/
def execTapExtest (s : State) : Host.Outcome State Fault Refusal := .next (s.run fun w => w.onlyPor 3)

/-- TAP_EXTEST_PULSE. R405. -/
def execTapExtestPulse (s : State) : Host.Outcome State Fault Refusal := .next (s.run fun w => w.onlyPor 4)

/-- TAP_EXTEST_TRAIN. R405. -/
def execTapExtestTrain (s : State) : Host.Outcome State Fault Refusal := .next (s.run fun w => w.onlyPor 5)

/-- TAP_PRELOAD. R405. -/
def execTapPreload (s : State) : Host.Outcome State Fault Refusal := .next (s.run fun w => w.onlyPor 6)

end Sys2Proof.Machine
end

