-- ==== Sys2Proof/Machine/Power.lean ====
section
/-!
DEFINITION. Power.lean: resets, start-up, the switching and reset of compute dies, the power cap and the thermal limit, pins (R404, R408–R420, R424,
R427).
-/
namespace Sys2Proof.Machine

/-! ### Resets (R417, R418) -/

/-- A byte of the memory spaces that a reset does not keep: everything but host memory and, with `keep`, tier 2. -/
def lostByte (keep : Bool) (a : Nat) : Bool :=
  let t2 := fun x => decide (t2Base ≤ x) && decide (x < t2End)
  if a < 2 ^ 64 then !(keep && t2 a)
  else if a < 2 ^ 80 then false
  else if a < 2 ^ 100 then true
  else if a < 2 ^ 101 then !(keep && t2 ((a - 2 ^ 100) * 64))
  else decide (2 ^ 101 + 2 ^ 75 ≤ a)

/-- The memories after a reset: what is not kept is zero. -/
def Work.loseBytes (keep : Bool) (w : Work) : Work :=
  (((w.mem.map (·.1)) ++ (w.wr.map (·.1))).filter (lostByte keep)).foldl (fun w k => w.wrB k 0) w

/-- POWER_ON_RESET. R417: only fuses and flash, and what the host holds, survive. -/
def execPowerOnReset (s : State) : Host.Outcome State Fault Refusal :=
  .next (s.run fun w =>
    let dev : Dev := { free := w.dev.free, host := { out := w.dev.host.out } }
    { w.loseBytes false with dev := dev, shadow := none })

/-- POR_RELEASE. R410, Table 24.2 steps 0 and 1: the timebase counts from zero, HD0 and the PCIe PHY are on. -/
def execPorRelease (s : State) : Host.Outcome State Fault Refusal :=
  .next (s.runTime fun w =>
    if !w.dev.pwr.porst then w
    else
      let w := { w with now := 0 }.tm fun t => { t with counting := true, edges := true, qualifying := true }
      (w.pwr fun q => { q with porst := false, startup := 1 }).domainsOn [27, 16, 26])

/-- WARM_RESET. R418: every domain but PD27 stops at once. -/
def execWarmReset (s : State) : Host.Outcome State Fault Refusal :=
  .next (s.run fun w =>
    if w.dev.pwr.porst then w
    else
      let keep := w.get (pwrPage 16) R.PWR_CTL_KEEPT2 == 1
      let old := w.dev
      let dev : Dev :=
        { free := old.free
          time := old.time
          regs := old.regs.filter fun e => inPd27 (e.1 / 1024) (e.1 % 1024)
          ctrs := old.ctrs.filter fun e => e.1 / 8 == tmb || e.1 / 8 == snpPage 16
          host := { out := old.host.out, perst := old.host.perst, perstAt := old.host.perstAt }
          pwr := { porst := false, wrst := true, kept := keep, pinLevel := old.pwr.pinLevel } }
      { w.loseBytes keep with dev := dev, shadow := none }.domainsOn [27])

/-- WARM_RESET_RELEASE. R418: start-up runs from step 1. -/
def execWarmResetRelease (s : State) : Host.Outcome State Fault Refusal :=
  .next (s.run fun w =>
    if !w.dev.pwr.wrst then w
    else ((w.pwr fun q => { q with wrst := false, startup := 1 }).domainsOn [27, 16, 26]).set (pwrPage 16) R.PWR_RSTCAUSE_CAUSE 1)

/-! ### Start-up (R410, R411) -/

/-- A start-up step has been reached. -/
def Work.startStep (n : Nat) (w : Work) : Work := w.pwr fun q => { q with startup := setBits q.startup n n 1 }

/-- The block pages of a compute die. -/
def diePages (d : Nat) : List Nat := ((List.range 0x255).map (pg d)).filter fun p => typeOf p != 0

/-- What a compute die holds beside its pages is gone: cells, engines, scratch, buffers and their tags (R419). -/
def Work.clearDie (d : Nat) (w : Work) : Work :=
  let w := w.d fun v =>
    { v with
      fab := { v.fab with
        sites := SMap.dropRange v.fab.sites (256 * d) (256 * d + 256), slots := SMap.dropRange v.fab.slots (2048 * d) (2048 * d + 2048)
        lastHs := SMap.dropRange v.fab.lastHs (256 * d) (256 * d + 256), stalls := SMap.dropRange v.fab.stalls (256 * d) (256 * d + 256)
        spilling := SMap.drop v.fab.spilling d }
      rem := { v.rem with wins := SMap.dropRange v.rem.wins (2048 * d) (2048 * d + 2048), sends := SMap.drop v.rem.sends d }
      tiers := { v.tiers with rings := SMap.dropRange v.tiers.rings (pg d 0) (pg (d + 1) 0), stalls := SMap.dropRange v.tiers.stalls (pg d 0) (pg (d + 1) 0) }
      hwk := { v.hwk with engs := SMap.dropRange v.hwk.engs (8 * d) (8 * d + 8), lists := SMap.dropRange v.hwk.lists (pg d 0) (pg (d + 1) 0) }
      skp := SMap.dropRange v.skp (pg d 0) (pg (d + 1) 0)
      coll := SMap.dropRange v.coll (pg d 0) (pg (d + 1) 0) }
  ([scratchA d 0 0, accA d 0 0, opbA d 0 0, vregA d 0 0] : List Nat).foldl (fun (w : Work) a =>
    (w.zeroRange a (2 ^ 28)).zeroRange (poisonA a) (2 ^ 23)) w

/-- The supply of a die is back at its start-up values (Table 24.2 step 5). -/
def Work.freshRail (d : Nat) (w : Work) : Work :=
  w.pwr fun q =>
    { q with capReq := SMap.drop q.capReq d, settled := SMap.drop q.settled d, rtmDone := SMap.drop q.rtmDone d, frozenRail := SMap.drop q.frozenRail d }

/-- The page of a command that brings a die up, where one does. -/
def Work.bringer (w : Work) (d : Nat) : Option Nat :=
  match SMap.at 0 w.dev.pwr.bringUp d with
  | 0 => none
  | n + 1 => match (w.page n).outst with
    | some o => if typeOf n = 0x1E ∧ (o.code = 0x21 ∨ o.code = 0x22) then some n else none
    | none => none

/-- Every block of a die IDLE, its links up (R410, R413, R419). A link that is REMOVED comes up only with a reset of the die, not with its supply (R14). -/
def Work.dieUp (d : Nat) (reset : Bool) (w : Work) : Work :=
  let gone := (List.range 5).filter fun i => !reset && (w.removed d i || (ddlPeer d i).any fun e => w.removed e.1 e.2)
  let w := ((w.clearDie d).freshRail d).domainsOn [d]
  let w := (diePages d).foldl (fun (w : Work) p => w.bringIdle p) w
  (List.range 5).foldl (fun (w : Work) i =>
    if gone.contains i then (w.set (ddlPage d i) R.DDL_STS_LSTATE 3).set (ddlPage d i) R.DDL_RATE_RATE 0 else w.linkPair d i)
    (w.set (pwrPage d) R.PWR_STS_ON 1)

/-- A die that fails its self-test: FENCED as under R373 (R411, R419). -/
def Work.dieFails (d : Nat) (w : Work) : Work :=
  let w := ((w.clearDie d).freshRail d).domainsOn [d]
  let w := (diePages d).foldl (fun (w : Work) p => (w.resetRegs p).toState p .fenced) w
  (w.set (pwrPage d) R.PWR_STS_ON 1).dieFence d

/-- COMPUTE_DIE_READY. R410, R411, R413, R419: self-test and zeroing of a die end. Its blocks are IDLE, of a die reset once calibration has been
admitted too; a die that fails is fenced, and the command that brought it up ends FAULT. -/
def execComputeDieReady (die : Nat) (ok : Bool) (s : State) : Host.Outcome State Fault Refusal :=
  .next (s.run fun w =>
    let by_ := w.bringer die
    let code := by_.elim 0 fun p => ((w.page p).outst.elim 0 fun o => o.code)
    let done := fun (w : Work) => w.pwr fun q => { q with bringUp := SMap.drop q.bringUp die }
    if 16 ≤ die ∨ SMap.at 0 w.dev.pwr.bringUp die = 0 then w
    else if !ok then
      let w := (done w).dieFails die
      match by_ with
      | none => w.suFail
      | some p =>
        let w := ((w.flt fun f => { f with pendingActs := f.pendingActs.filter fun a => a.page != p + 1 }).cmpSts).finishAct 7 die
        w.settle p .fault
    else match by_ with
      | none => (done w).dieUp die true
      | some p =>
        if code = 0x22 then
          if w.runs 7 die then ((((done w).dieUp die true).count p 3 1).finishAct 7 die).settle p .done else w
        else
          let w := (done w).dieUp die false
          if w.runs 7 die then (w.finishAct 7 die).settle p .done else w)

/-- HBM_TRAINING_END. R148, R410: a quadrant with a failed stack is absent; tier 1 is zeroed; PD24 is switched on. -/
def execHbmTrainingEnd (failed : List Nat) (s : State) : Host.Outcome State Fault Refusal :=
  .next (s.run fun w =>
    if !bit w.dev.pwr.startup 2 ∨ bit w.dev.pwr.startup 8 ∨ w.get (kmcPage false) R.KMC_STS_BOOT ≠ 1 then w
    else
      let w := (List.range 20).foldl (fun (w : Work) n =>
        let p := stackPage n
        let quadOk := (List.range 5).all fun i => !failed.contains (n / 5 * 5 + i)
        if failed.contains n then
          let (v, w) := w.fresh
          let w := ((((w.resetRegs p).set p R.MEM_STS_CHSTATE 2).set p R.MEM_STS_SETCODE 0).toState p .fenced).raise p 17
          (w.logOpen p none none (v.toNat % 256) 0).suFail
        else
          ((((w.enableIdle p).set p R.MEM_STS_CHSTATE 1).set p R.MEM_STS_SETCODE 0).set p R.MEM_STS_CAPG 48).setB p R.MEM_STS_INSET quadOk) w
      (w.startStep 8).domainsOn [24])

/-- The set of R150 for the DIMM capacities of the channels that trained: its code, 7 for none. -/
def chooseSet (caps : List Nat) : Nat :=
  let cap := fun ch => caps.getD ch 0
  ((List.range 7).find? fun c =>
    let l := setChans c
    l.all fun ch => cap ch == cap (l.getD 0 0) && (cap ch == 64 || cap ch == 128 || cap ch == 256)).getD 7

/-- BULK_TRAINING_END. R149, R150, R418: the set is formed; unless a warm reset has kept tier 2 every granule is ZEROING. -/
def execBulkTrainingEnd (caps : List Nat) (s : State) : Host.Outcome State Fault Refusal :=
  .next (s.run fun w =>
    if !bit w.dev.pwr.startup 8 ∨ bit w.dev.pwr.startup 11 then w
    else
      let c := chooseSet caps
      let w := (List.range 16).foldl (fun (w : Work) ch =>
        let p := chanPage ch
        let w := (w.enableIdle p).set p R.MEM_STS_SETCODE c
        if (setChans c).contains ch then
          ((w.set p R.MEM_STS_CHSTATE 1).set p R.MEM_STS_INSET 1).set p R.MEM_STS_CAPG (caps.getD ch 0)
        else w) w
      let w := w.startStep 11
      if w.dev.pwr.kept then w
      else (w.bnd fun b => { b with zeroing := b.zeroing ++ (List.range w.t2Cap).map fun g => (4096 + g, true) }).showZeroing)

/-- DEVICE_READY. R397, R410: firmware runs, both trainings have ended, every compute die is ready or fenced. -/
def execDeviceReady (s : State) : Host.Outcome State Fault Refusal :=
  .next (s.run fun w =>
    if w.ready ∨ w.fatal ∨ !bit w.dev.pwr.startup 11 ∨ !w.dev.pwr.bringUp.isEmpty then w
    else ((w.startStep 12).set pciPage R.PCI_STS_READY 1).send .drs)

/-! ### Compute domains at run time (R413, R419) -/

/-- Every block of a die is in one of some states. -/
def Work.dieAll (w : Work) (d : Nat) (l : List BlockState) : Bool := (diePages d).all fun p => l.contains (w.page p).state

/-- Every block OFF, the fence gone, nothing held (R33, R413). -/
def Work.dieOff (d : Nat) (w : Work) : Work :=
  let w := (diePages d).foldl (fun (w : Work) p => w.toState p .off) w
  let w := (w.flt fun f => { f with fencedDies := SMap.drop f.fencedDies d }).bnd fun b => { b with spareDue := b.spareDue.filter fun x => x != d }
  let w := (w.clearDie d).pwr fun q => { q with power := SMap.drop q.power d }
  let w := w.set (pwrPage d) R.PWR_STS_ON 0
  let w := w.set (pwrPage 16) R.PWR_DOMAINS_DON (setBits (w.get (pwrPage 16) R.PWR_DOMAINS_DON) d d 0)
  let w := (List.range 5).foldl (fun (w : Work) i =>
    match ddlPeer d i with
    | some (e, j) => if w.get (ddlPage e j) R.DDL_STS_LSTATE = 3 then w else w.set (ddlPage e j) R.DDL_STS_LSTATE 0
    | none => w) w
  w.showPkg

/-- A die begins to come up for the command on a page; calibration asks for admission (R413, R419). -/
def Work.dieBegins (c : Call) (d : Nat) (w : Work) : Work :=
  let w := w.pwr fun q => { q with bringUp := SMap.put 0 q.bringUp d (c.page + 1) }
  match w.request 7 d (c.page + 1) with
  | (true, w) => w.accept c
  | (false, w) => w.hold c

def pwrDomainSpec : CmdSpec :=
  { types := [0x1E], code := 0x21, who := .priv, resv := fun c => c.page == pwrPage 16 && bits (c.arg 0) 7 5 == 0 && c.arg 0 < 2 ^ 9 }

/-- PWR_DOMAIN. R413: a domain that is already as asked is left as it is. -/
def execPwrDomain (q : Issue) (s : State) : Host.Outcome State Fault Refusal :=
  .next (s.run fun w => w.command q pwrDomainSpec fun c w =>
    let d := bits (c.arg 0) 4 0
    let on := bit (c.arg 0) 8
    let bound := (dieRes d).any fun e => e.2.any fun i => (w.owner e.1 i).isSome
    w.checked c [(decide (15 < d), .unknown), (!on && (!w.dieAll d [.off, .idle, .fenced] || bound), .busy)] fun w =>
      if w.dieOn d = on then (w.accept c).settle c.page .done
      else if on then (w.domainsOn [d]).dieBegins c d
      else ((w.accept c).dieOff d).settle c.page .done)

def pwrDieresetSpec : CmdSpec :=
  { types := [0x1E], code := 0x22, who := .priv, resv := fun c => decide (16 ≤ dieOf c.page) && c.arg 0 < 2 ^ 4 }

/-- PWR_DIERESET. R419. -/
def execPwrDiereset (q : Issue) (s : State) : Host.Outcome State Fault Refusal :=
  .next (s.run fun w => w.command q pwrDieresetSpec fun c w =>
    let d := c.arg 0
    w.checked c [(d / 4 != dieOf c.page - 16, .unknown), (!w.dieAll d [.fenced, .idle], .busy)] fun w => (w.dieOff d).dieBegins c d)

/-! ### Power cap and thermal limit (R414–R416) -/

def pwrSetlimitSpec : CmdSpec := { types := [0x1E], code := 0x20, who := .priv, resv := fun c => c.page == pwrPage 16 && c.arg 0 < 2 ^ 13 }

/-- PWR_SETLIMIT. R415. -/
def execPwrSetlimit (q : Issue) (s : State) : Host.Outcome State Fault Refusal :=
  .next (s.run fun w => w.command q pwrSetlimitSpec fun c w =>
    w.checked c [(decide (c.arg 0 < 2000) || decide (5000 < c.arg 0), .shape)] fun w =>
      (w.set (pwrPage 16) R.PWR_PKG_LIMIT (c.arg 0)).reply c .done)

/-- The request of the cap controller for a die, mV. -/
def Work.capReq (w : Work) (d : Nat) : Nat := SMap.at 750 w.dev.pwr.capReq d

/-- The rail request follows the lower of setpoint and cap request; bounds are raised before a fall and stand until a rise has settled (R21, R414). A
frozen rail's request stays (R404). -/
def Work.railRequest (d : Nat) (w : Work) : Work :=
  let p := pwrPage d
  let v := min (w.get p R.PWR_VSET_VSET) (w.capReq d)
  let old := w.get p R.PWR_STS_VREQ
  let w := w.setB p R.PWR_STS_CAPPED (decide (w.capReq d < w.get p R.PWR_VSET_VSET))
  if SMap.at false w.dev.pwr.frozenRail d ∨ v = old then w
  else
    let w := if v < old then w.settleAt d (min (w.settledMv d) v) else w
    (w.set p R.PWR_STS_VREQ v).send (.avs d v)

/-- THERM of a die: set from 103 °C (code 412) until below 100 °C (code 400) (R416). -/
def Work.thermal (d : Nat) (w : Work) : Work :=
  let t := toSigned 12 (w.get (rtmPage d) R.RTM_TEMP_TEMP)
  let p := pwrPage d
  if w.get p R.PWR_STS_THERM = 1 then (if t < 400 then w.set p R.PWR_STS_THERM 0 else w)
  else if 412 ≤ t then (w.set p R.PWR_STS_THERM 1).raise p 20
  else w

/-- One die's change in a period: lowered by the cap or for its temperature, or raised. -/
def Work.capDie (lower raise : List Nat) (d : Nat) (w : Work) : Work :=
  let p := pwrPage d
  let r := w.get p R.PWR_STS_VREQ
  let th := w.get p R.PWR_STS_THERM == 1
  let step := fun (v : Nat) (w : Work) => w.pwr fun q => { q with capReq := SMap.put 750 q.capReq d v }
  let w :=
    if (th ∨ lower.contains d) ∧ 600 < r then
      let w := step (max 600 (r - 10)) w
      let w := if lower.contains d then w.count p 0 1 else w
      if th then w.count p 1 1 else w
    else if !th ∧ raise.contains d then (step (r + 10) w).count p 0 1
    else w
  w.railRequest d

/-- CAP_PERIOD. R414, R416: 100 µs have passed. -/
def execCapPeriod (s : State) : Host.Outcome State Fault Refusal :=
  .next (s.run fun w =>
    if !w.live (pwrPage 16) ∨ (w.page (pwrPage 16)).state = .off then w
    else
      let p := w.pkgPower
      let limit := w.get (pwrPage 16) R.PWR_PKG_LIMIT
      let req := fun (w : Work) d => w.get (pwrPage d) R.PWR_STS_VREQ
      let dies := (List.range 16).filter fun d => w.dieOn d && SMap.at 0 w.dev.pwr.bringUp d == 0
      let w := dies.foldl (fun (w : Work) d => w.thermal d) w
      let act := dies.filter fun d => !SMap.at false w.dev.pwr.frozenRail d
      let above := act.filter fun d => decide (600 < req w d)
      let below := act.filter fun d => decide (req w d < w.get (pwrPage d) R.PWR_VSET_VSET)
      let top := above.foldl (fun a d => max a (req w d)) 0
      let low := below.foldl (fun a d => min a (req w d)) 1023
      let lower := if limit < p then above.filter fun d => req w d == top else []
      let raise := if 100 * p < 97 * limit then below.filter fun d => req w d == low else []
      let floor := decide (limit < p) && dies.all fun d => decide (req w d ≤ 600)
      let first := floor && !w.dev.pwr.capFloorRun
      let w := dies.foldl (fun (w : Work) d => w.capDie lower raise d) w
      let w := w.pwr fun q => { q with capFloorRun := floor }
      let w := if floor then w.count (pwrPage 16) 2 1 else w
      if first then w.raise (pwrPage 16) 19 else w)

/-- RAIL_SETTLED. R21: after a rise the floor and the bounds are lowered. -/
def execRailSettled (die mv : Nat) (s : State) : Host.Outcome State Fault Refusal :=
  .next (s.run fun w =>
    let v := min mv (w.get (pwrPage die) R.PWR_STS_VREQ)
    if die < 16 ∧ w.dieOn die ∧ w.settledMv die < v then w.settleAt die v else w)

/-! ### Pins (R28, R427) -/

/-- A PWR_IOCFG value as its group stores it (Table 25.3). -/
def iocfgValue (g v : Nat) : Nat :=
  let filt := if g = 0 then 2 else if g < 4 then bits v 5 4 else if g = 4 then min 1 (bits v 5 4) else 0
  (if g < 4 then 0 else bits v 3 0) + 16 * filt

/-- PWR_IOCFG_WRITE. R427. -/
def execPwrIocfgWrite (by_ : Caller) (off : Nat) (v : Word) (s : State) : Host.Outcome State Fault Refusal :=
  .next (s.run fun w =>
    let g := (off % 4096 - 0x180) / 4
    if off / 4096 ≠ pwrPage 16 ∨ off % 4096 < 0x180 ∨ 8 ≤ g ∨ off % 4 ≠ 0 then w
    else w.access by_ (pwrPage 16) fun w => w.setReg (pwrPage 16) (0x60 + g) (BitVec.ofNat 32 (iocfgValue g v.toNat)))

/-- The bounds of a glitch filter in ns (Table 25.4): below the first a level is ignored, from the second on it passes. -/
def filterNs (code : Nat) : Nat × Nat :=
  match code with
  | 0 => (20, 40)
  | 1 => (100, 200)
  | 2 => (1000, 2000)
  | _ => (10000, 20000)

/-- PIN_INPUT_EDGE. R28, R427: a level has been held for `held` ns; between the bounds the outcome is open. -/
def execPinInputEdge (pin held : Nat) (level : Bool) (s : State) : Host.Outcome State Fault Refusal :=
  .next (s.run fun w =>
    if 5 ≤ pin then w
    else
      let f := filterNs (w.get (pwrPage 16) (R.PWR_IOCFG_FILT.i pin))
      let take := fun (w : Work) => w.pwr fun q => { q with pinLevel := SMap.put false q.pinLevel pin level }
      if held < f.1 then w
      else if f.2 ≤ held then take w
      else
        let (x, w) := w.fresh
        if x.getLsbD 0 then take w else w)

end Sys2Proof.Machine
end

