-- ==== Sys2Proof/Machine/Completion.lean ====
section
/-!
DEFINITION. Completion.lean: the admission of an activity that waits (R379, R380), and the completion of a command (R38) with what its chapter lays on
that moment.
-/
namespace Sys2Proof.Machine

/-- What the admission of an activity that holds a command brings about (Table 21.5). -/
def Work.admitted (a : Activity) (c : Call) (w : Work) : Work :=
  match a.act with
  | 3 => if c.code = 0xB0 then w.scanStart a.scope else w.retrainStart a.scope
  | 6 => if c.code = 0x80 then w.storeStart c else if c.code = 0x81 then w.loadStart c else w.replStart c
  | 7 => if SMap.at 0 w.dev.pwr.bringUp a.scope = 0 then (w.finishAct 7 a.scope).settle c.page .done else w
  | 8 => (w.dumpStart (c.arg64 0)).settle c.page .done
  | 9 => w.stageStart c
  | _ => w

/-- The same for an activity that holds none: a link's removal, a sideband update. -/
def Work.admittedAlone (a : Activity) (w : Work) : Work :=
  match a.act with
  | 4 => if 8 ≤ a.scope then (w.removeLink a.scope).finishAct 4 a.scope else w
  | 9 => match w.dev.kmc.offers with
    | [] => w
    | o :: l => ((w.d fun d => { d with kmc := { d.kmc with offers := l } }).stagedImage (w.imageFound o)).finishAct 9 0
  | _ => w

/-- CAMPION_ADMIT. R379, R380: the first activity that may run starts; one whose command is gone ends at once. -/
def execCampionAdmit (s : State) : Host.Outcome State Fault Refusal :=
  .next (s.runNv fun w =>
    match firstAdmissible w [] w.dev.flt.pendingActs with
    | none => w
    | some a =>
      let w := w.admitAct a
      if a.page = 0 then w.admittedAlone a
      else match w.outCall (a.page - 1) with
        | some c => w.admitted a c
        | none => w.finishAct a.act a.scope)

/-- No SRV_SAMPLE is outstanding: the ring engines are at rest (R294). -/
def Work.sampleEnds (w : Work) : Work :=
  let others := (List.range 64).any fun i => match (w.page (seqPage (i / 4) (i % 4))).outst with | some o => o.code == 0x35 | none => false
  if others then w else (List.range 4).foldl (fun (w : Work) h => w.set (trgPage h) R.TRG_STS_ACTIVE 0) w

/-- What comes with the completion of a command of a page beside its status (Tables 5.9, 12.7 and 22.1; R389, R401). -/
def Work.completed (p code : Nat) (st : Status) (w : Work) : Work :=
  match typeOf p, code with
  | 4, 0x11 => match (w.page p).ctx with
    | some c => if (w.cfg c).waiting ∧ (w.cfg c).drainPage = p + 1 then w.checkDrained c else w
    | none => w
  | 4, 0x35 => w.sampleEnds
  | 4, 0x58 => if st = .done then w.ringFormed p else w
  | 4, 0x59 => if w.rstate p = 2 then (w.setRstate p 1).raise p 20 else w
  | 0x1D, 0x01 => w.dumpEnd
  | 0x1B, 0x10 => (w.stagedImage w.dev.kmc.found).finishAct 9 0
  | _, _ => w

/-- CMD_COMPLETION. R38: the final status of the outstanding command, once decided, is published; a load or store does its work here (R299, R301). -/
def execCmdCompletion (page : Nat) (s : State) : Host.Outcome State Fault Refusal :=
  .next (s.runNv fun w =>
    let w := if page = ldr0 then w.finishLoads else w
    match (w.page page).outst with
    | some o => match o.final with
      | some st => (w.complete page st).completed page o.code st
      | none => w
    | none => w)

end Sys2Proof.Machine
end

