-- ==== Sys2Proof/Machine/RegWrite.lean ====
section
/-!
DEFINITION. RegWrite.lean: writes to registers (R6, R29–R31), the commands that a write of CMD issues (R38), and the register accesses of a peer's
management core (R45).
-/
namespace Sys2Proof.Machine

/-! ### CMD (R38, R39) -/

/-- A command code that the block type does not have: UNKNOWN (R39). -/
def issueUnknown (q : Issue) (code : Nat) (s : State) : Host.Outcome State Fault Refusal :=
  .next (s.run fun w => w.command q { types := [], code := code } fun _ w => w)

/-- The write of CMD with a code on a page, by block type and code. -/
def issueCommand (q : Issue) (code : Nat) (s : State) : Host.Outcome State Fault Refusal :=
  match typeOf q.page, code with
  | _, 0xF0 => execCmdNop q s
  | _, 0xF1 => execClrCounters q s
  | 0x02, 0x30 => execMcSetpair q s
  | 0x02, 0x31 => execMcOpenwin q s
  | 0x02, 0x32 => execMcClosewin q s
  | 0x02, 0x33 => execMcWinret q s
  | 0x04, 0x10 => execCfgLoad q s
  | 0x04, 0x11 => execDrain q s
  | 0x04, 0x12 => execEpochBump q s
  | 0x04, 0x13 => execFenceRel q s
  | 0x04, 0x14 => execCfgClear q s
  | 0x04, 0x20 => execLnIssue q s
  | 0x04, 0x28 => execPfArm q s
  | 0x04, 0x29 => execPfAdvance q s
  | 0x04, 0x2C => execExrRoute q s
  | 0x04, 0x34 => execSrvForm q s
  | 0x04, 0x35 => execSrvSample q s
  | 0x04, 0x38 => execMdlOpen q s
  | 0x04, 0x3C => execCollRun q s
  | 0x04, 0x3E => execStepCommit q s
  | 0x04, 0x3F => execStepAbandon q s
  | 0x04, 0x58 => execRltForm q s
  | 0x04, 0x59 => execRltRun q s
  | 0x04, 0x5A => execRltAbandon q s
  | 0x04, 0x5B => execRltLeave q s
  | 0x05, 0x50 => execHwkRun q s
  | 0x06, 0x60 => execSkpPush q s
  | 0x12, 0x68 => execTslRun q s
  | 0x13, 0x80 => execLdrStore q s
  | 0x13, 0x81 => execMdlLoad q s
  | 0x13, 0x82 => execMdlReplace q s
  | 0x13, 0x83 => execMdlUnload q s
  | 0x13, 0x84 => execAdpLoad q s
  | 0x13, 0x85 => execAdpDrop q s
  | 0x13, 0x86 => execMdlQuery q s
  | 0x14, 0x70 => execTenSet q s
  | 0x14, 0x71 => execTenGet q s
  | 0x14, 0x72 => execRqtDump q s
  | 0x14, 0x73 => execRqtAdopt q s
  | 0x14, 0x74 => execRqtMigrate q s
  | 0x16, 0xB0 => execGylScan q s
  | 0x16, 0xB1 => execGylRetrain q s
  | 0x18, 0x90 => execBndCommit q s
  | 0x18, 0x91 => execBndQuery q s
  | 0x19, 0xA0 => execCtxCreate q s
  | 0x19, 0xA1 => execCtxStart q s
  | 0x19, 0xA2 => execCtxEnd q s
  | 0x19, 0xA3 => execCtxDeadline q s
  | 0x19, 0xA4 => execCtxQuery q s
  | 0x19, 0xA8 => execSpwLoad q s
  | 0x19, 0xA9 => execSpwStart q s
  | 0x19, 0xAA => execSpwStop q s
  | 0x19, 0xAB => execTenWeight q s
  | 0x1B, 0x10 => execKmcStage q s
  | 0x1C, 0x01 => execSetTime q s
  | 0x1D, 0x01 => execSnpDump q s
  | 0x1E, 0x20 => execPwrSetlimit q s
  | 0x1E, 0x21 => execPwrDomain q s
  | 0x1E, 0x22 => execPwrDiereset q s
  | 0x21, 0x40 => execPplRegionSet q s
  | 0x21, 0x41 => execPplRegionClear q s
  | _, _ => issueUnknown q code s

/-! ### Block-specific registers (R6) -/

/-- A value as its register stores it: the nearest limit where the register says so (R20, R25, R86, R158, R167, R232, R283, R335, R362, R392, R420).
`t`: block type, `off`: the register, `lo`: the field. -/
def storedValue (t off lo x : Nat) : Nat :=
  match t, off, lo with
  | 0x09, 0x150, 0 => clampNat 1 1000 x
  | 0x1C, 0x150, 0 => clampNat 10 10000 x
  | 0x08, 0x140, 0 => clampNat 10000 1000000 x
  | 0x08, 0x148, 0 => max 1 x
  | 0x10, 0x144, 0 => 0
  | 0x10, 0x144, 16 => clampNat 1 1000 x
  | 0x11, 0x144, 16 => clampNat 1 1000 x
  | 0x04, 0x308, 0 => clampNat 100 1000000 x
  | 0x04, 0x408, 0 => clampNat 1000 1000000 x
  | 0x04, 0x184, 0 => clampNat 10 1000000 x
  | 0x19, 0x144, 0 => min 1000000 x
  | 0x19, 0x154, 0 => clampNat 10 100000 x
  | 0x1D, 0x178, 0 => clampNat 6 20 x
  | 0x1E, 0x144, 0 => clampNat 600 850 x / 10 * 10
  | 0x14, 0x81C, 8 => if x = 3 then 2 else x
  | _, _, _ => x

/-- What a write makes of a register's word; `quiet`: its RWQ fields may be written. -/
def storeFields (t : Nat) (r : RegSpec) (quiet : Bool) (old x : Nat) : Nat :=
  r.flds.foldl (fun v f =>
    let y := bits x f.hi f.lo
    match f.acc with
    | .rw => setBits v f.hi f.lo (storedValue t r.off f.lo y)
    | .rwq => if quiet then setBits v f.hi f.lo (storedValue t r.off f.lo y) else v
    | .w1c => setBits v f.hi f.lo (bits old f.hi f.lo - (bits old f.hi f.lo &&& y))
    | _ => v) old

/-- The write of a register: its fields by their access codes; RWQ fields that may not be written are dropped (R6). -/
def Work.storeWord (p n : Nat) (r : RegSpec) (quiet : Bool) (v : Word) (w : Work) : Work :=
  let old := (w.reg p n).toNat
  let w := w.setReg p n (BitVec.ofNat 32 (storeFields (typeOf p) r quiet old v.toNat))
  if !quiet && typeOf p != 0x10 && r.flds.any (fun f => f.acc == .rwq) then w.dropWrite p n v else w

/-- The key that a context takes at its next bump: half of it written (R119). -/
def Work.writeSrKey (p n : Nat) (v : Word) (w : Work) : Work :=
  match (w.page p).ctx with
  | some c => w.modCfg c fun g =>
      let k := g.srNext.toNat
      { g with srNext := BitVec.ofNat 64 (if n % 2 = 0 then k / 2 ^ 32 * 2 ^ 32 + v.toNat else k % 2 ^ 32 + v.toNat * 2 ^ 32) }
  | none => w.setReg p n v

/-- The trace ring's place and size: fixed while TREN is 1, and every write of them is then dropped and reported (R6, R392). -/
def Work.writeTrace (n : Nat) (v : Word) (w : Work) : Work :=
  let p := snpPage 16
  match specAt p n with
  | none => w
  | some r =>
    let on := w.get p R.SNP_TRCFG_TREN == 1
    if !on then w.storeWord p n r true v
    else if n ≠ 0x5E then w.dropWrite p n v
    else (w.set p R.SNP_TRCFG_TREN (bits v.toNat 8 8)).dropWrite p n v

/-- A block-specific register without a step of its own. -/
def Work.blockWrite (p n : Nat) (v : Word) (w : Work) : Work :=
  match specAt p n with
  | none => w
  | some r =>
    let st := (w.page p).state
    let quiet := st == .idle || st == .quiesced
    match typeOf p, 4 * n with
    | 0x04, 0x160 => w.writeSrKey p n v
    | 0x04, 0x164 => w.writeSrKey p n v
    | 0x1D, 0x170 => w.writeTrace n v
    | 0x1D, 0x174 => w.writeTrace n v
    | 0x1D, 0x178 => w.writeTrace n v
    | 0x1E, 0x144 => (w.storeWord p n r quiet v).railRequest (dieOf p)
    | 0x19, _ =>
      let w := w.storeWord p n r quiet v
      if p = w.spwActing then w.setReg (spwPage (p = spwPage false)) n (w.reg p n) else w
    | _, _ => w.storeWord p n r quiet v

/-- A common register (Table 3.2). -/
def Work.commonWrite (by_ : Caller) (p o : Nat) (v : Word) (w : Work) : Work :=
  if 0x104 ≤ o ∧ o ≤ 0x130 then w.modPage p fun g => { g with args := g.args.set ((o - 0x104) / 4) v }
  else match o with
  | 0x00C => w.pageCtl by_ p v
  | 0x014 => w.evtClear p v
  | 0x018 => w.evtenWrite p v
  | 0x01C => w.modPage p fun g => { g with route := v &&& 0x07FF0003#32 }
  | 0x028 => w.errlogClear p v
  | 0x138 => w.modPage p fun g => { g with tag := v }
  | _ => w

/-- A register of a doorbell block without a step of its own: the window's base and the defaults of a submission (R283). -/
def Work.windowReg (by_ : Caller) (part n : Nat) (v : Word) (w : Work) : Work :=
  match specAt dbPage n with
  | none => w
  | some r => w.doorbell by_ part n v fun w => w.storeWord dbPage n r (!w.winOn part) v

/-- A write to offset `o` of a doorbell block (Table 16.8). -/
def writeDoorbell (by_ : Caller) (part o : Nat) (v : Word) (s : State) : Host.Outcome State Fault Refusal :=
  match o with
  | 0x00 => execDbSubtail by_ part v s
  | 0x04 => execDbEvhead by_ part v s
  | 0x08 => execDbTokhead by_ part v s
  | 0x14 => execDbWincfg by_ part v s
  | _ => .next (s.run fun w => w.windowReg by_ part ((0x800 + 32 * part + o) / 4) v)

/-- A write to a register: CMD issues, registers with a step of their own take it, the others store their fields. Through BAR0 a virtual function never
writes a doorbell block, only through its BAR2 (R46, R283). -/
def writeRegister (by_ : Caller) (off : Nat) (v : Word) (s : State) : Host.Outcome State Fault Refusal :=
  let p := off / 4096
  let o := off % 4096
  let t := typeOf p
  if off % 4 ≠ 0 then .next s
  else if bar2Base ≤ off then
    match bar2 by_ off with
    | some (part, o) => writeDoorbell by_ part o v s
    | none => .next s
  else if o = 0x100 then issueCommand { caller := by_, page := p, hi := BitVec.ofNat 24 (v.toNat / 256) } (v.toNat % 256) s
  else if o < 0x140 then .next (s.run fun w => w.access by_ p fun w => w.commonWrite by_ p o v)
  else if (t = 1 ∨ t = 2) ∧ 0x144 ≤ o ∧ o < 0x168 then execCellFoldWrite by_ off v s
  else if p = xltPage 0 ∧ 0x800 ≤ o then execXltT3mapWrite by_ off v s
  else if p = dbPage ∧ 0x800 ≤ o then
    match by_ with
    | .vf _ => .next (s.run fun w => w.access by_ p fun w => w)
    | _ => writeDoorbell by_ ((o - 0x800) / 32) ((o - 0x800) % 32) v s
  else if t = 0x16 ∧ o = 0x144 then
    if bit v.toNat 0 then execGylLinkEnable by_ (dieOf p - 16) (blockOf p).2 s else execGylLinkDisable by_ (dieOf p - 16) (blockOf p).2 s
  else if p = bndPage 0 ∧ 0x300 ≤ o ∧ o < 0x400 then execBndSpareWrite by_ off v s
  else if p = snpPage 16 ∧ o = 0x144 then execSnpTrig by_ v s
  else if p = pwrPage 16 ∧ 0x180 ≤ o ∧ o < 0x1A0 then execPwrIocfgWrite by_ off v s
  else .next (s.run fun w => w.access by_ p fun w => w.blockWrite p (o / 4) v)

/-- REGISTER_WRITE. R6. -/
def execRegisterWrite (by_ : Caller) (off : Nat) (v : Word) (s : State) : Host.Outcome State Fault Refusal := writeRegister by_ off v s

/-- PEER_REG_ACCESS. R45: a peer's management core accesses a register as this package's own would; another requester's access was refused where it was
sent. -/
def execPeerRegAccess (kmc wr : Bool) (off : Nat) (v : Word) (s : State) : Host.Outcome State Fault Refusal :=
  if !kmc then .next s
  else if wr then writeRegister .kmc off v s
  else .next (s.run fun w =>
    let (x, w) := w.readReg .kmc off
    w.d fun d => { d with bus := x })

end Sys2Proof.Machine
end

