-- ==== Sys2Proof/Machine/Dispatch.lean ====
section
/-!
DEFINITION. Dispatch.lean: the meaning of each command, one arm per constructor.
-/
namespace Sys2Proof.Machine

/-- The command's effect on everything but the queue. -/
def exec (i : Instr) (s : State) : Host.Outcome State Fault Refusal :=
  match i with
  | .registerWrite by_ off v => Sys2Proof.Machine.execRegisterWrite by_ off v s
  | .latchingLowRead by_ off => Sys2Proof.Machine.execLatchingLowRead by_ off s
  | .regAccessMisaligned by_ off bytes => Sys2Proof.Machine.execRegAccessMisaligned by_ off bytes s
  | .vfWriteDenied vf off v => Sys2Proof.Machine.execVfWriteDenied vf off v s
  | .pageEnable by_ page v => Sys2Proof.Machine.execPageEnable by_ page v s
  | .pageDisable by_ page v => Sys2Proof.Machine.execPageDisable by_ page v s
  | .pageQuiesce by_ page v => Sys2Proof.Machine.execPageQuiesce by_ page v s
  | .pageUnquiesce by_ page v => Sys2Proof.Machine.execPageUnquiesce by_ page v s
  | .pageBindLock by_ page v => Sys2Proof.Machine.execPageBindLock by_ page v s
  | .pageQuiesced page => Sys2Proof.Machine.execPageQuiesced page s
  | .pageEvtClear by_ page v => Sys2Proof.Machine.execPageEvtClear by_ page v s
  | .pageEvtenWrite by_ page v => Sys2Proof.Machine.execPageEvtenWrite by_ page v s
  | .errlogClear by_ page v => Sys2Proof.Machine.execErrlogClear by_ page v s
  | .cmdCompletion page => Sys2Proof.Machine.execCmdCompletion page s
  | .cmdNop q => Sys2Proof.Machine.execCmdNop q s
  | .clrCounters q => Sys2Proof.Machine.execClrCounters q s
  | .ddlLaneRepair die inst => Sys2Proof.Machine.execDdlLaneRepair die inst s
  | .ddlLinkRemove die inst => Sys2Proof.Machine.execDdlLinkRemove die inst s
  | .rtmIntervalEnd die rate temp mv => Sys2Proof.Machine.execRtmIntervalEnd die rate temp mv s
  | .rtmTempHigh die temp => Sys2Proof.Machine.execRtmTempHigh die temp s
  | .rtmCalibration die => Sys2Proof.Machine.execRtmCalibration die s
  | .tbclkLoss => Sys2Proof.Machine.execTbclkLoss s
  | .tbclkReturn => Sys2Proof.Machine.execTbclkReturn s
  | .tbclkQualified => Sys2Proof.Machine.execTbclkQualified s
  | .tbExchange t1 t2 t3 t4 => Sys2Proof.Machine.execTbExchange t1 t2 t3 t4 s
  | .timeMessage port t1 t2 t3 t4 => Sys2Proof.Machine.execTimeMessage port t1 t2 t3 t4 s
  | .setTime q => Sys2Proof.Machine.execSetTime q s
  | .tbStepMessage port diff => Sys2Proof.Machine.execTbStepMessage port diff s
  | .transferArrive die site net out slot => Sys2Proof.Machine.execTransferArrive die site net out slot s
  | .switchForward die site net src slot => Sys2Proof.Machine.execSwitchForward die site net src slot s
  | .steerFire die site net slot => Sys2Proof.Machine.execSteerFire die site net slot s
  | .microNop die site => Sys2Proof.Machine.execMicroNop die site s
  | .mov die site => Sys2Proof.Machine.execMov die site s
  | .waitt die site => Sys2Proof.Machine.execWaitt die site s
  | .ldbound die site => Sys2Proof.Machine.execLdbound die site s
  | .mma die site => Sys2Proof.Machine.execMma die site s
  | .mmaInit die site => Sys2Proof.Machine.execMmaInit die site s
  | .opbLoad die site => Sys2Proof.Machine.execOpbLoad die site s
  | .accDrain die site => Sys2Proof.Machine.execAccDrain die site s
  | .accClear die site => Sys2Proof.Machine.execAccClear die site s
  | .vop die site => Sys2Proof.Machine.execVop die site s
  | .mrd die site => Sys2Proof.Machine.execMrd die site s
  | .mwr die site => Sys2Proof.Machine.execMwr die site s
  | .mrdn die site => Sys2Proof.Machine.execMrdn die site s
  | .mwrn die site => Sys2Proof.Machine.execMwrn die site s
  | .mrdIdx die site => Sys2Proof.Machine.execMrdIdx die site s
  | .skipz die site => Sys2Proof.Machine.execSkipz die site s
  | .foldSlotSwitch die site => Sys2Proof.Machine.execFoldSlotSwitch die site s
  | .cellFoldWrite by_ off v => Sys2Proof.Machine.execCellFoldWrite by_ off v s
  | .drainTaken die site slot inp => Sys2Proof.Machine.execDrainTaken die site slot inp s
  | .fenceTaken die site slot inp => Sys2Proof.Machine.execFenceTaken die site slot inp s
  | .slotDrained die site slot => Sys2Proof.Machine.execSlotDrained die site slot s
  | .cfgLoad q => Sys2Proof.Machine.execCfgLoad q s
  | .cfgLoadDone page => Sys2Proof.Machine.execCfgLoadDone page s
  | .drain q => Sys2Proof.Machine.execDrain q s
  | .drainInject page => Sys2Proof.Machine.execDrainInject page s
  | .epochBump q => Sys2Proof.Machine.execEpochBump q s
  | .epochBumpTaken die site => Sys2Proof.Machine.execEpochBumpTaken die site s
  | .fenceRel q => Sys2Proof.Machine.execFenceRel q s
  | .cfgClear q => Sys2Proof.Machine.execCfgClear q s
  | .dldStall die ctx => Sys2Proof.Machine.execDldStall die ctx s
  | .spillComplete die => Sys2Proof.Machine.execSpillComplete die s
  | .bankRefill die site slot net inp => Sys2Proof.Machine.execBankRefill die site slot net inp s
  | .lnIssue q => Sys2Proof.Machine.execLnIssue q s
  | .lnIssueResume page => Sys2Proof.Machine.execLnIssueResume page s
  | .mcSetpair q => Sys2Proof.Machine.execMcSetpair q s
  | .mcOpenwin q => Sys2Proof.Machine.execMcOpenwin q s
  | .mcClosewin q => Sys2Proof.Machine.execMcClosewin q s
  | .mcWinret q => Sys2Proof.Machine.execMcWinret q s
  | .remoteWrite die ctx addr data => Sys2Proof.Machine.execRemoteWrite die ctx addr data s
  | .creditReq acc units => Sys2Proof.Machine.execCreditReq acc units s
  | .creditGrant acc units => Sys2Proof.Machine.execCreditGrant acc units s
  | .remoteLine acc off data => Sys2Proof.Machine.execRemoteLine acc off data s
  | .winRevoke acc => Sys2Proof.Machine.execWinRevoke acc s
  | .winRevokeConfirm acc balance => Sys2Proof.Machine.execWinRevokeConfirm acc balance s
  | .winCloseTimeout die mc win => Sys2Proof.Machine.execWinCloseTimeout die mc win s
  | .xltT3mapWrite by_ off v => Sys2Proof.Machine.execXltT3mapWrite by_ off v s
  | .t3Completion tag status data => Sys2Proof.Machine.execT3Completion tag status data s
  | .t3CompletionTimeout tag => Sys2Proof.Machine.execT3CompletionTimeout tag s
  | .hbmScrub gran corr unc => Sys2Proof.Machine.execHbmScrub gran corr unc s
  | .bulkScrub gran corr unc => Sys2Proof.Machine.execBulkScrub gran corr unc s
  | .bulkChannelFail ch => Sys2Proof.Machine.execBulkChannelFail ch s
  | .memTempHigh page temp => Sys2Proof.Machine.execMemTempHigh page temp s
  | .stackLoss stack => Sys2Proof.Machine.execStackLoss stack s
  | .pfArm q => Sys2Proof.Machine.execPfArm q s
  | .pfAdvance q => Sys2Proof.Machine.execPfAdvance q s
  | .pfDescStart page => Sys2Proof.Machine.execPfDescStart page s
  | .pfDescComplete page idx => Sys2Proof.Machine.execPfDescComplete page idx s
  | .stallNote page => Sys2Proof.Machine.execStallNote page s
  | .stallLimit page => Sys2Proof.Machine.execStallLimit page s
  | .share rq gen src r0 r1 => Sys2Proof.Machine.execShare rq gen src r0 r1 s
  | .grow rq gen n => Sys2Proof.Machine.execGrow rq gen n s
  | .replace rq gen row pages => Sys2Proof.Machine.execReplace rq gen row pages s
  | .setpaged rq gen n => Sys2Proof.Machine.execSetpaged rq gen n s
  | .dropall rq gen => Sys2Proof.Machine.execDropall rq gen s
  | .generationRetire rq => Sys2Proof.Machine.execGenerationRetire rq s
  | .pageZeroDone tag addr => Sys2Proof.Machine.execPageZeroDone tag addr s
  | .pageCompaction rq row => Sys2Proof.Machine.execPageCompaction rq row s
  | .pplRegionSet q => Sys2Proof.Machine.execPplRegionSet q s
  | .pplRegionClear q => Sys2Proof.Machine.execPplRegionClear q s
  | .hwkRun q => Sys2Proof.Machine.execHwkRun q s
  | .hwkJobTake die eng => Sys2Proof.Machine.execHwkJobTake die eng s
  | .hwkSteal die eng vdie veng => Sys2Proof.Machine.execHwkSteal die eng vdie veng s
  | .hwkBlock die eng => Sys2Proof.Machine.execHwkBlock die eng s
  | .hwkTaskComplete die eng => Sys2Proof.Machine.execHwkTaskComplete die eng s
  | .hwkListDone page => Sys2Proof.Machine.execHwkListDone page s
  | .rltForm q => Sys2Proof.Machine.execRltForm q s
  | .rltFormReply page fromSucc pkg gid p rank swlog nslot => Sys2Proof.Machine.execRltFormReply page fromSucc pkg gid p rank swlog nslot s
  | .rltRun q => Sys2Proof.Machine.execRltRun q s
  | .rltBlockArrive page data => Sys2Proof.Machine.execRltBlockArrive page data s
  | .rltFree page slot => Sys2Proof.Machine.execRltFree page slot s
  | .rltStateArrive page data => Sys2Proof.Machine.execRltStateArrive page data s
  | .rltCommitNotice page clen => Sys2Proof.Machine.execRltCommitNotice page clen s
  | .rltAbandon q => Sys2Proof.Machine.execRltAbandon q s
  | .rltAbandonMsg page => Sys2Proof.Machine.execRltAbandonMsg page s
  | .rltTimeout page => Sys2Proof.Machine.execRltTimeout page s
  | .rltLeave q => Sys2Proof.Machine.execRltLeave q s
  | .skpPush q => Sys2Proof.Machine.execSkpPush q s
  | .skpInternalPush die inst task => Sys2Proof.Machine.execSkpInternalPush die inst task s
  | .skpSteal die inst => Sys2Proof.Machine.execSkpSteal die inst s
  | .copy die inst => Sys2Proof.Machine.execCopy die inst s
  | .gather die inst => Sys2Proof.Machine.execGather die inst s
  | .scatter die inst => Sys2Proof.Machine.execScatter die inst s
  | .kvScatter die inst => Sys2Proof.Machine.execKvScatter die inst s
  | .stageFlush die inst => Sys2Proof.Machine.execStageFlush die inst s
  | .pageSplit die inst => Sys2Proof.Machine.execPageSplit die inst s
  | .expPack die inst => Sys2Proof.Machine.execExpPack die inst s
  | .expUnpack die inst => Sys2Proof.Machine.execExpUnpack die inst s
  | .reduce die inst => Sys2Proof.Machine.execReduce die inst s
  | .rltMerge die inst => Sys2Proof.Machine.execRltMerge die inst s
  | .fill die inst => Sys2Proof.Machine.execFill die inst s
  | .skpTaskComplete die inst => Sys2Proof.Machine.execSkpTaskComplete die inst s
  | .tslRun q => Sys2Proof.Machine.execTslRun q s
  | .tslRow hub inst => Sys2Proof.Machine.execTslRow hub inst s
  | .tslListDone page => Sys2Proof.Machine.execTslListDone page s
  | .exrRoute q => Sys2Proof.Machine.execExrRoute q s
  | .exrRouteServe hub => Sys2Proof.Machine.execExrRouteServe hub s
  | .dbSubtail by_ part v => Sys2Proof.Machine.execDbSubtail by_ part v s
  | .dbEvhead by_ part v => Sys2Proof.Machine.execDbEvhead by_ part v s
  | .dbTokhead by_ part v => Sys2Proof.Machine.execDbTokhead by_ part v s
  | .dbWincfg by_ part v => Sys2Proof.Machine.execDbWincfg by_ part v s
  | .submit part => Sys2Proof.Machine.execSubmit part s
  | .cancel part => Sys2Proof.Machine.execCancel part s
  | .pause part => Sys2Proof.Machine.execPause part s
  | .resume part => Sys2Proof.Machine.execResume part s
  | .release part => Sys2Proof.Machine.execRelease part s
  | .ringSet part => Sys2Proof.Machine.execRingSet part s
  | .rqtDump q => Sys2Proof.Machine.execRqtDump q s
  | .srvForm q => Sys2Proof.Machine.execSrvForm q s
  | .srvSample q => Sys2Proof.Machine.execSrvSample q s
  | .tenSet q => Sys2Proof.Machine.execTenSet q s
  | .tenGet q => Sys2Proof.Machine.execTenGet q s
  | .rqtMigrate q => Sys2Proof.Machine.execRqtMigrate q s
  | .migrateHold rq srcPkg part => Sys2Proof.Machine.execMigrateHold rq srcPkg part s
  | .migrateReply ok entry header => Sys2Proof.Machine.execMigrateReply ok entry header s
  | .migratePublish ok data => Sys2Proof.Machine.execMigratePublish ok data s
  | .migrateRelease rq ok => Sys2Proof.Machine.execMigrateRelease rq ok s
  | .tokenPublish ctx => Sys2Proof.Machine.execTokenPublish ctx s
  | .ldrStore q => Sys2Proof.Machine.execLdrStore q s
  | .mdlQuery q => Sys2Proof.Machine.execMdlQuery q s
  | .mdlLoad q => Sys2Proof.Machine.execMdlLoad q s
  | .mdlOpen q => Sys2Proof.Machine.execMdlOpen q s
  | .mdlReplace q => Sys2Proof.Machine.execMdlReplace q s
  | .mdlInplaceLayer model layer => Sys2Proof.Machine.execMdlInplaceLayer model layer s
  | .mdlRollingGroup model group => Sys2Proof.Machine.execMdlRollingGroup model group s
  | .mdlRetire model => Sys2Proof.Machine.execMdlRetire model s
  | .mdlUnload q => Sys2Proof.Machine.execMdlUnload q s
  | .adpLoad q => Sys2Proof.Machine.execAdpLoad q s
  | .adpDrop q => Sys2Proof.Machine.execAdpDrop q s
  | .bndCommit q => Sys2Proof.Machine.execBndCommit q s
  | .bndCommitStamp => Sys2Proof.Machine.execBndCommitStamp s
  | .bndQuery q => Sys2Proof.Machine.execBndQuery q s
  | .bndSpareWrite by_ off v => Sys2Proof.Machine.execBndSpareWrite by_ off v s
  | .granuleZeroDone tier gran => Sys2Proof.Machine.execGranuleZeroDone tier gran s
  | .vfFlr vf => Sys2Proof.Machine.execVfFlr vf s
  | .ctxCreate q => Sys2Proof.Machine.execCtxCreate q s
  | .ctxStart q => Sys2Proof.Machine.execCtxStart q s
  | .ctxEnd q => Sys2Proof.Machine.execCtxEnd q s
  | .ctxDeadline q => Sys2Proof.Machine.execCtxDeadline q s
  | .ctxQuery q => Sys2Proof.Machine.execCtxQuery q s
  | .spwLoad q => Sys2Proof.Machine.execSpwLoad q s
  | .spwStart q => Sys2Proof.Machine.execSpwStart q s
  | .spwStop q => Sys2Proof.Machine.execSpwStop q s
  | .tenWeight q => Sys2Proof.Machine.execTenWeight q s
  | .spwWindowStart => Sys2Proof.Machine.execSpwWindowStart s
  | .spwLeadPoint => Sys2Proof.Machine.execSpwLeadPoint s
  | .spwTurnEnd ctx => Sys2Proof.Machine.execSpwTurnEnd ctx s
  | .contextSaved ctx => Sys2Proof.Machine.execContextSaved ctx s
  | .contextRestored ctx => Sys2Proof.Machine.execContextRestored ctx s
  | .spwHeartbeatLoss => Sys2Proof.Machine.execSpwHeartbeatLoss s
  | .spwTakeover => Sys2Proof.Machine.execSpwTakeover s
  | .gylLinkEnable by_ hub inst => Sys2Proof.Machine.execGylLinkEnable by_ hub inst s
  | .gylLinkDisable by_ hub inst => Sys2Proof.Machine.execGylLinkDisable by_ hub inst s
  | .gylTrainDone hub inst lanes peer => Sys2Proof.Machine.execGylTrainDone hub inst lanes peer s
  | .gylTrainTimeout hub inst => Sys2Proof.Machine.execGylTrainTimeout hub inst s
  | .gylFecLockLoss hub inst => Sys2Proof.Machine.execGylFecLockLoss hub inst s
  | .gylFlitRx hub inst flit => Sys2Proof.Machine.execGylFlitRx hub inst flit s
  | .gylAckTimeout hub inst => Sys2Proof.Machine.execGylAckTimeout hub inst s
  | .gylRetrain q => Sys2Proof.Machine.execGylRetrain q s
  | .gylRetrainDone hub inst lanes => Sys2Proof.Machine.execGylRetrainDone hub inst lanes s
  | .gylRetrainTimeout hub inst => Sys2Proof.Machine.execGylRetrainTimeout hub inst s
  | .gylScan q => Sys2Proof.Machine.execGylScan q s
  | .gylScanEnd hub inst rec => Sys2Proof.Machine.execGylScanEnd hub inst rec s
  | .gylLaneFail hub inst lane => Sys2Proof.Machine.execGylLaneFail hub inst lane s
  | .gylLaneRemoval hub inst => Sys2Proof.Machine.execGylLaneRemoval hub inst s
  | .gylForward hub inst m => Sys2Proof.Machine.execGylForward hub inst m s
  | .gylRd m => Sys2Proof.Machine.execGylRd m s
  | .gylWr m => Sys2Proof.Machine.execGylWr m s
  | .gylAtom m => Sys2Proof.Machine.execGylAtom m s
  | .gylRdrsp m => Sys2Proof.Machine.execGylRdrsp m s
  | .gylWrack m => Sys2Proof.Machine.execGylWrack m s
  | .gylNack m => Sys2Proof.Machine.execGylNack m s
  | .peerRegAccess kmc wr off v => Sys2Proof.Machine.execPeerRegAccess kmc wr off v s
  | .peerFatal hub inst => Sys2Proof.Machine.execPeerFatal hub inst s
  | .collRun q => Sys2Proof.Machine.execCollRun q s
  | .collArrive page => Sys2Proof.Machine.execCollArrive page s
  | .collWait page => Sys2Proof.Machine.execCollWait page s
  | .collSend page => Sys2Proof.Machine.execCollSend page s
  | .collRecv page => Sys2Proof.Machine.execCollRecv page s
  | .collReduce page => Sys2Proof.Machine.execCollReduce page s
  | .collBcast page => Sys2Proof.Machine.execCollBcast page s
  | .collFuse page => Sys2Proof.Machine.execCollFuse page s
  | .collFence page => Sys2Proof.Machine.execCollFence page s
  | .collJump page => Sys2Proof.Machine.execCollJump page s
  | .collEnd page => Sys2Proof.Machine.execCollEnd page s
  | .collMsgReceive page m => Sys2Proof.Machine.execCollMsgReceive page m s
  | .collAbortMsg page inst => Sys2Proof.Machine.execCollAbortMsg page inst s
  | .collTimeout page => Sys2Proof.Machine.execCollTimeout page s
  | .stepCommit q => Sys2Proof.Machine.execStepCommit q s
  | .commitMirrorRecords ctx => Sys2Proof.Machine.execCommitMirrorRecords ctx s
  | .commitStamp ctx => Sys2Proof.Machine.execCommitStamp ctx s
  | .stepAbandon q => Sys2Proof.Machine.execStepAbandon q s
  | .containedFault ctx page code detail => Sys2Proof.Machine.execContainedFault ctx page code detail s
  | .teardownDone ctx => Sys2Proof.Machine.execTeardownDone ctx s
  | .vcoreOutOfRange die => Sys2Proof.Machine.execVcoreOutOfRange die s
  | .dieOvertemp die temp => Sys2Proof.Machine.execDieOvertemp die temp s
  | .spareCommit die => Sys2Proof.Machine.execSpareCommit die s
  | .railOutOfRange rail => Sys2Proof.Machine.execRailOutOfRange rail s
  | .pkgFatal cause => Sys2Proof.Machine.execPkgFatal cause s
  | .rqtAdopt q => Sys2Proof.Machine.execRqtAdopt q s
  | .campionRequest act scope => Sys2Proof.Machine.execCampionRequest act scope s
  | .campionAdmit => Sys2Proof.Machine.execCampionAdmit s
  | .cmpPendLong => Sys2Proof.Machine.execCmpPendLong s
  | .snpTrig by_ v => Sys2Proof.Machine.execSnpTrig by_ v s
  | .snpTimeTrigger => Sys2Proof.Machine.execSnpTimeTrigger s
  | .snapinEdge => Sys2Proof.Machine.execSnapinEdge s
  | .snapoutPulseEnd => Sys2Proof.Machine.execSnapoutPulseEnd s
  | .snpRelease by_ v => Sys2Proof.Machine.execSnpRelease by_ v s
  | .snpDump q => Sys2Proof.Machine.execSnpDump q s
  | .pcieConfigRequest fn reg wr v => Sys2Proof.Machine.execPcieConfigRequest fn reg wr v s
  | .bar4Access fn off wr data => Sys2Proof.Machine.execBar4Access fn off wr data s
  | .pcieLinkUp speed width flit => Sys2Proof.Machine.execPcieLinkUp speed width flit s
  | .pcieLinkDown => Sys2Proof.Machine.execPcieLinkDown s
  | .pfFlr => Sys2Proof.Machine.execPfFlr s
  | .kmcBootDone okA okB numA numB verA verB => Sys2Proof.Machine.execKmcBootDone okA okB numA numB verA verB s
  | .kmcStage q => Sys2Proof.Machine.execKmcStage q s
  | .pldmFwUpdate ok num ver => Sys2Proof.Machine.execPldmFwUpdate ok num ver s
  | .kmcHeartbeatTimeout => Sys2Proof.Machine.execKmcHeartbeatTimeout s
  | .i3cEntdaa addr => Sys2Proof.Machine.execI3cEntdaa addr s
  | .pldmRequest type cmd => Sys2Proof.Machine.execPldmRequest type cmd s
  | .sensorRefresh => Sys2Proof.Machine.execSensorRefresh s
  | .avsReadback hub vals => Sys2Proof.Machine.execAvsReadback hub vals s
  | .avsTimeout die => Sys2Proof.Machine.execAvsTimeout die s
  | .tapBypass => Sys2Proof.Machine.execTapBypass s
  | .tapIdcode => Sys2Proof.Machine.execTapIdcode s
  | .tapSample => Sys2Proof.Machine.execTapSample s
  | .tapExtest => Sys2Proof.Machine.execTapExtest s
  | .tapExtestPulse => Sys2Proof.Machine.execTapExtestPulse s
  | .tapExtestTrain => Sys2Proof.Machine.execTapExtestTrain s
  | .tapPreload => Sys2Proof.Machine.execTapPreload s
  | .powerOnReset => Sys2Proof.Machine.execPowerOnReset s
  | .porRelease => Sys2Proof.Machine.execPorRelease s
  | .computeDieReady die ok => Sys2Proof.Machine.execComputeDieReady die ok s
  | .hbmTrainingEnd failed => Sys2Proof.Machine.execHbmTrainingEnd failed s
  | .bulkTrainingEnd caps => Sys2Proof.Machine.execBulkTrainingEnd caps s
  | .deviceReady => Sys2Proof.Machine.execDeviceReady s
  | .warmReset => Sys2Proof.Machine.execWarmReset s
  | .warmResetRelease => Sys2Proof.Machine.execWarmResetRelease s
  | .pwrDomain q => Sys2Proof.Machine.execPwrDomain q s
  | .pwrSetlimit q => Sys2Proof.Machine.execPwrSetlimit q s
  | .pwrDiereset q => Sys2Proof.Machine.execPwrDiereset q s
  | .capPeriod => Sys2Proof.Machine.execCapPeriod s
  | .railSettled die mv => Sys2Proof.Machine.execRailSettled die mv s
  | .pwrIocfgWrite by_ off v => Sys2Proof.Machine.execPwrIocfgWrite by_ off v s
  | .pinInputEdge pin held level => Sys2Proof.Machine.execPinInputEdge pin held level s
  | .refclkLoss => Sys2Proof.Machine.execRefclkLoss s
  | .dieFatalUncError die unit => Sys2Proof.Machine.execDieFatalUncError die unit s
  | .rltFormTimeout page => Sys2Proof.Machine.execRltFormTimeout page s
  | .msixVectorUnmask fn vec => Sys2Proof.Machine.execMsixVectorUnmask fn vec s
  | .perstAssert => Sys2Proof.Machine.execPerstAssert s
  | .perstRelease => Sys2Proof.Machine.execPerstRelease s

end Sys2Proof.Machine
end

