-- ==== Sys2Proof/Safety.lean ====
section
/-!
DEFINITION. Safety.lean: the terms claims are made in: what it is for a command to be legal, what a page shows of it, what a command may touch, and the
invariants of a run.
-/
namespace Sys2Proof.Machine

/-! ### Commands of a page -/

/-- A caller's access reaches a page (R31, R46), and a way over the links is left for it (R12, R13). -/
abbrev State.reaches (s : State) (b : Caller) (p : Nat) : Prop :=
  s.work.reach b p = .ok ∧ (s.work.hubWay (s.work.callerDie b) (dieOf p)).isSome = true

/-- The issue reaches its page, and every common check of R39 passes. -/
abbrev State.legal (s : State) (q : Issue) (k : CmdSpec) : Prop := s.reaches q.caller q.page ∧ s.work.verdict q k = none

/-- Between any two hubs a ring way is left, so that no transfer fails for want of one (R13). -/
abbrev State.connected (s : State) : Prop := ∀ q, q < 4 → ∀ t, t < 4 → (s.work.ringWay q t).isSome = true

/-- ARGn of a page. -/
def State.arg (s : State) (p n : Nat) : Nat := ((s.work.page p).args.getD n 0).toNat

/-- ARGn and ARG(n + 1) of a page as one number. -/
def State.arg64 (s : State) (p n : Nat) : Nat := s.arg p n + 2 ^ 32 * s.arg p (n + 1)

/-- CMD_STS shows DONE in STATUS and FINAL with INPROG 0, and nothing is outstanding. -/
def State.showsDone (t : State) (p : Nat) : Prop := (t.work.page p).cmdSts = 0#32 ∧ (t.work.page p).outst = none

/-- CMD_STS shows ACCEPTED in STATUS and FINAL with INPROG 1, and the command with this code is outstanding, its final status `fin` if decided. -/
def State.showsAccepted (t : State) (p code : Nat) (fin : Option Status) : Prop :=
  (t.work.page p).cmdSts = 0x80000101#32 ∧ ∃ o, (t.work.page p).outst = some o ∧ o.code = code ∧ o.final = fin

/-- CMD_STS shows a refusal's code in STATUS and FINAL with INPROG 0, and the error log names it with the command. -/
def State.showsRefused (t : State) (p : Nat) (st : Status) : Prop :=
  (t.work.page p).cmdSts = BitVec.ofNat 32 (st.code * 257) ∧ (t.work.page p).outst = none

/-- PAGE_EVT bit b of a page is 1. -/
def State.hasEvent (t : State) (p b : Nat) : Prop := bit (t.work.page p).evt.toNat b = true

/-- The context of a page; 0 where it has none. -/
def State.pageCtx (s : State) (p : Nat) : Nat := (s.work.page p).ctx.getD 0

/-- A page has a context. -/
def State.hasCtx (s : State) (p : Nat) : Prop := (s.work.page p).ctx.isSome = true

/-- The context that owns a site; 0 where none does. -/
def State.ownerOf (s : State) (d site : Nat) : Nat := (s.work.siteCtx d site).getD 0

/-- A command with this code is outstanding on a page, its final status not yet decided. -/
def State.outstanding (s : State) (p code : Nat) : Prop := ((s.work.page p).outst.any fun o => o.code == code && o.final.isNone) = true

/-- The outstanding command of a page has its final status, which is published at its next completion (R38). -/
def State.decided (s t : State) (p : Nat) (st : Status) : Prop :=
  (t.work.page p).outst = (s.work.page p).outst.map fun o => { o with final := some st }

/-- The outstanding command of a page has been published with this final status (R38). -/
def State.published (t : State) (p : Nat) (st : Status) : Prop :=
  (t.work.page p).outst = none ∧ bits (t.work.page p).cmdSts.toNat 15 8 = st.code ∧ bit (t.work.page p).cmdSts.toNat 31 = false ∧ t.hasEvent p 1

/-- A bank of a control input has room and nothing of it is spilled. -/
def State.room (s : State) (d site slot inp : Nat) : Prop :=
  (s.work.slot (slotKey d site slot)).spilled (8 + inp) = [] ∧ ((s.work.slot (slotKey d site slot)).bank (8 + inp)).length < bankCap ((8 + inp) / 4)

/-! ### Frames -/

/-- The timebase, the fuses and boot flash, and the queue are as they were. -/
def SameOutside (s t : State) : Prop := t.now = s.now ∧ t.nv = s.nv ∧ t.pending = s.pending

/-- Every byte of memory reads as it did. -/
def SameMemory (s t : State) : Prop := ∀ a, t.mem.byte a = s.mem.byte a

/-- Every byte of memory outside [a, a + n) reads as it did. -/
def SameMemoryBut (s t : State) (a n : Nat) : Prop := ∀ x, x < a ∨ a + n ≤ x → t.mem.byte x = s.mem.byte x

/-- Every byte of data reads as it did; check symbols may have been corrected where a line was read (R155). -/
def SameData (s t : State) : Prop := ∀ a, a < 2 ^ 100 → t.mem.byte a = s.mem.byte a

/-- Every byte of data outside [a, a + n) reads as it did. -/
def SameDataBut (s t : State) (a n : Nat) : Prop := ∀ x, x < a ∨ a + n ≤ x → x < 2 ^ 100 → t.mem.byte x = s.mem.byte x

/-- The pages of the memory channels, whose MEM_ERRADDR tells of an error that a read finds (R155, R156). -/
def memPages : List Nat := (List.range 20).map stackPage ++ (List.range 16).map chanPage

/-- Every block-specific register reads as it did, but for those of the pages named and the SNP page of HD0, which an event may trigger. -/
def SameRegsBut (s t : State) (ps : List Nat) : Prop :=
  ∀ p n, p ∉ ps → p ≠ snpPage 16 → n < 1024 → t.work.reg p n = s.work.reg p n

/-- No page but those named changes its state, its owner or its commands. -/
def SamePagesBut (s t : State) (ps : List Nat) : Prop :=
  ∀ p, p ∉ ps → (t.work.page p).state = (s.work.page p).state ∧ (t.work.page p).owner = (s.work.page p).owner ∧
    (t.work.page p).bindLock = (s.work.page p).bindLock ∧ (t.work.page p).cmdSts = (s.work.page p).cmdSts ∧
    (t.work.page p).outst = (s.work.page p).outst ∧ (t.work.page p).args = (s.work.page p).args

/-- Contexts are as they were, but for the events delivered to them. -/
def SameContexts (s t : State) : Prop := ∀ c, { t.work.ctx c with events := [] } = { s.work.ctx c with events := [] }

/-- Nothing stored, no context changed, and only the pages and registers named. -/
def FrameBut (s t : State) (pages regs : List Nat) : Prop :=
  SamePagesBut s t pages ∧ SameRegsBut s t regs ∧ SameContexts s t ∧ SameMemory s t ∧ SameOutside s t

/-- The same for a command that reads memory lines. -/
def ReadFrame (s t : State) (pages regs : List Nat) : Prop :=
  SamePagesBut s t pages ∧ SameRegsBut s t (regs ++ memPages) ∧ SameContexts s t ∧ SameData s t ∧ SameOutside s t

/-! ### Invariants -/

/-- The byte memory is in its one canonical form. -/
def State.memWf (s : State) : Prop := Memory.wf s.mem = true

end Sys2Proof.Machine
end

