-- ==== Sys2Proof/Certificates/Slice0/Obligations.lean ====
section
/-!
DEFINITION. Obligations.lean: the statements for the provers. OBLIGATIONS.json says of each what it formalises.
-/
open Sys2Proof Sys2Proof.Machine

/-! ### Units that read and write memory -/

/-- What the unit of a page does for a context can come to its end: a way to every hub is left, and no stall of the unit has reached its limit (R13, R166). -/
def unitClear (s : State) (p c : Nat) : Prop :=
  s.connected ∧ dieOf p < 20 ∧
    ∀ q ∈ s.work.stallPage (dieOf p) c, ∀ x ∈ s.work.stallsOf q, x.kind = 16 + p → s.work.stallLate q x = false

/-- Ranges of memory that can be read at once and are not poisoned (R156, R157). -/
def readyRanges (w : Work) (l : List (Nat × Nat)) : Prop :=
  ∀ x ∈ l, w.poisoned x.1 x.2 = false ∧ ∀ y ∈ linesIn x.1 x.2, w.lineWait y = 0

/-- Ranges of memory for which no access has to wait (R157, R320). -/
def freeRanges (w : Work) (l : List (Nat × Nat)) : Prop := ∀ x ∈ l, ∀ y ∈ linesIn x.1 x.2, w.lineWait y = 0

/-- Two ranges have no byte in common. -/
def apart (a n b m : Nat) : Prop := a + n ≤ b ∨ b + m ≤ a

/-- Bytes of a table (R171). -/
def tabBytes (s : State) (rq : Nat) : Nat := 128 + 16 * s.work.tRowcap (s.work.tab rq) * s.work.tPlanes (s.work.tab rq)

/-- The pages that tell of what a unit reads: those of the memories, and the SEQ page that keeps its stall (R156, R165). -/
def unitRegs (s : State) (p c : Nat) : List Nat := (s.work.stallPage (dieOf p) c).toList ++ memPages

/-- No region of the package is mirrored (R377). -/
def noMirror (s : State) : Prop := ∀ t, t < 16 → s.work.regValid t = true → s.work.regMirror t = false

/-- The GO of a context, of its fabric epoch (R74); there is room for it where a GO entry names a site, or it is stale there; and it has been put there. -/
def goToken (s : State) (c : Nat) : Xfer := { epoch := (s.work.ctx c).epoch.toNat, data := 1 + 256 * (s.work.ctx c).epoch.toNat }
def goFree (s : State) (c : Nat) (g : Option GoSite) : Prop :=
  ∀ x ∈ g, s.work.siteCtx x.die x.site = some c → s.work.stale x.die x.site (s.work.ctx c).epoch.toNat = false →
    s.room x.die x.site x.slot x.inp
def goGiven (s t : State) (c : Nat) (g : Option GoSite) : Prop :=
  ∀ x ∈ g, s.work.siteCtx x.die x.site = some c → s.work.stale x.die x.site (s.work.ctx c).epoch.toNat = false →
    (t.work.slot (slotKey x.die x.site x.slot)).bank (8 + x.inp) = (s.work.slot (slotKey x.die x.site x.slot)).bank (8 + x.inp) ++ [goToken s c]

/-! ### Step and run (chapters 0, 23) -/

/-- With a command at the front of the queue, a step is that command's effect on the machine with the rest of the queue. -/
def Obligations.StepRunsFrontCommand : Prop :=
  ∀ (s : State) (c : Instr) (rest : List Instr), step { s with pending := c :: rest } = exec c { s with pending := rest }

/-- With no command waiting, a step is one nanosecond: the timebase counts, modulo 2^64, once its root runs (log entry 3); while it slews, every ten thousandth
nanosecond counts twice or not at all until the offset is made up (log entry 11). Nothing else changes. -/
def Obligations.IdleStepCountsTime : Prop :=
  ∀ s : State, s.pending = [] →
    ∃ t, step s = .next t ∧ t.dev = { s.dev with time := t.dev.time } ∧ t.mem = s.mem ∧ t.nv = s.nv ∧ t.shadow = s.shadow ∧ t.pending = [] ∧
      (s.dev.time.counting = false → t = s) ∧
      (s.dev.time.counting = true → s.dev.time.slew = 0 → t.now = s.now + 1 ∧ t.dev = s.dev) ∧
      (s.dev.time.counting = true → s.dev.time.slew ≠ 0 → s.dev.time.slewAge + 1 < 10000 →
        t.now = s.now + 1 ∧ t.dev.time = { s.dev.time with slewAge := s.dev.time.slewAge + 1 }) ∧
      (s.dev.time.counting = true → s.dev.time.slew ≠ 0 → 10000 ≤ s.dev.time.slewAge + 1 →
        t.now = s.now + (if s.dev.time.slew = 1 then 2 else 0) ∧ t.dev.time.slewAge = 0 ∧ t.dev.time.slewLeft = s.dev.time.slewLeft - 1 ∧
        t.dev.time.slew = (if s.dev.time.slewLeft ≤ 1 then 0 else s.dev.time.slew))

/-- No command of the table stops the machine: each answers a next state, from every state and with every operand. -/
def Obligations.EveryCommandAnswers : Prop := ∀ (i : Instr) (s : State), ∃ t, exec i s = .next t

/-- A command changes the queue of waiting commands in no way. -/
def Piece.CommandsLeaveTheQueue : Prop := ∀ (i : Instr) (s t : State), exec i s = .next t → t.pending = s.pending

/-- The byte memory keeps its one canonical form in every step, from every state that has it. -/
def Obligations.MemoryStaysCanonical : Prop := ∀ s t : State, s.memWf → step s = .next t → t.memWf

/-- The machine after reset has the invariants that steps keep, and nothing waits. -/
def Obligations.ResetHasInvariants : Prop :=
  State.reset.memWf ∧ State.reset.pending = [] ∧ (∀ a, State.reset.mem.byte a = 0#8) ∧ (∀ p, (State.reset.work.page p).state = .off) ∧
    (∀ c, (State.reset.work.ctx c).state = .none)

/-- The commands that may move the timebase otherwise than by counting (R24, R25, R410); a write of CMD may issue SET_TIME. -/
def movesTime : Instr → Bool
  | .setTime _ => true
  | .tbExchange _ _ _ _ => true
  | .timeMessage _ _ _ _ _ => true
  | .tbStepMessage _ _ => true
  | .porRelease => true
  | .registerWrite _ off _ => off % 4096 == 0x100
  | .peerRegAccess _ _ off _ => off % 4096 == 0x100
  | _ => false

/-- Every other command leaves the timebase where it is. -/
def Piece.OnlyTimeCommandsMoveTime : Prop :=
  ∀ (i : Instr) (s t : State), movesTime i = false → exec i s = .next t → t.now = s.now

/-- The commands that may write the fuses or the boot flash (R400, R401). -/
def writesFlash : Instr → Bool
  | .kmcBootDone _ _ _ _ _ _ => true
  | .pldmFwUpdate _ _ _ => true
  | .campionAdmit => true
  | .cmdCompletion _ => true
  | _ => false

/-- Every other command leaves fuses and boot flash as they are, resets included (R417). -/
def Piece.OnlyFirmwareCommandsWriteFlash : Prop :=
  ∀ (i : Instr) (s t : State), writesFlash i = false → exec i s = .next t → t.nv = s.nv

/-- The queue is changed by no command, the timebase and the boot contents only by the commands that may. -/
def Obligations.OutsideOfTheDevice : Prop := Piece.CommandsLeaveTheQueue ∧ Piece.OnlyTimeCommandsMoveTime ∧ Piece.OnlyFirmwareCommandsWriteFlash

/-! ### Block pages (chapter 3) -/

/-- PAGE_CTL: the listed transitions of Table 3.4 are taken and set STATE_CHG; only the physical function and the management core change BIND_LOCK; a
QUIESCING block whose work has stopped is QUIESCED. Nothing of another page and no byte of memory changes. -/
def Piece.PageControlTransitions : Prop :=
  (∀ (s : State) (b : Caller) (p : Nat) (v : Word), s.reaches b p → (s.work.page p).state = .off → bit v.toNat 0 = true →
    bit v.toNat 1 = false → ∃ t, exec (.pageEnable b p v) s = .next t ∧ (t.work.page p).state = .idle ∧ t.hasEvent p 2 ∧
      SamePagesBut s t [p] ∧ SameRegsBut s t [p] ∧ SameContexts s t ∧ SameMemory s t ∧ SameOutside s t) ∧
  (∀ (s : State) (b : Caller) (p : Nat) (v : Word), s.reaches b p → (s.work.page p).state = .idle → bit v.toNat 0 = false →
    bit v.toNat 1 = false → ∃ t, exec (.pageDisable b p v) s = .next t ∧ (t.work.page p).state = .off ∧ t.hasEvent p 2 ∧
      SamePagesBut s t [p] ∧ SameRegsBut s t [] ∧ SameContexts s t ∧ SameMemory s t ∧ SameOutside s t) ∧
  (∀ (s : State) (b : Caller) (p : Nat) (v : Word), s.reaches b p → (s.work.page p).state = .running → bit v.toNat 0 = true →
    bit v.toNat 1 = true → ∃ t, exec (.pageQuiesce b p v) s = .next t ∧ (t.work.page p).state = .quiescing ∧ t.hasEvent p 2 ∧
      SamePagesBut s t [p] ∧ SameRegsBut s t [] ∧ SameContexts s t ∧ SameMemory s t ∧ SameOutside s t) ∧
  (∀ (s : State) (b : Caller) (p : Nat) (v : Word), s.reaches b p → (s.work.page p).state = .quiesced → bit v.toNat 0 = true →
    bit v.toNat 1 = false → ∃ t, exec (.pageUnquiesce b p v) s = .next t ∧ (t.work.page p).state = .running ∧ t.hasEvent p 2 ∧
      SamePagesBut s t [p] ∧ SameRegsBut s t [] ∧ SameContexts s t ∧ SameMemory s t ∧ SameOutside s t) ∧
  (∀ (s : State) (b : Caller) (p : Nat) (v : Word), s.reaches b p → bit v.toNat 0 = (s.work.page p).state.enableBit →
    bit v.toNat 1 = (s.work.page p).state.quiesceBit → ∃ t, exec (.pageBindLock b p v) s = .next t ∧
      (t.work.page p).bindLock = (if privileged b then bit v.toNat 2 else (s.work.page p).bindLock) ∧
      (t.work.page p).state = (s.work.page p).state ∧ (t.work.page p).evt = (s.work.page p).evt ∧
      SamePagesBut s t [p] ∧ SameRegsBut s t [] ∧ SameContexts s t ∧ SameMemory s t ∧ SameOutside s t) ∧
  (∀ (s : State) (p : Nat), (s.work.page p).state = .quiescing →
    (typeOf p = 5 → (s.work.eng (engKey (dieOf p) (blockOf p).2)).cur = none) → s.work.tlist p = none → ∃ t, exec (.pageQuiesced p) s = .next t ∧
      (t.work.page p).state = .quiesced ∧ t.hasEvent p 2 ∧ SamePagesBut s t [p] ∧ SameRegsBut s t [] ∧ SameContexts s t ∧ SameMemory s t ∧
      SameOutside s t)

/-- A PAGE_CTL write that asks for a transition Table 3.4 does not list is dropped: the state and BIND_LOCK stay, WR_STATE and ERR are set. -/
def Piece.UnlistedTransitionIsDropped : Prop :=
  ∀ (s : State) (b : Caller) (p : Nat) (v : Word), s.reaches b p →
    ctlTarget (s.work.page p).state (bit v.toNat 0) (bit v.toNat 1) = none →
    ∃ t, exec (.registerWrite b (p * 4096 + 12) v) s = .next t ∧ (t.work.page p).state = (s.work.page p).state ∧
      (t.work.page p).bindLock = (s.work.page p).bindLock ∧ t.hasEvent p 0 ∧ t.hasEvent p 3 ∧ SamePagesBut s t [] ∧ SameRegsBut s t [] ∧
      SameContexts s t ∧ SameMemory s t ∧ SameOutside s t

/-- Writes of PAGE_EVT and PAGE_ERRLOG1 clear what they name, a write of PAGE_EVTEN stores its implemented bits; a vector the host unmasks is unmasked, and
the message that waited for it is no longer held. -/
def Piece.EventAndLogWrites : Prop :=
  (∀ (s : State) (b : Caller) (p : Nat) (v : Word), s.reaches b p → ∃ t, exec (.pageEvtClear b p v) s = .next t ∧
      (t.work.page p).evt = (s.work.page p).evt &&& ~~~v ∧ SamePagesBut s t [] ∧ SameRegsBut s t [] ∧ SameContexts s t ∧ SameMemory s t ∧
      SameOutside s t) ∧
  (∀ (s : State) (b : Caller) (p : Nat) (v : Word), s.reaches b p → ∃ t, exec (.pageEvtenWrite b p v) s = .next t ∧
      (t.work.page p).evten = v &&& 0xFFFF001F#32 ∧ SamePagesBut s t [] ∧ SameRegsBut s t [] ∧ SameContexts s t ∧ SameMemory s t ∧
      SameOutside s t) ∧
  (∀ (s : State) (b : Caller) (p : Nat) (v : Word), s.reaches b p → bit v.toNat 31 = true →
    ∃ t, exec (.errlogClear b p v) s = .next t ∧ bits (t.work.page p).log1.toNat 31 31 = 0 ∧ bits (t.work.page p).log1.toNat 10 10 = 0 ∧
      bits (t.work.page p).log1.toNat 30 11 = bits (s.work.page p).log1.toNat 30 11 ∧ (t.work.page p).log0 = (s.work.page p).log0 ∧
      SamePagesBut s t [] ∧ SameRegsBut s t [] ∧ SameContexts s t ∧ SameMemory s t ∧ SameOutside s t) ∧
  (∀ (s : State) (fn vec : Nat), SMap.at false s.dev.host.fnMask fn = false → SMap.at false s.dev.host.msixEn fn = true →
    ∃ t, exec (.msixVectorUnmask fn vec) s = .next t ∧ SMap.at false t.dev.host.unmasked (fn * 2048 + vec) = true ∧
      SMap.at false t.dev.host.pendVec (fn * 2048 + vec) = false ∧
      t.dev.host.out = s.dev.host.out ++ (if SMap.at false s.dev.host.pendVec (fn * 2048 + vec) then [.msix fn vec] else []) ∧
      SamePagesBut s t [] ∧ SameRegsBut s t [] ∧ SameContexts s t ∧ SameMemory s t ∧ SameOutside s t)

/-- An error logged replaces the one before: DETAIL, WORD, CODE, CMD, the block state and VALID stand in the log, MORE tells of a log that was valid, and the
stamp is the timebase. Here by an access that is not an aligned word (code UNKNOWN), whoever makes it. -/
def Piece.ErrorLogRecordsTheLatest : Prop :=
  ∀ (s : State) (b : Caller) (off bytes : Nat), ¬(bytes = 4 ∧ off % 4 = 0) → s.work.reach b (off / 4096) ≠ .ignored → s.work.live (off / 4096) = true →
    (s.work.hubWay (s.work.callerDie b) (dieOf (off / 4096))).isSome = true →
    (s.work.page (off / 4096)).evten = 0#32 → s.work.get (snpPage 16) R.SNP_CTL_EVTEN = 0 →
    ∃ t, exec (.regAccessMisaligned b off bytes) s = .next t ∧ t.dev.bus = 0#32 ∧
      bits (t.work.page (off / 4096)).log1.toNat 9 0 = off % 4096 / 4 ∧
      bit (t.work.page (off / 4096)).log1.toNat 10 = bit (s.work.page (off / 4096)).log1.toNat 31 ∧
      bits (t.work.page (off / 4096)).log1.toNat 19 12 = 0x1F ∧ bits (t.work.page (off / 4096)).log1.toNat 27 20 = 0 ∧
      bits (t.work.page (off / 4096)).log1.toNat 30 28 = (s.work.page (off / 4096)).state.code ∧
      bit (t.work.page (off / 4096)).log1.toNat 31 = true ∧
      (t.work.page (off / 4096)).log2 = BitVec.ofNat 32 s.now.toNat ∧ (t.work.page (off / 4096)).log3 = BitVec.ofNat 32 (s.now.toNat / 2 ^ 32) ∧
      t.hasEvent (off / 4096) 3 ∧ SamePagesBut s t [] ∧ SameRegsBut s t [] ∧ SameContexts s t ∧ SameMemory s t ∧ SameOutside s t

/-- The common commands: NOP answers DONE and does nothing else; CLR_COUNTERS clears the counters ARG0 names and no other (the transfers of the access itself
count on the links); a completion publishes the final status with INPROG 0 and CMD_DONE, whatever the command. -/
def Obligations.CommonCommands : Prop :=
  (∀ (s : State) (q : Issue), s.legal q nopSpec → ∃ t, exec (.cmdNop q) s = .next t ∧ t.showsDone q.page ∧ SamePagesBut s t [q.page] ∧
      SameRegsBut s t [] ∧ SameContexts s t ∧ SameMemory s t ∧ SameOutside s t) ∧
  (∀ (s : State) (q : Issue), s.legal q clrSpec → ∃ t, exec (.clrCounters q) s = .next t ∧ t.showsDone q.page ∧
      (∀ n, n < 8 → bit (s.arg q.page 0) n = true → t.work.ctr q.page n = 0#64) ∧
      (∀ p n, n < 8 → p ≠ q.page ∨ bit (s.arg q.page 0) n = false → typeOf p ≠ 7 ∨ 2 ≤ n → t.work.ctr p n = s.work.ctr p n) ∧ SamePagesBut s t [q.page] ∧ SameRegsBut s t [q.page] ∧ SameContexts s t ∧
      SameMemory s t ∧ SameOutside s t) ∧
  (∀ (s : State) (p : Nat) (o : Outst) (st : Status), typeOf p = 5 → (s.work.page p).outst = some o → o.final = some st → o.code = 0x50 →
    (s.work.page p).ctx = none → ∃ t, exec (.cmdCompletion p) s = .next t ∧ (t.work.page p).outst = none ∧
      bits (t.work.page p).cmdSts.toNat 15 8 = st.code ∧ bit (t.work.page p).cmdSts.toNat 31 = false ∧ t.hasEvent p 1 ∧
      SamePagesBut s t [p] ∧ SameRegsBut s t [] ∧ SameContexts s t ∧ SameMemory s t ∧ SameOutside s t) ∧
  (∀ (s : State) (p : Nat), ((s.work.page p).outst.bind (·.final)).isSome = true → ∃ t, exec (.cmdCompletion p) s = .next t ∧
      t.published p (((s.work.page p).outst.bind (·.final)).getD .done) ∧ SameMemory s t ∧ t.now = s.now ∧ t.pending = s.pending)

/-- A command that a common check refuses has no side effect: its status is in STATUS and FINAL, and nothing of another page, no register, no context and no
byte of memory changes. -/
def Obligations.RefusedCommandHasNoEffect : Prop :=
  ∀ (s : State) (q : Issue) (st : Status), s.work.reach q.caller q.page = .ok → s.work.verdict q setpairSpec = some st → st ≠ .busy →
    (s.work.page q.page).outst = none → ∃ t, exec (.mcSetpair q) s = .next t ∧ t.showsRefused q.page st ∧ t.hasEvent q.page 3 ∧
      SamePagesBut s t [q.page] ∧ SameRegsBut s t [] ∧ SameContexts s t ∧ SameMemory s t ∧ SameOutside s t

/-- PAGE_CTL: the transitions of Table 3.4, and a transition that is not listed. -/
def Obligations.PageControl : Prop := Piece.PageControlTransitions ∧ Piece.UnlistedTransitionIsDropped

/-- The event registers and the error log of a page. -/
def Obligations.EventsAndErrorLog : Prop := Piece.EventAndLogWrites ∧ Piece.ErrorLogRecordsTheLatest

/-! ### Rate monitor, timebase, in-package links, maintenance (chapters 1, 2, 21) -/

/-- The end of an RTM interval of a die whose monitor is on: the three measurements are shown, EV_RATE_LOW tells of a rate below THRESH, and the floor is the
guaranteed rate of Table 2.1 at the settled voltage less 6 per cent. A temperature is shown and EV_TEMP_HIGH tells of 100 degrees being reached. No other
register but the published bounds (of the die's pages, and of the sequencers whose contexts span it), no page, no context and no byte of memory changes. -/
def Obligations.RateMonitorInterval : Prop :=
  (∀ (s : State) (d rate temp mv : Nat), s.work.rtmOn d = true → d < 16 → rate < 2 ^ 16 → temp < 2 ^ 12 → mv < 2 ^ 12 →
    ∃ t, exec (.rtmIntervalEnd d rate temp mv) s = .next t ∧ t.work.get (rtmPage d) R.RTM_RATE_RATE = rate ∧
      t.work.get (rtmPage d) R.RTM_VOLT_VOLT = mv ∧ t.work.get (rtmPage d) R.RTM_TEMP_TEMP = temp ∧
      t.work.get (rtmPage d) R.RTM_FLOOR_FLOOR = rate65 (s.work.settledMv d) * 94 / 100 ∧
      (s.work.get (rtmPage d) R.RTM_CFG_THRESH ≠ 0 ∧ rate < s.work.get (rtmPage d) R.RTM_CFG_THRESH →
        t.hasEvent (rtmPage d) 16 ∧ t.work.ctr (rtmPage d) 0 = s.work.ctr (rtmPage d) 0 + 1) ∧
      (rate ≥ s.work.get (rtmPage d) R.RTM_CFG_THRESH → t.work.ctr (rtmPage d) 0 = s.work.ctr (rtmPage d) 0) ∧
      (∀ p n, dieOf p ≠ d → typeOf p ≠ 4 → p ≠ snpPage 16 → n < 1024 → t.work.reg p n = s.work.reg p n) ∧
      SamePagesBut s t [] ∧ SameContexts s t ∧ SameMemory s t ∧ SameOutside s t) ∧
  (∀ (s : State) (d temp : Nat), s.work.rtmOn d = true → temp < 2 ^ 12 → ∃ t, exec (.rtmTempHigh d temp) s = .next t ∧
      t.work.get (rtmPage d) R.RTM_TEMP_TEMP = temp ∧
      (toSigned 12 temp ≥ 400 → toSigned 12 (s.work.get (rtmPage d) R.RTM_TEMP_TEMP) < 400 → t.hasEvent (rtmPage d) 17) ∧
      SameRegsBut s t [rtmPage d] ∧ SamePagesBut s t [] ∧ SameContexts s t ∧ SameMemory s t ∧ SameOutside s t) ∧
  (∀ (s : State) (d : Nat), s.work.rtmOn d = true → s.work.runs 7 d = true → ∃ t, exec (.rtmCalibration d) s = .next t ∧
      t.work.runs 7 d = false ∧ SameRegsBut s t [cmpPage 0] ∧ SamePagesBut s t [] ∧ SameContexts s t ∧ SameMemory s t ∧ SameOutside s t)

/-- TBCLK: loss clears TBCLK_OK and sets its event; edges that return are first qualified; a qualified TBCLK sets TBCLK_OK again without an event and without
a step of the timebase. -/
def Piece.TbclkLossAndReturn : Prop :=
  (∀ s : State, s.work.get tmb R.TMB_STS_TBCLK_OK = 1 → ∃ t, exec .tbclkLoss s = .next t ∧ t.work.get tmb R.TMB_STS_TBCLK_OK = 0 ∧
      t.hasEvent tmb 16 ∧ t.dev.time.edges = false ∧ t.dev.time.qualifying = false ∧ SameRegsBut s t [tmb] ∧ SamePagesBut s t [] ∧
      SameContexts s t ∧ SameMemory s t ∧ SameOutside s t) ∧
  (∀ s : State, s.work.get tmb R.TMB_STS_TBCLK_OK = 0 → ∃ t, exec .tbclkReturn s = .next t ∧ t.dev.time.qualifying = true ∧
      t.work.get tmb R.TMB_STS_TBCLK_OK = 0 ∧ SameRegsBut s t [] ∧ SamePagesBut s t [] ∧ SameContexts s t ∧ SameMemory s t ∧ SameOutside s t) ∧
  (∀ s : State, s.dev.time.qualifying = true → ∃ t, exec .tbclkQualified s = .next t ∧ t.work.get tmb R.TMB_STS_TBCLK_OK = 1 ∧
      t.dev.time.qualifying = false ∧ (∀ p, t.work.page p = s.work.page p) ∧ SameRegsBut s t [tmb] ∧ SameContexts s t ∧ SameMemory s t ∧
      SameOutside s t)

/-- The exchange of a follower that has locked: TMB_STS.OFFSET and CNT_EXCHANGE, no step of the timebase; beyond 2 microseconds lock is lost with its event.
A master counts a time message and ignores it. SET_TIME moves the timebase forward to ARG0–ARG1, never back, and is refused SHAPE where it would; a step
message adds its difference and keeps LOCKED. -/
def Piece.TimebaseMessages : Prop :=
  (∀ (s : State) (t1 t2 t3 t4 : DWord), s.work.upstream ≠ 0 → s.dev.time.counting = true →
    s.dev.time.lastMsg + 1000 * s.work.get tmb R.TMB_MSG_PERIOD_PERIOD ≤ s.now.toNat → s.dev.time.everLocked = true → s.work.get tmb R.TMB_STS_LOCKED = 1 →
    ∃ t, exec (.tbExchange t1 t2 t3 t4) s = .next t ∧ t.now = s.now ∧
      t.work.get tmb R.TMB_STS_OFFSET = offsetField (tbOffset t1 t2 t3 t4) ∧ t.work.ctr tmb 1 = s.work.ctr tmb 1 + 1 ∧
      (if (tbOffset t1 t2 t3 t4).natAbs > 2000 then t.work.get tmb R.TMB_STS_LOCKED = 0 ∧ t.hasEvent tmb 17
        else t.work.get tmb R.TMB_STS_LOCKED = 1) ∧ SameRegsBut s t [tmb] ∧ SamePagesBut s t [] ∧ SameContexts s t ∧ SameMemory s t) ∧
  (∀ (s : State) (port : Nat) (t1 t2 t3 t4 : DWord), port ≠ 0 → s.work.upstream = port → s.dev.time.everLocked = true →
    ∃ t, exec (.timeMessage port t1 t2 t3 t4) s = .next t ∧ t.now = s.now ∧
      t.work.get tmb R.TMB_STS_OFFSET = offsetField (tbOffset t1 t2 t3 t4) ∧ t.work.ctr tmb 1 = s.work.ctr tmb 1 + 1 ∧
      SameRegsBut s t [tmb] ∧ SamePagesBut s t [] ∧ SameContexts s t ∧ SameMemory s t) ∧
  (∀ (s : State) (port : Nat) (t1 t2 t3 t4 : DWord), s.work.get tmb R.TMB_CTL_MASTER = 1 →
    ∃ t, exec (.timeMessage port t1 t2 t3 t4) s = .next t ∧ t.now = s.now ∧ t.work.ctr tmb 0 = s.work.ctr tmb 0 + 1 ∧ t.dev.time = s.dev.time) ∧
  (∀ (s : State) (q : Issue), s.legal q setTimeSpec → (s.work.page q.page).state = .idle → s.work.get tmb R.TMB_CTL_UPSTREAM = 0 →
    s.now.toNat ≤ s.arg64 q.page 0 → ∃ t, exec (.setTime q) s = .next t ∧ t.now.toNat = s.arg64 q.page 0 ∧ t.showsDone q.page ∧
      t.work.ctr tmb 2 = s.work.ctr tmb 2 + 1 ∧ SamePagesBut s t [q.page] ∧ SameRegsBut s t [] ∧ SameContexts s t ∧ SameMemory s t) ∧
  (∀ (s : State) (q : Issue), s.legal q setTimeSpec → (s.work.page q.page).state = .idle → s.work.get tmb R.TMB_CTL_UPSTREAM = 0 →
    s.arg64 q.page 0 < s.now.toNat → ∃ t, exec (.setTime q) s = .next t ∧ t.now = s.now ∧ t.showsRefused q.page .shape) ∧
  (∀ (s : State) (port : Nat) (diff : DWord), port ≠ 0 → s.work.upstream = port →
    s.work.get tmb R.TMB_STS_LOCKED = 1 → ∃ t, exec (.tbStepMessage port diff) s = .next t ∧ t.now = s.now + diff ∧
      t.work.get tmb R.TMB_STS_LOCKED = 1 ∧ SamePagesBut s t [] ∧ SameRegsBut s t [] ∧ SameContexts s t ∧ SameMemory s t)

/-- The removal of a link as Campion is asked for it. -/
def linkRemoval (s : State) (d i : Nat) : Activity := { act := 4, scope := ddlScope d i, stamp := s.now.toNat, page := 0 }

/-- A DDL link is there, UP or REPAIRED. -/
def linkUp (s : State) (d i : Nat) : Prop :=
  d < 20 ∧ (ddlPeer d i).isSome = true ∧ (s.work.get (ddlPage d i) R.DDL_STS_LSTATE = 1 ∨ s.work.get (ddlPage d i) R.DDL_STS_LSTATE = 2)

/-- A spare lane is taken into service at both ends of a DDL link, which is then REPAIRED. A link that Campion lets go is REMOVED at both ends with no bandwidth;
one that conflicts with maintenance waits. -/
def Piece.DdlRepairAndRemoval : Prop :=
  (∀ (s : State) (d i : Nat), linkUp s d i →
    ∃ t, exec (.ddlLaneRepair d i) s = .next t ∧
      (∀ p ∈ ddlEnds d i, t.work.get p R.DDL_STS_LSTATE = 2 ∧
        t.work.get p R.DDL_STS_SPARES = min 63 (s.work.get p R.DDL_STS_SPARES + 1) ∧ t.work.ctr p 4 = s.work.ctr p 4 + 1 ∧ t.hasEvent p 16) ∧
      SameRegsBut s t (ddlEnds d i) ∧ SamePagesBut s t [] ∧ SameContexts s t ∧ SameMemory s t ∧ SameOutside s t) ∧
  (∀ (s : State) (d i : Nat), linkUp s d i → (s.dev.flt.pendingActs.any fun a => a.act == 4 && a.scope == ddlScope d i) = false →
    s.work.admissible (linkRemoval s d i) s.dev.flt.pendingActs = true →
    ∃ t, exec (.ddlLinkRemove d i) s = .next t ∧
      (∀ p ∈ ddlEnds d i, t.work.get p R.DDL_STS_LSTATE = 3 ∧ t.work.get p R.DDL_RATE_RATE = 0 ∧ t.hasEvent p 17) ∧ t.work.runs 4 (ddlScope d i) = false ∧
      ((if d < 16 then 1 ≤ i else 4 ≤ i) →
        SameRegsBut s t (cmpPage 0 :: ddlEnds d i) ∧ SamePagesBut s t [] ∧ SameContexts s t) ∧ SameMemory s t ∧ SameOutside s t) ∧
  (∀ (s : State) (d i : Nat), linkUp s d i → (s.dev.flt.pendingActs.any fun a => a.act == 4 && a.scope == ddlScope d i) = false →
    s.work.admissible (linkRemoval s d i) s.dev.flt.pendingActs = false →
    ∃ t, exec (.ddlLinkRemove d i) s = .next t ∧ t.dev.flt.pendingActs = s.dev.flt.pendingActs ++ [linkRemoval s d i] ∧
      SameRegsBut s t [cmpPage 0] ∧ SamePagesBut s t [] ∧ SameContexts s t ∧ SameMemory s t ∧ SameOutside s t)

/-- The maintenance arbiter never refuses: an activity that conflicts with nothing running and nothing waiting starts, any other waits; the first that may run
starts when asked for and leaves the list; a wait beyond PENDWARN raises its event. -/
def Piece.MaintenanceAdmission : Prop :=
  (∀ (s : State) (act scope : Nat), 1 ≤ act → act ≤ 9 →
    s.work.admissible { act := act, scope := scope, stamp := s.now.toNat, page := 0 } s.dev.flt.pendingActs = true →
    ∃ t, exec (.campionRequest act scope) s = .next t ∧
      t.dev.flt.running = s.dev.flt.running ++ [{ act := act, scope := scope, stamp := s.now.toNat, page := 0 }] ∧
      t.dev.flt.pendingActs = s.dev.flt.pendingActs ∧ t.work.ctr (cmpPage 0) 0 = s.work.ctr (cmpPage 0) 0 + 1 ∧
      SameRegsBut s t [cmpPage 0] ∧ SamePagesBut s t [] ∧ SameContexts s t ∧ SameMemory s t ∧ SameOutside s t) ∧
  (∀ (s : State) (act scope : Nat), 1 ≤ act → act ≤ 9 →
    s.work.admissible { act := act, scope := scope, stamp := s.now.toNat, page := 0 } s.dev.flt.pendingActs = false →
    ∃ t, exec (.campionRequest act scope) s = .next t ∧ t.dev.flt.running = s.dev.flt.running ∧
      t.dev.flt.pendingActs = s.dev.flt.pendingActs ++ [{ act := act, scope := scope, stamp := s.now.toNat, page := 0 }] ∧
      t.work.ctr (cmpPage 0) 1 = s.work.ctr (cmpPage 0) 1 + 1) ∧
  (∀ (s : State) (a : Activity) (l : List Activity), s.dev.flt.pendingActs = a :: l → s.dev.flt.running.all (fun b => !a.conflicts b) = true →
    a.page = 0 → a.act = 1 ∨ a.act = 2 ∨ a.act = 5 → ∃ t, exec .campionAdmit s = .next t ∧ t.dev.flt.pendingActs = l ∧
      t.dev.flt.running = s.dev.flt.running ++ [a] ∧ t.work.ctr (cmpPage 0) 0 = s.work.ctr (cmpPage 0) 0 + 1 ∧
      SameRegsBut s t [cmpPage 0] ∧ SamePagesBut s t [] ∧ SameContexts s t ∧ SameMemory s t ∧ SameOutside s t) ∧
  (∀ s : State, (firstAdmissible s.work [] s.dev.flt.pendingActs).isSome = true → ∃ t, exec .campionAdmit s = .next t ∧
      t.work.ctr (cmpPage 0) 0 = s.work.ctr (cmpPage 0) 0 + 1 ∧
      ∀ a ∈ firstAdmissible s.work [] s.dev.flt.pendingActs, t.dev.flt.pendingActs = s.dev.flt.pendingActs.erase a) ∧
  (∀ s : State, s.work.get (cmpPage 0) R.CMP_PENDWARN_PENDWARN ≠ 0 →
    (s.dev.flt.pendingActs.any fun a => decide (s.now.toNat - a.stamp > s.work.get (cmpPage 0) R.CMP_PENDWARN_PENDWARN * 1000)) = true → ∃ t, exec .cmpPendLong s = .next t ∧ t.hasEvent (cmpPage 0) 16 ∧
      SameRegsBut s t [] ∧ SamePagesBut s t [] ∧ SameContexts s t ∧ SameMemory s t ∧ SameOutside s t)

/-- TBCLK and the messages of the timebase. -/
def Obligations.Timebase : Prop := Piece.TbclkLossAndReturn ∧ Piece.TimebaseMessages

/-- The links within the package and the maintenance arbiter. -/
def Obligations.LinksAndMaintenance : Prop := Piece.DdlRepairAndRemoval ∧ Piece.MaintenanceAdmission

/-! ### The fabric (chapter 4) -/

/-- A transfer waits at a switch input that some output selects. -/
def inputWaits (s : State) (d site net src slot : Nat) : Prop :=
  s.work.linkRuns d site = true ∧ net < 3 ∧ slot < 8 ∧ src ≠ 0 ∧ (s.work.atInput d site net src slot).isSome = true ∧
    (s.work.site (siteKey d site)).selecting slot net src ≠ []

/-- Every output that selects an input is free, and none has accepted its transfer yet. -/
def allFree (s : State) (d site net src slot : Nat) : Prop :=
  SMap.at 0 (s.work.site (siteKey d site)).given (stageKey slot net src) = 0 ∧
  ∀ o ∈ (s.work.site (siteKey d site)).selecting slot net src,
    (s.work.site (siteKey d site)).staged (stageKey slot net o) = [] ∧ (4 ≤ o ∨ (beyond d site o).isSome)

/-- The head of a staging register that feeds the cell may enter its bank: it is not stale, no token of a reserved tag, and the bank has room. -/
def headEnters (s : State) (d site net out slot : Nat) : Prop :=
  s.work.linkRuns d site = true ∧ net < 3 ∧ slot < 8 ∧ 4 ≤ out ∧ out ≤ 7 ∧
  (((s.work.site (siteKey d site)).staged (stageKey slot net out)).head?.any fun x =>
    !s.work.stale d site x.epoch && (net != 2 || tagKnown x.tag)) = true ∧
  (s.work.slot (slotKey d site slot)).spilled (net * 4 + (out - 4)) = [] ∧
  ((s.work.slot (slotKey d site slot)).bank (net * 4 + (out - 4))).length < bankCap net

/-- The heads of a steering unit's holdings are of the epoch its site has taken. -/
def steerHead (s : State) (d site net slot which : Nat) (f : Xfer → Bool) : Prop :=
  (((s.work.site (siteKey d site)).held (steerKey slot net which)).head?.any fun x => x.epoch == (s.work.site (siteKey d site)).epoch && f x) = true

/-- A steering unit may act on a predicate that sends A's datum to output o, and takes nothing from B. -/
def steersA (s : State) (d site net slot o : Nat) : Prop :=
  s.work.cellRuns d site = true ∧ net < 2 ∧ slot < 8 ∧ s.work.purgeSteer d site slot net = s.work ∧
  steerHead s d site net slot 2 (fun x => (x.tag == tagPredT || x.tag == tagPredF) &&
    steerAct ((s.work.site (siteKey d site)).steerMode slot net).1
      ((x.tag == tagPredT) != ((s.work.site (siteKey d site)).steerMode slot net).2) == some (some o, none)) ∧
  steerHead s d site net slot 0 (fun _ => true) ∧ o < 2 ∧ (s.work.site (siteKey d site)).sout (steerOutKey slot net o) = []

/-- A transfer at a switch input goes to every output that selects it and is free, and leaves the input when all have accepted it; a transfer in the staging
register of an output to the cell enters that bank of the cell; a steering unit hands on, or discards, the datum its predicate chooses, and a token that is no
predicate leaves it (R55, R56, R57, R63). -/
def Obligations.SwitchesMoveTransfers : Prop :=
  (∀ (s : State) (d site net src slot : Nat), inputWaits s d site net src slot → s.connected →
    ∃ t, exec (.switchForward d site net src slot) s = .next t ∧
      (∀ o ∈ (s.work.site (siteKey d site)).selecting slot net src,
        bit (SMap.at 0 (s.work.site (siteKey d site)).given (stageKey slot net src)) o = false →
        (s.work.site (siteKey d site)).staged (stageKey slot net o) = [] → (4 ≤ o ∨ (beyond d site o).isSome) →
        (t.work.site (siteKey d site)).staged (stageKey slot net o) = (s.work.atInput d site net src slot).toList) ∧
      SamePagesBut s t [] ∧ SameRegsBut s t [] ∧ SameContexts s t ∧ SameMemory s t ∧ SameOutside s t) ∧
  (∀ (s : State) (d site net src slot : Nat), inputWaits s d site net src slot → src = 5 ∨ src = 6 → allFree s d site net src slot →
    ∃ t, exec (.switchForward d site net src slot) s = .next t ∧
      (t.work.slot (slotKey d site slot)).out (net * 2 + (src - 5)) = ((s.work.slot (slotKey d site slot)).out (net * 2 + (src - 5))).tail) ∧
  (∀ (s : State) (d site net src slot nd ns : Nat) (e : Bool), inputWaits s d site net src slot → 1 ≤ src → src ≤ 4 →
    beyond d site (src - 1) = some (nd, ns, e) → allFree s d site net src slot → s.connected →
    ∃ t, exec (.switchForward d site net src slot) s = .next t ∧
      (t.work.site (siteKey nd ns)).staged (stageKey slot net ((src + 1) % 4)) =
        ((s.work.site (siteKey nd ns)).staged (stageKey slot net ((src + 1) % 4))).tail) ∧
  (∀ (s : State) (d site net out slot : Nat), headEnters s d site net out slot →
    ∃ t, exec (.transferArrive d site net out slot) s = .next t ∧
      (t.work.slot (slotKey d site slot)).bank (net * 4 + (out - 4)) = (s.work.slot (slotKey d site slot)).bank (net * 4 + (out - 4)) ++
        ((s.work.site (siteKey d site)).staged (stageKey slot net out)).take 1 ∧
      (t.work.site (siteKey d site)).staged (stageKey slot net out) = ((s.work.site (siteKey d site)).staged (stageKey slot net out)).tail ∧
      SamePagesBut s t [] ∧ SameRegsBut s t [] ∧ SameContexts s t ∧ SameMemory s t ∧ SameOutside s t) ∧
  (∀ (s : State) (d site net slot o : Nat), steersA s d site net slot o →
    ∃ t, exec (.steerFire d site net slot) s = .next t ∧
      (t.work.site (siteKey d site)).sout (steerOutKey slot net o) = ((s.work.site (siteKey d site)).held (steerKey slot net 0)).take 1 ∧
      (t.work.site (siteKey d site)).held (steerKey slot net 0) = ((s.work.site (siteKey d site)).held (steerKey slot net 0)).tail ∧
      (t.work.site (siteKey d site)).held (steerKey slot net 2) = ((s.work.site (siteKey d site)).held (steerKey slot net 2)).tail ∧
      SamePagesBut s t [] ∧ SameRegsBut s t [] ∧ SameContexts s t ∧ SameMemory s t ∧ SameOutside s t) ∧
  (∀ (s : State) (d site net slot : Nat), s.work.cellRuns d site = true → net < 2 → slot < 8 → s.work.purgeSteer d site slot net = s.work →
    steerHead s d site net slot 2 (fun x => tagKnown x.tag && x.tag != 0x3F && x.tag != tagPredT && x.tag != tagPredF) →
    ∃ t, exec (.steerFire d site net slot) s = .next t ∧
      (t.work.site (siteKey d site)).held (steerKey slot net 2) = ((s.work.site (siteKey d site)).held (steerKey slot net 2)).tail ∧
      SamePagesBut s t [] ∧ SameRegsBut s t [] ∧ SameContexts s t ∧ SameMemory s t ∧ SameOutside s t)

/-- The firing of the active slot of a cell. -/
def firingAt (s : State) (d site : Nat) : Firing :=
  s.work.firing d site (s.work.activeSlot (cellPage d site) (s.work.site (siteKey d site)))

/-- The cell is ready to fire an instruction with this opcode: it runs, its active slot may fire, its inputs are there and its outputs free, no head of its
queues is stale, and the limit of the fold entry is not reached (R58, R64). -/
def mayFire (s : State) (d site op : Nat) : Prop :=
  s.work.cellRuns d site = true ∧
  s.work.purgeSlot d site (s.work.activeSlot (cellPage d site) (s.work.site (siteKey d site))) = s.work ∧
  (firingAt s d site).s.runs = true ∧ mOp (firingAt s d site).m = op ∧ (firingAt s d site).isSkipz = false ∧
  (s.work.foldLimit (cellPage d site) (s.work.site (siteKey d site)) = 0 ∨
    (s.work.site (siteKey d site)).foldCount < s.work.foldLimit (cellPage d site) (s.work.site (siteKey d site))) ∧
  (firingAt s d site).inReady = true ∧ (firingAt s d site).outReady = true

/-- Steps 3 to 6 of a firing have been taken: CNT_FIRINGS counts, the fold entry counts, and the next address is that of Table 4.8. -/
def hasFired (s t : State) (d site : Nat) (p : Bool) : Prop :=
  let f := firingAt s d site
  t.work.ctr f.p 0 = s.work.ctr f.p 0 + 1 ∧ (t.work.site (siteKey d site)).foldCount = (s.work.site (siteKey d site)).foldCount + 1 ∧
  ∃ wrapped, (mCen f.m = false → wrapped = false) ∧ (t.work.slot f.k).pc = nextPc f.m f.s.pc p wrapped false ∧
    (mNxt f.m = 5 → (t.work.slot f.k).st = .halted)

/-- The predicate of the instruction, after PINV, comes to p. -/
def predIs (s : State) (d site : Nat) (p : Bool) : Prop := (firingAt s d site).predicate.map (·.2) = some p

/-- One transfer sent by a firing. -/
def sent (f : Firing) (v : Nat) : List Xfer := [{ epoch := f.epoch, data := v }]

/-- The microinstructions that a condition of their own may turn into a contained fault, and those that none may. -/
def plainMicro (d site : Nat) : List (Instr × Nat) :=
  [(.microNop d site, 0x00), (.mov d site, 0x01), (.mma d site, 0x10), (.mmaInit d site, 0x11), (.opbLoad d site, 0x12), (.accDrain d site, 0x13),
    (.accClear d site, 0x14), (.vop d site, 0x20)]
def checkedMicro (d site : Nat) : List (Instr × Nat) :=
  [(.waitt d site, 0x02), (.ldbound d site, 0x03), (.mrd d site, 0x40), (.mwr d site, 0x41), (.mrdn d site, 0x42), (.mwrn d site, 0x43),
    (.mrdIdx d site, 0x44)]

/-- A ready cell fires: the instruction advances, whether its predicate lets its operation run or not; an instruction whose operation could fault advances
where the predicate keeps the operation from running. Then nothing is stored. -/
def Piece.ReadyCellFires : Prop :=
  (∀ (s : State) (d site : Nat) (i : Instr) (op : Nat) (p : Bool), (i, op) ∈ plainMicro d site → mayFire s d site op →
    predIs s d site p → ∃ t, exec i s = .next t ∧ hasFired s t d site p ∧ SameOutside s t ∧
      (p = false → FrameBut s t [] [])) ∧
  (∀ (s : State) (d site : Nat) (i : Instr) (op : Nat), (i, op) ∈ checkedMicro d site → mayFire s d site op →
    predIs s d site false → ∃ t, exec i s = .next t ∧ hasFired s t d site false ∧ FrameBut s t [] [])

/-- A cell whose inputs are not all there waits: nothing moves, and the wait is counted once (R58, R65). -/
def Piece.WaitingCellCountsOnce : Prop :=
  ∀ (s : State) (d site : Nat) (i : Instr) (op : Nat), (i, op) ∈ plainMicro d site ++ checkedMicro d site → s.work.cellRuns d site = true →
    s.work.purgeSlot d site (s.work.activeSlot (cellPage d site) (s.work.site (siteKey d site))) = s.work →
    (firingAt s d site).s.runs = true → mOp (firingAt s d site).m = op → (firingAt s d site).isSkipz = false →
    s.work.foldLimit (cellPage d site) (s.work.site (siteKey d site)) = 0 → (firingAt s d site).inReady = false →
    ∃ t, exec i s = .next t ∧ (∀ k, t.work.slot k = s.work.slot k) ∧
      t.work.ctr (cellPage d site) 2 = s.work.ctr (cellPage d site) 2 + (if (s.work.site (siteKey d site)).waitedIn then 0 else 1) ∧ FrameBut s t [] []

/-- The head of the lowest input of a network that the instruction names. -/
def lowestIn (s : State) (d site net : Nat) : Option Xfer :=
  (mInputs (firingAt s d site).m net).head?.bind fun i => (firingAt s d site).head (4 * net + i)

/-- What the microinstructions of every cell do: MICRO_NOP moves nothing to an output; MOV sends the head of the lowest named input to each enabled output;
WAITT fires on the expected tag alone; LDBOUND loads a bound and clears the value (R58, R60, R61). -/
def Piece.CommonMicroinstructions : Prop :=
  (∀ (s : State) (d site : Nat), mayFire s d site 0x00 → predIs s d site true →
    ∃ t, exec (.microNop d site) s = .next t ∧ hasFired s t d site true ∧
      (∀ o, o < 4 → (t.work.slot (firingAt s d site).k).out o = (firingAt s d site).s.out o) ∧ FrameBut s t [] []) ∧
  (∀ (s : State) (d site : Nat), mayFire s d site 0x01 → predIs s d site true →
    ∃ t, exec (.mov d site) s = .next t ∧ hasFired s t d site true ∧
      (∀ net, net < 2 → ∀ o, o < 2 → ∀ x ∈ lowestIn s d site net, bit (mOen (firingAt s d site).m) (2 * net + o) = true →
        (t.work.slot (firingAt s d site).k).out (2 * net + o) = sent (firingAt s d site) x.data) ∧ FrameBut s t [] []) ∧
  (∀ (s : State) (d site : Nat), mayFire s d site 0x02 → predIs s d site true →
    ((lowestIn s d site 2).any fun x => x.tag == mImm (firingAt s d site).m % 256) = true →
    ∃ t, exec (.waitt d site) s = .next t ∧ hasFired s t d site true ∧ FrameBut s t [] []) ∧
  (∀ (s : State) (d site : Nat), mayFire s d site 0x03 → predIs s d site true → mCen (firingAt s d site).m = false →
    ((lowestIn s d site 1).any fun x => decide (x.data % 2 ^ 32 ≤ ((firingAt s d site).s.ctr (mCsel (firingAt s d site).m)).maxb)) = true →
    (firingAt s d site).s.ctrs.length = 8 →
    ∃ t, exec (.ldbound d site) s = .next t ∧ hasFired s t d site true ∧
      (∀ x ∈ lowestIn s d site 1,
        ((t.work.slot (firingAt s d site).k).ctr (mCsel (firingAt s d site).m)).bound = x.data % 2 ^ 32) ∧
      ((t.work.slot (firingAt s d site).k).ctr (mCsel (firingAt s d site).m)).value = 0 ∧
      (∀ n, n ≠ mCsel (firingAt s d site).m → (t.work.slot (firingAt s d site).k).ctr n = (firingAt s d site).s.ctr n) ∧ FrameBut s t [] [])

/-- Where the wave of a firing puts entry i. -/
def waveAddr (f : Firing) (i : Nat) : Nat := f.accAt (mImm f.m % 256 * 1024 + 128 * f.s.accSum) i

/-- Entry i of the wave of a firing: the products of its row of A and its row of B, summed with the old entry or replacing it. -/
def waveValue (s : State) (f : Firing) (init : Bool) (i : Nat) : Nat :=
  let na := (opRows f.s.fmt).1
  let nb := (opRows f.s.fmt).2
  (waveEntry f.s.fmt init (s.work.le (waveAddr f i) 4) ((f.rows (bits (mImm f.m) 9 8 == 2) 0 na s.work).getD (i / nb) [])
    ((f.rows (bits (mImm f.m) 9 8 == 1) (if bits (mImm f.m) 9 8 = 0 then 1 else 0) nb s.work).getD (i % nb) [])).1

/-- A wave has been taken: every entry of the block has its value, CNT_WAVES counts, and no byte outside the block changes. -/
def waveTaken (s t : State) (d site : Nat) (init : Bool) : Prop :=
  hasFired s t d site true ∧ t.work.ctr (cellPage d site) 1 = s.work.ctr (cellPage d site) 1 + 1 ∧
  (∀ i, i < (opRows (firingAt s d site).s.fmt).1 * (opRows (firingAt s d site).s.fmt).2 →
    t.work.le (waveAddr (firingAt s d site) i) 4 = waveValue s (firingAt s d site) init i % 2 ^ 32) ∧
  (∀ a, (∀ i, i < (opRows (firingAt s d site).s.fmt).1 * (opRows (firingAt s d site).s.fmt).2 →
    a < waveAddr (firingAt s d site) i ∨ waveAddr (firingAt s d site) i + 4 ≤ a) → t.mem.byte a = s.mem.byte a) ∧
  SamePagesBut s t [] ∧ SameRegsBut s t [] ∧ SameContexts s t ∧ SameOutside s t

/-- MMA and MMA_INIT: every entry of the block takes the value of R49. -/
def Piece.MatrixWaves : Prop :=
  (∀ (s : State) (d site : Nat), mayFire s d site 0x10 → predIs s d site true → ∃ t, exec (.mma d site) s = .next t ∧ waveTaken s t d site false) ∧
  (∀ (s : State) (d site : Nat), mayFire s d site 0x11 → predIs s d site true → ∃ t, exec (.mmaInit d site) s = .next t ∧ waveTaken s t d site true)

/-- The head flit into the operand buffer; 32 entries cleared; 32 entries sent as one flit, or converted into the byte stream (R60, R116). -/
def Piece.OperandAndAccumulatorMoves : Prop :=
  (∀ (s : State) (d site : Nat), mayFire s d site 0x12 → predIs s d site true →
    0 ≤ (firingAt s d site).s.addrSum → (firingAt s d site).s.addrSum < 256 →
    ∃ t, exec (.opbLoad d site) s = .next t ∧ hasFired s t d site true ∧
      (∀ x ∈ (firingAt s d site).head 0,
        t.work.le (opbA d (firingAt s d site).inst (128 * (firingAt s d site).s.addrSum.toNat)) 128 = x.data % 2 ^ 1024) ∧
      SameMemoryBut s t (opbA d (firingAt s d site).inst (128 * (firingAt s d site).s.addrSum.toNat)) 128 ∧
      SamePagesBut s t [] ∧ SameRegsBut s t [] ∧ SameContexts s t ∧ SameOutside s t) ∧
  (∀ (s : State) (d site : Nat), mayFire s d site 0x14 → predIs s d site true →
    ∃ t, exec (.accClear d site) s = .next t ∧ hasFired s t d site true ∧
      (∀ i, i < 32 → t.work.le (waveAddr (firingAt s d site) i) 4 = 0) ∧
      (∀ a, (∀ i, i < 32 → a < waveAddr (firingAt s d site) i ∨ waveAddr (firingAt s d site) i + 4 ≤ a) → t.mem.byte a = s.mem.byte a) ∧
      SamePagesBut s t [] ∧ SameRegsBut s t [] ∧ SameContexts s t ∧ SameOutside s t) ∧
  (∀ (s : State) (d site : Nat), mayFire s d site 0x13 → predIs s d site true →
    mImm (firingAt s d site).m % 16 = 0 → bit (mOen (firingAt s d site).m) 0 = true → (firingAt s d site).s.drainRes = [] →
    ∃ t, exec (.accDrain d site) s = .next t ∧ hasFired s t d site true ∧
      (t.work.slot (firingAt s d site).k).out 0 = sent (firingAt s d site) (packElems 32 ((List.range 32).map fun i =>
          s.work.le ((firingAt s d site).accAt (bits (mImm (firingAt s d site).m) 9 4 * 4096 + 128 * (firingAt s d site).s.accSum) i) 4)) ∧
      (t.work.slot (firingAt s d site).k).dcount = ((firingAt s d site).s.dcount + 1) % 2 ^ 44 ∧ FrameBut s t [] [])

/-- Lane n of the operand of a vector instruction on its nth named vector input. -/
def vopLanes (s : State) (d site n : Nat) : List Nat :=
  lanesOf (packElems 1024 ((((mInputs (firingAt s d site).m 0)[n]?.elim [] fun i => (firingAt s d site).heads i).take 2).map (·.data)))

/-- The vector unit: the two reductions send one word to scalar output 0; any other function, with vector output 0 disabled, leaves its 64 lanes in the
vector register that IMM names (R50). No edge mask is in force, and the operands come from named vector inputs. -/
def Piece.VectorUnit : Prop :=
  (∀ (s : State) (d site : Nat), mayFire s d site 0x20 → predIs s d site true →
    mInputs (firingAt s d site).m 0 ≠ [] → (firingAt s d site).s.masks 2 = [] → (firingAt s d site).s.masks 3 = [] →
    mImm (firingAt s d site).m % 32 = 0x10 ∨ mImm (firingAt s d site).m % 32 = 0x11 → bit (mOen (firingAt s d site).m) 2 = true →
    ∃ t, exec (.vop d site) s = .next t ∧ hasFired s t d site true ∧
      (t.work.slot (firingAt s d site).k).out 2 = sent (firingAt s d site)
        (treeOf (if mImm (firingAt s d site).m % 32 = 0x10 then f32Add else f32Max) 6 (vopLanes s d site 0)) ∧ FrameBut s t [] []) ∧
  (∀ (s : State) (d site : Nat), mayFire s d site 0x20 → predIs s d site true →
    2 ≤ (mInputs (firingAt s d site).m 0).length → (firingAt s d site).s.masks 2 = [] → (firingAt s d site).s.masks 3 = [] →
    mImm (firingAt s d site).m % 32 < 0x10 → bit (mOen (firingAt s d site).m) 0 = false →
    ∃ t, exec (.vop d site) s = .next t ∧ hasFired s t d site true ∧
      (∀ n, n < 64 → t.work.le (vregA d (firingAt s d site).inst (bits (mImm (firingAt s d site).m) 8 5 * 256) + 4 * n) 4 =
        laneFn (mImm (firingAt s d site).m % 32) ((vopLanes s d site 0).getD n 0) ((vopLanes s d site 1).getD n 0)
          (s.work.le (vregA d (firingAt s d site).inst (bits (mImm (firingAt s d site).m) 8 5 * 256) + 4 * n) 4) % 2 ^ 32) ∧
      SameMemoryBut s t (vregA d (firingAt s d site).inst (bits (mImm (firingAt s d site).m) 8 5 * 256)) 256 ∧
      SamePagesBut s t [] ∧ SameRegsBut s t [] ∧ SameContexts s t ∧ SameOutside s t)

/-- The offset of a scratch access, an index added, and the byte of scratch it names in the pair of IMM; none where R128 refuses it. -/
def scrByte (s : State) (d site ix : Nat) (narrow write : Bool) : Option Nat :=
  s.work.pairAddr (cellPage d site) (mImm (firingAt s d site).m % 4) ((firingAt s d site).s.addrSum + (ix : Nat)) narrow write

/-- Where that byte lies. -/
def scrAt (s : State) (d site ix : Nat) (narrow write : Bool) : Nat :=
  s.work.scratchOf (cellPage d site) ((scrByte s d site ix narrow write).getD 0)

/-- A scratch access of the cell is within its pair, no edge mask is in force for it, and what it reads is not delivered as poison. -/
def scrGood (s : State) (d site ix n : Nat) (narrow write : Bool) : Prop :=
  (firingAt s d site).s.masks (if write then 1 else 0) = [] ∧ (scrByte s d site ix narrow write).isSome = true ∧
    (write = false → s.work.scrPoison (cellPage d site) ((scrByte s d site ix narrow write).getD 0) n = false)

/-- The index that MRD_IDX adds. -/
def scrIndex (s : State) (d site : Nat) : Nat := (lowestIn s d site 1).elim 0 fun x => x.data % 2 ^ 32

/-- Nothing of data, pages and contexts changes; MC_SCRSTS may tell of a corrected word (R142). -/
def scrFrame (s t : State) (d site : Nat) : Prop :=
  SamePagesBut s t [] ∧ SameRegsBut s t [cellPage d site] ∧ SameContexts s t ∧ SameOutside s t

/-- Scratch accesses with no edge mask in force and no poison: a wide read sends the line, a wide write stores it, a narrow read sends the word, a narrow
write stores the enabled bytes, an indexed read adds the index; an access out of its pair's bounds stores nothing and faults with BOUND (R51, R128, R129). -/
def Piece.ScratchAccesses : Prop :=
  (∀ (s : State) (d site : Nat), mayFire s d site 0x40 → predIs s d site true → scrGood s d site 0 128 false false →
    bit (mOen (firingAt s d site).m) 0 = true →
    ∃ t, exec (.mrd d site) s = .next t ∧ hasFired s t d site true ∧
      (t.work.slot (firingAt s d site).k).out 0 = sent (firingAt s d site) (s.work.le (scrAt s d site 0 false false) 128) ∧
      t.work.ctr (cellPage d site) 1 = s.work.ctr (cellPage d site) 1 + 1 ∧ SameData s t ∧ scrFrame s t d site) ∧
  (∀ (s : State) (d site : Nat), mayFire s d site 0x44 → predIs s d site true → (lowestIn s d site 1).isSome = true →
    scrGood s d site (scrIndex s d site) 128 false false → bit (mOen (firingAt s d site).m) 0 = true →
    ∃ t, exec (.mrdIdx d site) s = .next t ∧ hasFired s t d site true ∧
      (t.work.slot (firingAt s d site).k).out 0 = sent (firingAt s d site) (s.work.le (scrAt s d site (scrIndex s d site) false false) 128) ∧
      t.work.ctr (cellPage d site) 1 = s.work.ctr (cellPage d site) 1 + 1 ∧ SameData s t ∧ scrFrame s t d site) ∧
  (∀ (s : State) (d site : Nat), mayFire s d site 0x41 → predIs s d site true → scrGood s d site 0 128 false true →
    ∃ t, exec (.mwr d site) s = .next t ∧ hasFired s t d site true ∧
      (∀ x ∈ (firingAt s d site).head 0, t.work.le (scrAt s d site 0 false true) 128 = x.data % 2 ^ 1024) ∧
      t.work.scrPoison (cellPage d site) ((scrByte s d site 0 false true).getD 0) 128 = false ∧
      t.work.ctr (cellPage d site) 1 = s.work.ctr (cellPage d site) 1 + 1 ∧ SameDataBut s t (scrAt s d site 0 false true) 128 ∧ scrFrame s t d site) ∧
  (∀ (s : State) (d site : Nat), mayFire s d site 0x42 → predIs s d site true → scrGood s d site 0 4 true false →
    bit (mOen (firingAt s d site).m) 2 = true →
    ∃ t, exec (.mrdn d site) s = .next t ∧ hasFired s t d site true ∧
      (t.work.slot (firingAt s d site).k).out 2 = sent (firingAt s d site) (s.work.le (scrAt s d site 0 true false) 4) ∧
      SameData s t ∧ scrFrame s t d site) ∧
  (∀ (s : State) (d site : Nat), mayFire s d site 0x43 → predIs s d site true → scrGood s d site 0 4 true true →
    ∃ t, exec (.mwrn d site) s = .next t ∧ hasFired s t d site true ∧
      (∀ x ∈ (firingAt s d site).head 4, ∀ i, i < 4 → t.work.rd (scrAt s d site 0 true true + i) =
        if bit (bits (mImm (firingAt s d site).m) 5 2) i then BitVec.ofNat 8 (x.data / 256 ^ i) else s.work.rd (scrAt s d site 0 true true + i)) ∧
      SameDataBut s t (scrAt s d site 0 true true) 4 ∧ scrFrame s t d site) ∧
  (∀ (s : State) (d site : Nat), mayFire s d site 0x41 → predIs s d site true → (firingAt s d site).s.masks 1 = [] →
    scrByte s d site 0 false true = none →
    ∃ t, exec (.mwr d site) s = .next t ∧ t.hasEvent (cellPage d site) 18 ∧ t.hasEvent (cellPage d site) 3 ∧ SameMemory s t ∧ SameOutside s t ∧
      t.work.ctr (cellPage d site) 0 = s.work.ctr (cellPage d site) 0 + 1)

/-- The slot of a fold entry as a firing. -/
def entryFiring (s : State) (d site i : Nat) : Firing := s.work.firing d site ((s.work.foldSlots (cellPage d site)).getD i 0)

/-- The current fold entry ends: its FIRINGS are used up, its slot has halted, or it cannot fire and may yield (R64). -/
def entryEnds (s : State) (d site : Nat) : Prop :=
  (s.work.foldLimit (cellPage d site) (s.work.site (siteKey d site)) ≠ 0 ∧
    s.work.foldLimit (cellPage d site) (s.work.site (siteKey d site)) ≤ (s.work.site (siteKey d site)).foldCount) ∨
  (entryFiring s d site (s.work.site (siteKey d site)).foldPos).s.st = .halted ∨
  (s.work.get (cellPage d site) R.CELL_FOLD_YIELD_BLOCK = 1 ∧ (entryFiring s d site (s.work.site (siteKey d site)).foldPos).able = false)

/-- The next fold entry whose slot can fire. -/
def nextEntry (s : State) (d site : Nat) : Option Nat :=
  (foldOrder (s.work.foldSlots (cellPage d site)).length (s.work.site (siteKey d site)).foldPos).find? fun j => (entryFiring s d site j).able

/-- SKIPZ takes its target when the bound of its counter is zero, without waiting for anything; the fold schedule goes on to the next slot that can fire, and
counts the switch (R58, R64). -/
def Piece.SkipsAndFolds : Prop :=
  (∀ (s : State) (d site : Nat), s.work.cellRuns d site = true → (firingAt s d site).s.runs = true → (firingAt s d site).isSkipz = true →
    s.work.foldLimit (cellPage d site) (s.work.site (siteKey d site)) = 0 →
    ∃ t, exec (.skipz d site) s = .next t ∧ t.work.ctr (cellPage d site) 0 = s.work.ctr (cellPage d site) 0 + 1 ∧
      (t.work.slot (firingAt s d site).k).pc =
        (if ((firingAt s d site).s.ctr (mCsel (firingAt s d site).m)).bound = 0 then mTarget (firingAt s d site).m
          else ((firingAt s d site).s.pc + 1) % 64) ∧ FrameBut s t [] []) ∧
  (∀ (s : State) (d site : Nat), s.work.cellRuns d site = true → (List.range 8).foldl (fun w n => w.purgeSlot d site n) s.work = s.work →
    entryEnds s d site → (nextEntry s d site).isSome = true → nextEntry s d site ≠ some (s.work.site (siteKey d site)).foldPos →
    ∃ t, exec (.foldSlotSwitch d site) s = .next t ∧ some (t.work.site (siteKey d site)).foldPos = nextEntry s d site ∧
      (t.work.site (siteKey d site)).foldCount = 0 ∧
      t.work.ctr (cellPage d site) 5 = s.work.ctr (cellPage d site) 5 + 1 ∧ (∀ k, t.work.slot k = s.work.slot k) ∧ FrameBut s t [] [])

/-- The firing of a cell, and its waiting. -/
def Obligations.CellsFireAndWait : Prop := Piece.ReadyCellFires ∧ Piece.WaitingCellCountsOnce

/-- The microinstructions of every cell, skips and the fold schedule. -/
def Obligations.CommonInstructionsAndFolds : Prop := Piece.CommonMicroinstructions ∧ Piece.SkipsAndFolds

/-- The MAC array, its operands and its accumulators. -/
def Obligations.MatrixUnit : Prop := Piece.MatrixWaves ∧ Piece.OperandAndAccumulatorMoves

/-- The vector unit and the accesses to scratch. -/
def Obligations.VectorsAndScratch : Prop := Piece.VectorUnit ∧ Piece.ScratchAccesses

/-! ### Configuration, epochs, deadlock (chapter 5) and loop nests (chapter 6) -/

/-- CFG_LOAD is accepted and its image judged: the first failing check is its final status, or its records wait; CFG_LOAD_DONE stages every record's slot,
puts the die map in force and publishes DONE (R71, R72, R76). -/
def Obligations.ConfigurationLoads : Prop :=
  (∀ (s : State) (q : Issue) (st : Status), s.legal q (cfgSpec 0x10 fun c => c.arg 2 < 512 && c.arg 1 < 2 ^ 16) →
    s.work.cfgBusy (s.pageCtx q.page) = false → loadFails (s.work.call q 0x10) (s.pageCtx q.page) s.work = some st → s.connected →
    ∃ t, exec (.cfgLoad q) s = .next t ∧ t.showsAccepted q.page 0x10 (some st) ∧ (∀ k, t.work.slot k = s.work.slot k) ∧ ReadFrame s t [q.page] []) ∧
  (∀ (s : State) (q : Issue), s.legal q (cfgSpec 0x10 fun c => c.arg 2 < 512 && c.arg 1 < 2 ^ 16) →
    s.work.cfgBusy (s.pageCtx q.page) = false → loadFails (s.work.call q 0x10) (s.pageCtx q.page) s.work = none → s.connected →
    ∃ t, exec (.cfgLoad q) s = .next t ∧ t.showsAccepted q.page 0x10 none ∧ (t.work.cfg (s.pageCtx q.page)).cfgPage = q.page + 1 ∧
      (t.work.cfg (s.pageCtx q.page)).newMap = (List.range 16).map (s.work.call q 0x10).dieOfLogical ∧
      (∀ k, t.work.slot k = s.work.slot k) ∧ ReadFrame s t [q.page] []) ∧
  (∀ (s : State) (p : Nat), s.hasCtx p → s.outstanding p 0x10 → (s.work.cfg (s.pageCtx p)).cfgPage = p + 1 →
    (s.work.page p).state = .bound ∨ (s.work.page p).state = .running →
    ∃ t, exec (.cfgLoadDone p) s = .next t ∧ t.published p .done ∧ (∀ r ∈ (s.work.cfg (s.pageCtx p)).recs, (t.work.slot r.1).st = .staged) ∧
      (t.work.cfg (s.pageCtx p)).dieMap = (s.work.cfg (s.pageCtx p)).newMap ∧ t.work.ctr p 0 = s.work.ctr p 0 + 1 ∧ SamePagesBut s t [p] ∧ SameContexts s t ∧
      SameMemory s t ∧ SameOutside s t)

/-- DRAIN puts a DRAIN token of the current epoch at each drain entry and drains the slots that have no drain input; a token that waited enters once there is
room; the token taken at the inputs named drains a slot, and a slot that is empty and has sent its own tokens is DRAINED (R73, R74, R76, R79). -/
def Piece.Drains : Prop :=
  (∀ (s : State) (q : Issue), s.legal q (cfgSpec 0x11 fun c => c.arg 0 < 256) → s.work.cfgBusy (s.pageCtx q.page) = false →
    ((s.work.cfg (s.pageCtx q.page)).drains.filter fun e => bit (s.arg q.page 0) e.2.1) = [] →
    ∃ t, exec (.drain q) s = .next t ∧ t.showsAccepted q.page 0x11 (some .done) ∧
      (∀ k ∈ s.work.ctxSlots (s.pageCtx q.page) (s.arg q.page 0), (s.work.slot k).st = .live → (s.work.slot k).drainIn = 0 →
        (t.work.slot k).st = .draining) ∧
      (∀ k, k ∉ s.work.ctxSlots (s.pageCtx q.page) (s.arg q.page 0) → t.work.slot k = s.work.slot k) ∧ FrameBut s t [q.page] []) ∧
  (∀ (s : State) (q : Issue) (d slot site inp : Nat), s.legal q (cfgSpec 0x11 fun c => c.arg 0 < 256) →
    s.work.cfgBusy (s.pageCtx q.page) = false →
    ((s.work.cfg (s.pageCtx q.page)).drains.filter fun e => bit (s.arg q.page 0) e.2.1) = [(d, slot, site, inp)] →
    s.work.siteCtx d site = some (s.pageCtx q.page) → s.room d site slot inp →
    ∃ t, exec (.drain q) s = .next t ∧ t.showsAccepted q.page 0x11 (some .done) ∧
      (t.work.slot (slotKey d site slot)).bank (8 + inp) = (s.work.slot (slotKey d site slot)).bank (8 + inp) ++
        [{ epoch := (s.work.site (siteKey d site)).epoch, data := tagDrain + 256 * (s.work.site (siteKey d site)).epoch }] ∧
      FrameBut s t [q.page] []) ∧
  (∀ (s : State) (p : Nat), s.hasCtx p → s.outstanding p 0x11 → (s.work.ctx (s.pageCtx p)).state = .running →
    (∀ e ∈ (s.work.cfg (s.pageCtx p)).inject, s.work.siteCtx e.1 e.2.2.1 = some (s.pageCtx p) ∧ s.room e.1 e.2.2.1 e.2.1 e.2.2.2) →
    ((s.work.cfg (s.pageCtx p)).inject.map fun e => slotKey e.1 e.2.2.1 e.2.1).Nodup →
    ∃ t, exec (.drainInject p) s = .next t ∧ s.decided t p .done ∧ (t.work.cfg (s.pageCtx p)).inject = [] ∧
      (∀ e ∈ (s.work.cfg (s.pageCtx p)).inject,
        (t.work.slot (slotKey e.1 e.2.2.1 e.2.1)).bank (8 + e.2.2.2) = (s.work.slot (slotKey e.1 e.2.2.1 e.2.1)).bank (8 + e.2.2.2) ++
          [{ epoch := (s.work.site (siteKey e.1 e.2.2.1)).epoch, data := tagDrain + 256 * (s.work.site (siteKey e.1 e.2.2.1)).epoch }]) ∧
      FrameBut s t [p] []) ∧
  (∀ (s : State) (d site slot inp : Nat), s.work.cellRuns d site = true → inp < 4 → slot < 8 → s.work.purgeSlot d site slot = s.work →
    (s.work.systemHead d site slot inp tagDrain).isSome = true →
    (s.work.slot (slotKey d site slot)).st = .live ∨ (s.work.slot (slotKey d site slot)).st = .draining →
    bit (s.work.slot (slotKey d site slot)).drainIn inp = true →
    ∃ t, exec (.drainTaken d site slot inp) s = .next t ∧ (t.work.slot (slotKey d site slot)).st = .draining ∧
      (t.work.slot (slotKey d site slot)).drainSeen = (s.work.slot (slotKey d site slot)).drainSeen ||| 2 ^ inp ∧ FrameBut s t [] []) ∧
  (∀ (s : State) (d site slot : Nat), s.work.cellRuns d site = true → slot < 8 → s.work.purgeSlot d site slot = s.work →
    (s.work.slot (slotKey d site slot)).st = .draining →
    (s.work.slot (slotKey d site slot)).drainSeen &&& (s.work.slot (slotKey d site slot)).drainIn = (s.work.slot (slotKey d site slot)).drainIn →
    (s.work.slot (slotKey d site slot)).banks = [] → (s.work.slot (slotKey d site slot)).spill = [] →
    (∀ o, o < 2 → (s.work.slot (slotKey d site slot)).out (4 + o) = []) →
    ∃ t, exec (.slotDrained d site slot) s = .next t ∧ (t.work.slot (slotKey d site slot)).st = .drained ∧
      (∀ o, o < 2 → bit (s.work.slot (slotKey d site slot)).drainOut o = true → (t.work.slot (slotKey d site slot)).out (4 + o) =
        [{ epoch := (s.work.site (siteKey d site)).epoch, data := tagDrain + 256 * (s.work.site (siteKey d site)).epoch }]) ∧ FrameBut s t [] [])

/-- A FENCE token holds a live slot; FENCE_REL lets every slot of the context go on; CFG_CLEAR empties the slots named, none of which is live (R73, R75, R76). -/
def Piece.FencesAndClears : Prop :=
  (∀ (s : State) (d site slot inp : Nat), s.work.cellRuns d site = true → inp < 4 → slot < 8 → s.work.purgeSlot d site slot = s.work →
    (s.work.systemHead d site slot inp tagFence).isSome = true →
    (s.work.slot (slotKey d site slot)).st = .live ∨ (s.work.slot (slotKey d site slot)).st = .draining →
    ∃ t, exec (.fenceTaken d site slot inp) s = .next t ∧ (t.work.slot (slotKey d site slot)).hold = true ∧ FrameBut s t [] []) ∧
  (∀ (s : State) (q : Issue), s.legal q (cfgSpec 0x13 fun _ => true) → s.work.cfgBusy (s.pageCtx q.page) = false →
    ∃ t, exec (.fenceRel q) s = .next t ∧ t.showsDone q.page ∧ (∀ k ∈ s.work.ctxSlots (s.pageCtx q.page) 255, (t.work.slot k).hold = false) ∧
      (∀ k, (t.work.slot k).st = (s.work.slot k).st ∧ (t.work.slot k).banks = (s.work.slot k).banks) ∧ FrameBut s t [q.page] []) ∧
  (∀ (s : State) (q : Issue), s.legal q (cfgSpec 0x14 fun c => c.arg 0 < 256) → s.work.cfgBusy (s.pageCtx q.page) = false →
    (∀ k ∈ s.work.ctxSlots (s.pageCtx q.page) (s.arg q.page 0), (s.work.slot k).st ≠ .live ∧ (s.work.slot k).st ≠ .draining) →
    ∃ t, exec (.cfgClear q) s = .next t ∧ t.showsDone q.page ∧
      (∀ k ∈ s.work.ctxSlots (s.pageCtx q.page) (s.arg q.page 0), (t.work.slot k).st = .empty) ∧
      (∀ k, k ∉ s.work.ctxSlots (s.pageCtx q.page) (s.arg q.page 0) → t.work.slot k = s.work.slot k) ∧ FrameBut s t [q.page] [])

/-- The configuration of the context that owns a site, with its bump. -/
def bumpOf (s : State) (d site : Nat) : CfgCtx := s.work.cfg (s.ownerOf d site)

/-- EPOCH_BUMP to the next epoch is accepted, to any other refused EPOCH; a site that takes it has the new epoch and its staged slots are live; the site that
takes it last gives the context its epoch and publishes DONE (R77, R78). -/
def Piece.EpochBumps : Prop :=
  (∀ (s : State) (q : Issue), s.legal q (cfgSpec 0x12 fun c => c.arg 0 < 512) → s.work.cfgBusy (s.pageCtx q.page) = false →
    s.arg q.page 0 % 256 ≠ ((s.work.ctx (s.pageCtx q.page)).epoch.toNat + 1) % 256 →
    ∃ t, exec (.epochBump q) s = .next t ∧ (∀ x, (t.work.cfg x) = s.work.cfg x) ∧ t.hasEvent q.page 3 ∧
      ((s.work.page q.page).outst = none → t.showsRefused q.page .epoch) ∧ FrameBut s t [q.page] []) ∧
  (∀ (s : State) (q : Issue), s.legal q (cfgSpec 0x12 fun c => c.arg 0 < 512) → s.work.cfgBusy (s.pageCtx q.page) = false →
    s.arg q.page 0 % 256 = ((s.work.ctx (s.pageCtx q.page)).epoch.toNat + 1) % 256 →
    (∀ k ∈ s.work.ctxSlots (s.pageCtx q.page) 255, (s.work.slot k).st = .staged → (s.work.slot k).imgEpoch = s.arg q.page 0 % 256) →
    bit (s.arg q.page 0) 8 = true ∨
      (∀ k ∈ s.work.ctxSlots (s.pageCtx q.page) 255, (s.work.slot k).st ≠ .live ∧ (s.work.slot k).st ≠ .draining) →
    ∃ t, exec (.epochBump q) s = .next t ∧ t.showsAccepted q.page 0x12 none ∧
      (t.work.cfg (s.pageCtx q.page)).bumpTo = s.arg q.page 0 % 256 + 1 ∧
      (t.work.cfg (s.pageCtx q.page)).bumpForce = bit (s.arg q.page 0) 8 ∧ FrameBut s t [q.page] []) ∧
  (∀ (s : State) (d site : Nat), (s.work.siteCtx d site).isSome = true → (bumpOf s d site).bumpTo ≠ 0 → d < 16 → site < 256 →
    (s.work.site (siteKey d site)).epoch ≠ (bumpOf s d site).bumpTo - 1 →
    (s.work.page (cellPage d site)).state = .running ∨ (s.work.page (cellPage d site)).state = .bound →
    ∃ t, exec (.epochBumpTaken d site) s = .next t ∧ (t.work.site (siteKey d site)).epoch = (bumpOf s d site).bumpTo - 1 ∧
      (∀ n, n < 8 → (s.work.slot (slotKey d site n)).st = .staged → (t.work.slot (slotKey d site n)).st = .live) ∧
      (∀ n, n < 8 → (bumpOf s d site).bumpForce = true → (s.work.slot (slotKey d site n)).st = .live →
        (t.work.slot (slotKey d site n)).st = .empty) ∧
      ((s.work.page ((bumpOf s d site).cfgPage - 1)).outst.isSome = true → (bumpOf s d site).nests = [] →
        (∀ k ∈ s.work.ctxSites (s.ownerOf d site), k ≠ siteKey d site → (s.work.site k).epoch = (bumpOf s d site).bumpTo - 1) →
        (t.work.ctx (s.ownerOf d site)).epoch = BitVec.ofNat 8 ((bumpOf s d site).bumpTo - 1) ∧
        t.published ((bumpOf s d site).cfgPage - 1) .done) ∧
      SameMemory s t ∧ SameOutside s t)

/-- A deadlock window that runs out with a cycle of full banks, within the stall limit and the spill space, has its banks copied out; spilled entries return in
order; without a cycle the context is faulted (R83, R84, R85). -/
def Piece.DeadlockResolution : Prop :=
  (∀ (s : State) (d c : Nat), d < 16 → (s.work.page (dldPage d)).state ≠ .off → s.work.dldFrozen c = false → s.work.dldBusy d c = true →
    SMap.at 0 s.dev.fab.lastHs (d * 256 + c) + max (s.work.get (dldPage d) R.DLD_WINDOW_WINDOW) (s.work.get (dldPage d) R.DLD_MINWIN_MINWIN) ≤ s.now.toNat →
    cycleBanks (s.work.waitEdges c) ≠ [] → SMap.at 0 s.dev.fab.stalls (d * 256 + c) + 1 ≤ s.work.get (dldPage d) R.DLD_LIMIT_LIMIT →
    (∀ e, e < 16 → s.work.spillAfter e c (((cycleBanks (s.work.waitEdges c)).filter fun b => b / 32768 == e).take 64) ≤ s.work.spillRoom c) →
    ∃ t, exec (.dldStall d c) s = .next t ∧ t.work.ctr (dldPage d) 0 = s.work.ctr (dldPage d) 0 + 1 ∧
      (∀ e, e < 16 → ((cycleBanks (s.work.waitEdges c)).filter fun b => b / 32768 == e) ≠ [] → SMap.at [] t.dev.fab.spilling e =
        (SMap.at [] s.dev.fab.spilling e ++ ((cycleBanks (s.work.waitEdges c)).filter fun b => b / 32768 == e).take 64).eraseDups) ∧
      FrameBut s t [] [dldPage d]) ∧
  (∀ (s : State) (d c : Nat), d < 16 → (s.work.page (dldPage d)).state ≠ .off → s.work.dldFrozen c = false → s.work.dldBusy d c = true →
    SMap.at 0 s.dev.fab.lastHs (d * 256 + c) + max (s.work.get (dldPage d) R.DLD_WINDOW_WINDOW) (s.work.get (dldPage d) R.DLD_MINWIN_MINWIN) ≤ s.now.toNat →
    cycleBanks (s.work.waitEdges c) = [] →
    ∃ t, exec (.dldStall d c) s = .next t ∧ t.work.ctr (dldPage d) 0 = s.work.ctr (dldPage d) 0 + 1 ∧
      t.work.ctr (dldPage d) 3 = s.work.ctr (dldPage d) 3 + 1 ∧ t.hasEvent (dldPage d) 17 ∧ SameOutside s t) ∧
  (∀ (s : State) (d : Nat), SMap.at [] s.dev.fab.spilling d ≠ [] → (SMap.at [] s.dev.fab.spilling d).Nodup →
    (∀ b ∈ SMap.at [] s.dev.fab.spilling d, s.work.linkRuns d (b / 128 % 256) = true) →
    ∃ t, exec (.spillComplete d) s = .next t ∧ t.hasEvent (dldPage d) 16 ∧ SMap.at [] t.dev.fab.spilling d = [] ∧
      (∀ b ∈ SMap.at [] s.dev.fab.spilling d, (t.work.slot (b / 16)).bank (b % 16) = [] ∧
        (t.work.slot (b / 16)).spilled (b % 16) = (s.work.slot (b / 16)).bank (b % 16) ++ (s.work.slot (b / 16)).spilled (b % 16)) ∧
      FrameBut s t [] []) ∧
  (∀ (s : State) (d site slot net inp : Nat), slot < 8 → net < 3 → inp < 4 → s.work.linkRuns d site = true →
    (s.work.slot (slotKey d site slot)).spilled (net * 4 + inp) ≠ [] →
    ((s.work.slot (slotKey d site slot)).bank (net * 4 + inp)).length < bankCap net →
    bankKey (slotKey d site slot) (net * 4 + inp) ∉ SMap.at [] s.dev.fab.spilling d →
    ∃ t, exec (.bankRefill d site slot net inp) s = .next t ∧
      (t.work.slot (slotKey d site slot)).bank (net * 4 + inp) = (s.work.slot (slotKey d site slot)).bank (net * 4 + inp) ++
        ((s.work.slot (slotKey d site slot)).spilled (net * 4 + inp)).take 1 ∧
      (t.work.slot (slotKey d site slot)).spilled (net * 4 + inp) = ((s.work.slot (slotKey d site slot)).spilled (net * 4 + inp)).tail ∧
      FrameBut s t [] [])

/-- A write of the fold schedule of an idle cell stores its fields and starts the schedule at entry 0; on a running cell it is dropped (R64, R34). -/
def Piece.FoldScheduleWrites : Prop :=
  (∀ (s : State) (b : Caller) (p : Nat) (v : Word), typeOf p = 1 ∨ typeOf p = 2 → s.reaches b p →
    (s.work.page p).state = .idle ∨ (s.work.page p).state = .quiesced →
    ∃ t, exec (.cellFoldWrite b (p * 4096 + 0x144) v) s = .next t ∧ t.work.get p R.CELL_FOLD_NENT = min 8 (v.toNat % 16) ∧
      t.work.get p R.CELL_FOLD_YIELD_BLOCK = v.toNat / 16 % 2 ∧ (t.work.site (siteKey (dieOf p) (siteOf p))).foldPos = 0 ∧
      (t.work.site (siteKey (dieOf p) (siteOf p))).foldCount = 0 ∧ FrameBut s t [] [p]) ∧
  (∀ (s : State) (b : Caller) (p n : Nat) (v : Word), typeOf p = 1 ∨ typeOf p = 2 → s.reaches b p → n < 8 →
    (s.work.page p).state = .idle ∨ (s.work.page p).state = .quiesced →
    ∃ t, exec (.cellFoldWrite b (p * 4096 + 0x148 + 4 * n) v) s = .next t ∧ t.work.get p (R.CELL_FOLDENT_SLOT.i n) = v.toNat % 8 ∧
      t.work.get p (R.CELL_FOLDENT_FIRINGS.i n) = v.toNat / 16 % 2 ^ 24 ∧ FrameBut s t [] [p]) ∧
  (∀ (s : State) (b : Caller) (p : Nat) (v : Word), typeOf p = 1 ∨ typeOf p = 2 → s.reaches b p → (s.work.page p).state = .running →
    ∃ t, exec (.cellFoldWrite b (p * 4096 + 0x144) v) s = .next t ∧ t.hasEvent p 0 ∧ t.hasEvent p 3 ∧
      (∀ k, t.work.site k = s.work.site k) ∧ FrameBut s t [] [])

/-- The place of an issue's GO entry in its context's list, the entry, and the cell's byte at which its bound list goes, in its pair. -/
def goAt (s : State) (x : Nat) (i : NestIssue) : Nat := ((s.work.cfg x).goIx i).getD (s.work.cfg x).gos.length
def goEntry (s : State) (x : Nat) (i : NestIssue) : GoEntry :=
  (s.work.cfg x).gos.getD (goAt s x i) { die := i.die, site := i.site, inp := i.inp, slot := i.slot, seq := 0, inFlight := false }
def listAt (s : State) (x : Nat) (i : NestIssue) : Option Nat :=
  s.work.pairAddr (cellPage i.die i.site) i.bpr (i.blist + 16 * ((goEntry s x i).seq % 2) : Nat) true true

/-- Word j of the bound list in the cell's scratch. -/
def listWord (s : State) (x : Nat) (i : NestIssue) (j : Nat) : Nat :=
  s.work.scratchOf (cellPage i.die i.site) ((listAt s x i).getD 0 + 4 * j)

/-- An issue of a loop nest may go: no GO of its entry is in flight, there is an entry for it, its edge registers are free, its bound list lies in a writable
pair whose banks keep the words apart, and the queue bank has room. -/
def nestMayGo (s : State) (x : Nat) (i : NestIssue) : Prop :=
  (goEntry s x i).inFlight = false ∧ goAt s x i < 64 ∧ s.work.edgesFree i = true ∧ (listAt s x i).isSome = true ∧
  (s.work.pairAddr (cellPage i.die i.site) i.bpr (i.blist + 16 * ((goEntry s x i).seq % 2) + 15 : Nat) true true).isSome = true ∧
  s.work.stale i.die i.site (s.work.ctx x).epoch.toNat = false ∧ s.room i.die i.site i.slot i.inp ∧ i.words.length = 15 ∧
  ∀ k, k < 16 → ∀ j, j < k → listWord s x i j + 4 ≤ listWord s x i k ∨ listWord s x i k + 4 ≤ listWord s x i j

/-- It has gone: the sixteen words of its bound list stand in scratch, its GO token in the bank, its report on the SEQ page. -/
def nestWent (s t : State) (x : Nat) (i : NestIssue) : Prop :=
  (∀ j, j < 16 → t.work.le (listWord s x i j) 4 = (i.words ++ [(goEntry s x i).seq]).getD j 0 % 2 ^ 32) ∧
  (∀ a, a < 2 ^ 100 → (∀ j, j < 16 → a < listWord s x i j ∨ listWord s x i j + 4 ≤ a) → t.mem.byte a = s.mem.byte a) ∧
  (t.work.slot (slotKey i.die i.site i.slot)).bank (8 + i.inp) = (s.work.slot (slotKey i.die i.site i.slot)).bank (8 + i.inp) ++
    [{ epoch := (s.work.ctx x).epoch.toNat, data := 1 + 256 * (s.work.ctx x).epoch.toNat, go := goAt s x i + 1 }] ∧
  t.work.get i.page R.SEQ_LNSTS_WAITING = 0 ∧ t.work.ctr i.page 3 = s.work.ctr i.page 3 + 1 ∧
  t.work.ctr i.page 5 = s.work.ctr i.page 5 + BitVec.ofNat 64 i.clamp ∧ (i.zerok = true → t.hasEvent i.page 17) ∧
  (i.clamped = true → t.hasEvent i.page 18)

/-- The issue of a SEQ page that waits, and the one that an LN_ISSUE makes. -/
def waitingNest (s : State) (p : Nat) : Option NestIssue := (s.work.cfg (s.pageCtx p)).nests.find? fun i => i.page = p
def issuedNest (s : State) (q : Issue) : NestIssue := nestIssue (s.work.call q 0x20) (s.pageCtx q.page) s.work

/-- The SEQ pages of a context, whose SEQ_LNGO shows the number of GO entries, and the cell that takes the bound list. -/
def nestPages (s : State) (x : Nat) (i : NestIssue) : List Nat :=
  cellPage i.die i.site :: (SMap.keys s.work.dev.pages).filter fun p => typeOf p == 4 && (s.work.page p).ctx == some x

/-- LN_ISSUE is accepted and judged: a failing check is its final status; an issue that may go writes its bound list and injects its GO; one that waited does
so when it is resumed (R92, R94, R95, R96). -/
def Piece.LoopNestIssue : Prop :=
  (∀ (s : State) (q : Issue) (st : Status), s.legal q lnSpec → nestFails (s.work.call q 0x20) (s.pageCtx q.page) s.work = some st → s.connected →
    ∃ t, exec (.lnIssue q) s = .next t ∧ t.showsAccepted q.page 0x20 (some st) ∧ (∀ k, t.work.slot k = s.work.slot k) ∧ ReadFrame s t [q.page] []) ∧
  (∀ (s : State) (q : Issue), s.legal q lnSpec → nestFails (s.work.call q 0x20) (s.pageCtx q.page) s.work = none →
    nestMayGo s (s.pageCtx q.page) (issuedNest s q) → s.connected →
    ∃ t, exec (.lnIssue q) s = .next t ∧ t.showsAccepted q.page 0x20 (some .done) ∧ nestWent s t (s.pageCtx q.page) (issuedNest s q) ∧
      SamePagesBut s t [q.page] ∧ SameRegsBut s t (q.page :: nestPages s (s.pageCtx q.page) (issuedNest s q) ++ memPages) ∧ SameContexts s t ∧
      SameOutside s t) ∧
  (∀ (s : State) (p : Nat), s.hasCtx p → (waitingNest s p).isSome = true → (s.work.page p).outst.isSome = true →
    (s.work.page p).state = .bound ∨ (s.work.page p).state = .running → (∀ i ∈ waitingNest s p, nestMayGo s (s.pageCtx p) i) →
    ∃ t, exec (.lnIssueResume p) s = .next t ∧ s.decided t p .done ∧ (∀ i ∈ waitingNest s p, nestWent s t (s.pageCtx p) i ∧
      SameRegsBut s t (p :: nestPages s (s.pageCtx p) i)) ∧
      SamePagesBut s t [p] ∧ SameContexts s t ∧ SameOutside s t)

/-- The draining of slots, fences and the clearing of counters. -/
def Obligations.DrainsFencesAndClears : Prop := Piece.Drains ∧ Piece.FencesAndClears

/-- Epoch bumps and the resolution of deadlocks. -/
def Obligations.EpochsAndDeadlock : Prop := Piece.EpochBumps ∧ Piece.DeadlockResolution

/-- Writes of the fold schedule and the issue of loop nests. -/
def Obligations.FoldsAndNests : Prop := Piece.FoldScheduleWrites ∧ Piece.LoopNestIssue

/-! ### Scratchpads and windows (chapter 8) -/

/-- MC_SETPAIR stores the pair it names; MC_OPENWIN opens a window with its whole room free; MC_CLOSEWIN closes a window without accounts at once, and asks
the others to confirm; MC_WINRET returns units to the pool. Only registers of the page change (R130, R134, R137, R138). -/
def Obligations.PairAndWindowCommands : Prop :=
  (∀ (s : State) (q : Issue), s.legal q setpairSpec → firstFail (setpairChecks (s.work.call q 0x30) s.work) = none →
    ∃ t, exec (.mcSetpair q) s = .next t ∧ t.showsDone q.page ∧ t.work.pairBase q.page (s.arg q.page 0) = s.arg q.page 1 ∧
      t.work.pairSize q.page (s.arg q.page 0) = s.arg q.page 2 ∧ t.work.pairAttr q.page (s.arg q.page 0) = s.arg q.page 3 ∧
      (∀ j, j < 4 → j ≠ s.arg q.page 0 → t.work.pairBase q.page j = s.work.pairBase q.page j ∧
        t.work.pairSize q.page j = s.work.pairSize q.page j ∧ t.work.pairAttr q.page j = s.work.pairAttr q.page j) ∧ FrameBut s t [q.page] [q.page]) ∧
  (∀ (s : State) (q : Issue), s.legal q openwinSpec → firstFail (openwinChecks (s.work.call q 0x31) s.work) = none →
    ∃ t, exec (.mcOpenwin q) s = .next t ∧ t.showsDone q.page ∧ t.work.winState q.page (s.arg q.page 0 % 16) = 1 ∧
      t.work.get q.page (R.MC_WCFG_PAIR.i (s.arg q.page 0 % 16)) = s.arg q.page 0 / 16 ∧
      t.work.get q.page (R.MC_WGEOM_SIZEU.i (s.arg q.page 0 % 16)) = bits (s.arg q.page 1) 24 16 ∧
      t.work.get q.page (R.MC_WPOOL_FREE.i (s.arg q.page 0 % 16)) = bits (s.arg q.page 1) 24 16 * 4096 ∧
      t.work.get q.page (R.MC_WPOOL_NACC.i (s.arg q.page 0 % 16)) = 0 ∧ t.work.get64 q.page (R.MC_WARR_LO_ARR_LO.i (s.arg q.page 0 % 16)) = 0 ∧
      t.work.win (winKey q.page (s.arg q.page 0 % 16)) = { late := (s.work.win (winKey q.page (s.arg q.page 0 % 16))).late } ∧ FrameBut s t [q.page] [q.page]) ∧
  (∀ (s : State) (q : Issue), s.legal q closewinSpec → s.work.winState q.page (s.arg q.page 0) = 1 →
    (s.work.win (winKey q.page (s.arg q.page 0))).accts = [] →
    ∃ t, exec (.mcClosewin q) s = .next t ∧ t.published q.page .done ∧ t.work.winState q.page (s.arg q.page 0) = 0 ∧ FrameBut s t [q.page] [q.page]) ∧
  (∀ (s : State) (q : Issue), s.legal q closewinSpec → s.work.winState q.page (s.arg q.page 0) = 1 →
    (s.work.win (winKey q.page (s.arg q.page 0))).accts ≠ [] →
    ∃ t, exec (.mcClosewin q) s = .next t ∧ t.showsAccepted q.page 0x32 none ∧ t.work.winState q.page (s.arg q.page 0) = 2 ∧
      t.dev.host.out = s.dev.host.out ++
        (((s.work.win (winKey q.page (s.arg q.page 0))).accts.filter fun a => a.waiting ≠ 0).map fun a => .credit 4 a.acc 0x14) ++
        (s.work.win (winKey q.page (s.arg q.page 0))).accts.map (fun a => .credit 2 a.acc 0) ∧ FrameBut s t [q.page] [q.page]) ∧
  (∀ (s : State) (q : Issue), s.legal q winretSpec → s.work.winState q.page (s.arg q.page 0) = 1 →
    s.arg q.page 1 * 4096 ≤ s.work.unreturned q.page (s.arg q.page 0) →
    (∀ a ∈ (s.work.win (winKey q.page (s.arg q.page 0))).accts, a.waiting = 0) →
    ∃ t, exec (.mcWinret q) s = .next t ∧ t.showsDone q.page ∧ t.work.get q.page (R.MC_WPOOL_FREE.i (s.arg q.page 0)) =
        (s.work.get q.page (R.MC_WPOOL_FREE.i (s.arg q.page 0)) + s.arg q.page 1 * 4096) % 2 ^ 21 ∧
      (t.work.win (winKey q.page (s.arg q.page 0))).returned = (s.work.win (winKey q.page (s.arg q.page 0))).returned + s.arg q.page 1 * 4096 ∧
      FrameBut s t [q.page] [q.page])

/-- The parts of a remote-scratch address, zero where it has none; and the account of a write from a die to a window of this package. -/
def rparts (addr : Nat) : Nat × Nat × Nat × Nat × Nat := (remoteParts addr).getD (0, 0, 0, 0, 0)
def writeAcct (s : State) (d c addr : Nat) : Account :=
  ⟨s.work.ownPkg, d, c, (s.work.ctx c).part, s.work.ownPkg, (rparts addr).2.1, (rparts addr).2.2.1, (rparts addr).2.2.2.1⟩

/-- What a die holds of an account. -/
def sendAcct (s : State) (a : Account) : Option SendAcct := (s.work.sends a.die).find? fun x => x.acc = a
/-- The lines it has queued. -/
def queuedLines (s : State) (a : Account) : List (Nat × List Byte) :=
  (sendAcct s a).elim [] fun x => x.queue.flatMap fun q => linesOf q.1 q.2 (q.2.length + 1)

/-- A sender's way to its window is clear: both dies are of this package with a way between them, no write of the die waits for an account, and no stall of
the context's writes has reached its limit. -/
def sendClear (s : State) (a : Account) : Prop :=
  s.connected ∧ a.die < 16 ∧ a.tdie < 16 ∧ SMap.at [] s.dev.rem.waits a.die = [] ∧
  ∀ p ∈ s.work.stallPage a.die a.ctx, ∀ x ∈ s.work.stallsOf p, x.kind = 2 → s.work.stallLate p x = false

/-- A remote write within an open window of this package that admits it takes an account, queues its line and asks for credit; the window grants what is free,
and refuses what it does not admit; credit sends the lines it covers; a revoke gives the balance back (R133, R134, R135, R136, R138). The stall of a writer is
shown on the SEQ page that keeps it (R165). No context is saved. -/
def Piece.CreditedWrites : Prop :=
  (∀ (s : State) (d c addr : Nat) (data : List Byte), (remoteParts addr).isSome = true → sendClear s (writeAcct s d c addr) →
    s.work.physPkg (s.work.ctx c).part (rparts addr).1 = (some s.work.ownPkg, s.work) →
    (∀ x ∈ s.work.sends d, x.acc ≠ writeAcct s d c addr) → (s.work.sends d).length < 64 →
    s.work.fenced d = false → s.work.fenced (rparts addr).2.1 = false →
    s.work.winState (acctPage (writeAcct s d c addr)) (writeAcct s d c addr).twin = 1 →
    s.work.admits (acctPage (writeAcct s d c addr)) (writeAcct s d c addr).twin (writeAcct s d c addr) = true →
    (rparts addr).2.2.2.2 + data.length ≤ s.work.get (acctPage (writeAcct s d c addr)) (R.MC_WGEOM_SIZEU.i (writeAcct s d c addr).twin) * 4096 →
    1 ≤ data.length → data.length ≤ 128 - (rparts addr).2.2.2.2 % 128 →
    (s.work.win (winKey (acctPage (writeAcct s d c addr)) (writeAcct s d c addr).twin)).accts.length < 16 →
    ∃ t, exec (.remoteWrite d c addr data) s = .next t ∧
      (t.work.sends d).map (fun x => (x.acc, x.balance, x.queue)) = (s.work.sends d).map (fun x => (x.acc, x.balance, x.queue)) ++
        [(writeAcct s d c addr, 0, [((rparts addr).2.2.2.2, data)])] ∧
      t.dev.host.out = s.dev.host.out ++ [.credit 0 (writeAcct s d c addr) 1] ∧ SMap.at 0 t.dev.rem.told (d * 256 + c) = 0 ∧
      FrameBut s t [] (s.work.stallPage d c).toList) ∧
  (∀ (s : State) (a : Account) (n : Nat), s.dev.saves = [] → s.connected → a.die < 16 → a.tdie < 16 → a.tmc < 128 → a.twin < 16 →
    s.work.fenced a.tdie = false → s.work.winState (acctPage a) a.twin = 1 → s.work.admits (acctPage a) a.twin a = true → 0 < n →
    n ≤ s.work.get (acctPage a) (R.MC_WPOOL_FREE.i a.twin) / 4096 → (s.work.win (winKey (acctPage a) a.twin)).accts = [] →
    ∃ t, exec (.creditReq a n) s = .next t ∧ t.dev.host.out = s.dev.host.out ++ [.credit 1 a n] ∧
      t.work.get (acctPage a) (R.MC_WPOOL_FREE.i a.twin) = s.work.get (acctPage a) (R.MC_WPOOL_FREE.i a.twin) - n * 4096 ∧
      (t.work.win (winKey (acctPage a) a.twin)).accts = [⟨a, 0⟩] ∧ t.work.get (acctPage a) (R.MC_WPOOL_NACC.i a.twin) = 1 ∧
      FrameBut s t [] [acctPage a]) ∧
  (∀ (s : State) (a : Account) (n : Nat), s.dev.saves = [] → s.connected → a.die < 16 → a.tdie < 16 → a.tmc < 128 → a.twin < 16 →
    a.pkg ≠ s.work.ownPkg → s.work.fenced a.tdie = false → s.work.winState (acctPage a) a.twin ≠ 1 →
    ∃ t, exec (.creditReq a n) s = .next t ∧ t.dev.host.out = s.dev.host.out ++ [.credit 4 a 0x14] ∧ FrameBut s t [] []) ∧
  (∀ (s : State) (a : Account) (n : Nat), s.dev.saves = [] → sendClear s a → a.tmc < 128 → a.twin < 16 → a.pkg = s.work.ownPkg → a.tpkg = a.pkg →
    s.work.fenced a.tdie = false → s.work.winState (acctPage a) a.twin ≠ 1 →
    ∃ t, exec (.creditReq a n) s = .next t ∧ SMap.at 0 t.dev.rem.told (a.die * 256 + a.ctx) = 0x14 ∧
      (∀ x ∈ t.work.sends a.die, x.acc = a → x.queue = []) ∧ FrameBut s t [] (s.work.stallPage a.die a.ctx).toList) ∧
  (∀ (s : State) (a : Account) (n : Nat), sendClear s a → ((sendAcct s a).any fun x => x.size != 0) = true →
    128 * (queuedLines s a).length ≤ ((sendAcct s a).map (·.balance)).getD 0 + n * 4096 →
    ∃ t, exec (.creditGrant a n) s = .next t ∧ t.dev.host.out = s.dev.host.out ++ (queuedLines s a).map (fun l => .line a l.1 l.2) ∧
      (sendAcct t a).map (fun y => (y.balance, y.queue)) =
        (sendAcct s a).map (fun y => (y.balance + n * 4096 - 128 * (queuedLines s a).length, [])) ∧
      FrameBut s t [] (s.work.stallPage a.die a.ctx).toList) ∧
  (∀ (s : State) (a : Account), sendClear s a → (sendAcct s a).isSome = true →
    ∃ t, exec (.winRevoke a) s = .next t ∧
      t.dev.host.out = s.dev.host.out ++ ((sendAcct s a).map fun x => .credit 3 a x.balance).toList ∧
      t.work.sends a.die = (s.work.sends a.die).filter (fun y => y.acc ≠ a) ∧ FrameBut s t [] (s.work.stallPage a.die a.ctx).toList)

/-- Where a line goes that arrives in a window, in its cell's scratch. -/
def lineAt (s : State) (a : Account) (off : Nat) : Nat :=
  s.work.scratchOf (acctPage a) (s.work.winLine (acctPage a) a.twin * 128 + off)

/-- A credited line stands in the window's scratch and in ARRIVED; the last confirmation closes a closing window; after the time allowed the close ends with
TIMEDOUT (R137, R138). -/
def Piece.WindowArrivals : Prop :=
  (∀ (s : State) (a : Account) (off : Nat) (data : List Byte), s.dev.saves = [] → a.tdie < 16 → a.tmc < 128 → a.twin < 16 →
    s.work.fenced a.tdie = false → ((s.work.win (winKey (acctPage a) a.twin)).accts.any fun x => x.acc = a) = true →
    (s.work.page (acctPage a)).state = .running → data.length ≤ 128 - off % 128 →
    ∃ t, exec (.remoteLine a off data) s = .next t ∧
      (∀ j, j < data.length → t.work.rd (lineAt s a off + j) = data.getD j 0) ∧
      t.work.get64 (acctPage a) (R.MC_WARR_LO_ARR_LO.i a.twin) =
        (s.work.get64 (acctPage a) (R.MC_WARR_LO_ARR_LO.i a.twin) + data.length) % 2 ^ 64 ∧
      SameDataBut s t (lineAt s a off) data.length ∧
      SamePagesBut s t [] ∧ SameRegsBut s t [acctPage a] ∧ SameContexts s t ∧ SameOutside s t) ∧
  (∀ (s : State) (a : Account) (n : Nat), s.dev.saves = [] → ((s.work.win (winKey (acctPage a) a.twin)).accts.map fun x => x.acc) = [a] →
    s.work.winState (acctPage a) a.twin = 2 → a.twin < 16 → (s.work.page (acctPage a)).outst = none →
    ∃ t, exec (.winRevokeConfirm a n) s = .next t ∧ t.work.winState (acctPage a) a.twin = 0 ∧
      (t.work.win (winKey (acctPage a) a.twin)).accts = [] ∧ FrameBut s t [] [acctPage a]) ∧
  (∀ (s : State) (d m i : Nat), d < 16 → m < 128 → i < 16 → s.work.winState (mcPage d m) i = 2 → (s.work.page (mcPage d m)).outst = none →
    ∃ t, exec (.winCloseTimeout d m i) s = .next t ∧ t.work.winState (mcPage d m) i = 0 ∧ t.work.get (mcPage d m) (R.MC_WCFG_TIMEDOUT.i i) = 1 ∧
      (t.work.win (winKey (mcPage d m) i)).late =
        ((s.work.win (winKey (mcPage d m) i)).late ++ (s.work.win (winKey (mcPage d m) i)).accts.map (·.acc)).eraseDups ∧
      FrameBut s t [] [mcPage d m])

/-! ### Memory tiers and prefetch (chapter 9) -/

/-- An execution of a ring is in the place the ring keeps for it. -/
def ringSound (r : PfRing) : Prop := r.cur.length = r.descs.length ∧ r.next.length = r.descs.length

/-- PF_ARM is accepted and judged: the first failing check, or DONE with the ring in force; PF_ADVANCE takes its phase, at once DONE where nothing due is
incomplete (R161, R163). -/
def Piece.PrefetchCommands : Prop :=
  (∀ (s : State) (q : Issue) (st : Status), s.legal q pfArmSpec →
    pfArmFails (s.work.call q 0x28) (s.work.ctx (s.pageCtx q.page)).part s.work = some st → s.connected →
    ∃ t, exec (.pfArm q) s = .next t ∧ t.showsAccepted q.page 0x28 (some st) ∧ (∀ p, t.work.ring p = s.work.ring p) ∧ ReadFrame s t [q.page] []) ∧
  (∀ (s : State) (q : Issue), s.legal q pfArmSpec → (s.work.page q.page).state ≠ .running →
    pfArmFails (s.work.call q 0x28) (s.work.ctx (s.pageCtx q.page)).part s.work = none → s.connected →
    ∃ t, exec (.pfArm q) s = .next t ∧ t.showsAccepted q.page 0x28 (some .done) ∧
      (t.work.ring q.page).descs = ((List.range (s.arg q.page 2 % 512)).map fun i => s.work.pfDesc (s.arg64 q.page 0 + 32 * i)) ∧
      (t.work.ring q.page).inflight = bits (s.arg q.page 2) 20 16 ∧ (t.work.ring q.page).pend = false ∧
      t.work.get q.page R.SEQ_PFRING_NDESC = s.arg q.page 2 % 512 ∧ ReadFrame s t [q.page] [q.page]) ∧
  (∀ (s : State) (q : Issue), s.legal q pfArmSpec → (s.work.page q.page).state = .running →
    pfArmFails (s.work.call q 0x28) (s.work.ctx (s.pageCtx q.page)).part s.work = none → s.connected →
    ∃ t, exec (.pfArm q) s = .next t ∧ t.showsAccepted q.page 0x28 (some .done) ∧ (t.work.ring q.page).pend = true ∧
      (t.work.ring q.page).pendDescs = ((List.range (s.arg q.page 2 % 512)).map fun i => s.work.pfDesc (s.arg64 q.page 0 + 32 * i)) ∧
      (t.work.ring q.page).descs = (s.work.ring q.page).descs ∧ t.work.get q.page R.SEQ_PFSTS_PENDARM = 1 ∧ ReadFrame s t [q.page] [q.page]) ∧
  (∀ (s : State) (q : Issue), s.legal q pfAdvanceSpec → s.arg q.page 0 ≠ 255 → s.arg q.page 0 ≤ s.work.phase (s.pageCtx q.page) →
    ∃ t, exec (.pfAdvance q) s = .next t ∧ t.showsDone q.page ∧ t.work.phase (s.pageCtx q.page) = s.work.phase (s.pageCtx q.page) ∧
      FrameBut s t [q.page] []) ∧
  (∀ (s : State) (q : Issue), s.legal q pfAdvanceSpec → s.arg q.page 0 < 255 → s.work.phase (s.pageCtx q.page) < s.arg q.page 0 →
    s.work.maintHold (s.pageCtx q.page) (s.arg q.page 0) = false → s.work.pfDue (s.pageCtx q.page) (s.arg q.page 0) = none →
    ∃ t, exec (.pfAdvance q) s = .next t ∧ t.showsDone q.page ∧ t.work.phase (s.pageCtx q.page) = s.arg q.page 0 ∧
      (∀ p ∈ s.work.seqPages (s.pageCtx q.page), t.work.get p R.SEQ_PFSTS_PHASE = s.arg q.page 0) ∧ SamePagesBut s t [q.page] ∧
      SameContexts s t ∧ SameMemory s t ∧ SameOutside s t)

/-- The first execution of a page's ring that is eligible and waits; and the one of a descriptor that is in flight. -/
def pfNext (s : State) (p : Nat) : Option ((Nat × Bool) × PfDesc) :=
  ((s.work.ring p).runs.find? fun e => s.work.pfEligible (s.pageCtx p) (s.work.ring p) e && ((s.work.ring p).st e).st == 0 &&
    ((s.work.ring p).redo.isEmpty || (s.work.ring p).redo.contains e)).bind fun e => (s.work.ring p).descs[e.1]?.map fun d => (e, d)
def pfFlying (s : State) (p i : Nat) : Option ((Nat × Bool) × PfDesc) :=
  ((s.work.ring p).runs.find? fun e => e.1 == i && ((s.work.ring p).st e).st == 1 &&
    ((s.work.ring p).redo.isEmpty || (s.work.ring p).redo.contains e)).bind fun e => (s.work.ring p).descs[i]?.map fun d => (e, d)

/-- A descriptor may start: those before it are done, and its source and destination are where they may be. -/
def pfMayStart (s : State) (p : Nat) (x : (Nat × Bool) × PfDesc) : Prop :=
  (((s.work.ring p).runs.takeWhile fun f => f ≠ x.1).all fun f => ((s.work.ring p).st f).done) = true ∧
  s.work.pfPairOk (dieOf p) (s.pageCtx p) x.2 0 x.2.len = true ∧ s.work.readable (s.work.ctx (s.pageCtx p)).part x.2.src x.2.len = true ∧
  (x.2.scratch = true ∨ s.work.inT1 (s.work.ctx (s.pageCtx p)).part x.2.dst x.2.len = true) ∧
  (t3Base ≤ x.2.src → s.work.t3Ok (s.work.ctx (s.pageCtx p)).part x.2.src 64 = true)

/-- No stall of a context that waits for its descriptors has reached its limit. -/
def noneLate (s : State) (c : Nat) : Prop := s.work.lateStall c 0 = none ∧ s.work.lateStall c 1 = none

/-- A descriptor in flight may complete: every line of its source can be read, or has come, its destination takes it, and no suspended one goes on after it. -/
def pfMayEnd (s : State) (p : Nat) (x : (Nat × Bool) × PfDesc) : Prop :=
  s.work.pfPairOk (dieOf p) (s.pageCtx p) x.2 0 x.2.len = true ∧ (t3Base ≤ x.2.src → x.2.len ≤ ((s.work.ring p).st x.1).got) ∧
  (x.2.src < t3Base → s.work.srcFailed x.2.src x.2.len = false ∧ ∀ l ∈ linesIn x.2.src x.2.len, s.work.lineWait l = 0) ∧
  (x.2.scratch = false → s.work.held x.2.dst x.2.len = false) ∧
  (∀ f ∈ (s.work.ring p).runs, ((s.work.ring p).st f).st = 1 → ∀ d ∈ (s.work.ring p).descs[f.1]?, d.src < t3Base ∨ f = x.1)

/-- The tier-3 read with a tag, and the descriptor it is made for. -/
def hostRead (s : State) (g : Nat) : Option HostRd := SMap.at none s.dev.tiers.reads g
def readFor (s : State) (g : Nat) : Option (HostRd × PfDesc) :=
  (hostRead s g).bind fun h => if h.unit then none else (s.work.ring h.page).descs[h.idx]?.map fun d => (h, d)
/-- What a descriptor's execution has got of its source. -/
def gotOf (s : State) (h : HostRd) : PfSt := (s.work.ring h.page).st (h.idx, h.isNext)

/-- The engine starts the first eligible descriptor that waits, if nothing forbids it, a tier-3 source by the read of its first line, and completes it once its
last line has been accepted: from tier 1 to tier 1 every byte has been copied; a tier-3 completion delivers its 64 bytes, and one that times out fails the read
(R154, R162). -/
def Piece.PrefetchEngine : Prop :=
  (∀ (s : State) (p : Nat), (s.work.pfRuns p).isSome = true → ringSound (s.work.ring p) → (pfNext s p).isSome = true →
    ((s.work.ring p).runs.filter fun e => ((s.work.ring p).st e).st = 1).length < (s.work.ring p).inflight →
    (∀ x ∈ pfNext s p, pfMayStart s p x) →
    ∃ t, exec (.pfDescStart p) s = .next t ∧ (∀ x ∈ pfNext s p, (t.work.ring p).st x.1 = { st := 1, got := 0 } ∧
      t.dev.host.out = s.dev.host.out ++
        (if t3Base ≤ x.2.src then [.hostRead ((s.work.ctx (s.pageCtx p)).part + 1) s.dev.tiers.nextTag (s.work.hostOf x.2.src) 64] else [])) ∧
      FrameBut s t [] []) ∧
  (∀ (s : State) (p i : Nat), (s.work.pfRuns p).isSome = true → dieOf p < 16 → ringSound (s.work.ring p) → (pfFlying s p i).isSome = true →
    (∀ x ∈ pfFlying s p i, pfMayEnd s p x) → noneLate s (s.pageCtx p) → s.connected →
    ∃ t, exec (.pfDescComplete p i) s = .next t ∧ (∀ x ∈ pfFlying s p i, ((t.work.ring p).st x.1).st = 2) ∧
      t.work.ctr p 7 = s.work.ctr p 7 + 1 ∧ SameContexts s t ∧ SameOutside s t ∧
      (∀ e d, pfFlying s p i = some (e, d) → d.scratch = false → d.len % 64 = 0 → d.src + d.len ≤ t1Size → d.dst + d.len ≤ t1Size →
        d.src % 64 = 0 → d.dst % 64 = 0 → d.src + d.len ≤ d.dst ∨ d.dst + d.len ≤ d.src →
        (∀ j, j < d.len → t.work.rd (d.dst + j) = s.work.rd (d.src + j)) ∧ SameDataBut s t d.dst d.len)) ∧
  (∀ (s : State) (g : Nat) (data : List Byte), (readFor s g).isSome = true →
    (∀ h d, readFor s g = some (h, d) → (s.work.page h.page).ctx.isSome = true ∧ ringSound (s.work.ring h.page) ∧ d.scratch = false ∧
      d.dst + d.len ≤ t1Size ∧ (gotOf s h).got + 64 = d.len) →
    ∃ t, exec (.t3Completion g 0 data) s = .next t ∧ hostRead t g = none ∧
      (∀ h d, readFor s g = some (h, d) → (gotOf t h).got = d.len ∧
        (∀ j, j < 64 → t.work.rd (d.dst + (d.len - 64) + j) = data.getD j 0) ∧ SameDataBut s t (d.dst + (d.len - 64)) 64) ∧
      SamePagesBut s t [] ∧ SameRegsBut s t memPages ∧ SameContexts s t ∧ SameOutside s t) ∧
  (∀ (s : State) (g st : Nat) (data : List Byte), ((hostRead s g).any fun h => h.unit && decide (h.addr < 2 ^ 64)) = true → st < 2 →
    ∃ t, exec (.t3Completion g st data) s = .next t ∧ hostRead t g = none ∧
      (∀ h ∈ hostRead s g, (∀ j, j < 64 → t.work.rd (hostA h.addr + j) = data.getD j 0) ∧ SameDataBut s t (hostA h.addr) 64 ∧
        ((s.work.t3Line h.page h.idx).isSome = true → t.work.t3Line h.page h.idx = some 1)) ∧
      SamePagesBut s t [] ∧ SameRegsBut s t [] ∧ SameContexts s t ∧ SameOutside s t) ∧
  (∀ (s : State) (g : Nat), (hostRead s g).isSome = true →
    (∀ h ∈ hostRead s g, h.unit = false → h.idx < (s.work.ring h.page).cur.length ∧ h.idx < (s.work.ring h.page).next.length ∧
      noneLate s (s.pageCtx h.page)) →
    ∃ t, exec (.t3CompletionTimeout g) s = .next t ∧ hostRead t g = none ∧
      (∀ h ∈ hostRead s g, h.unit = false → (gotOf t h).st = 4) ∧
      (∀ h ∈ hostRead s g, h.unit = true → (s.work.t3Line h.page h.idx).isSome = true → t.work.t3Line h.page h.idx = some 2) ∧
      SameContexts s t ∧ SameMemory s t ∧ SameOutside s t)

/-- A stall that has lasted as long as STALLNOTE says is noted once; one that reaches STALLLIM faults its context (R166). -/
def Piece.StallLimits : Prop :=
  (∀ (s : State) (p : Nat), s.work.get p R.SEQ_STALLNOTE_NOTE ≠ 0 →
    (∃ x ∈ s.work.stallsOf p, x.noted = false ∧ x.start + 1000 * s.work.get p R.SEQ_STALLNOTE_NOTE ≤ s.now.toNat) →
    ∃ t, exec (.stallNote p) s = .next t ∧ t.hasEvent p 19 ∧ (t.work.stallsOf p).length = (s.work.stallsOf p).length ∧
      (∀ y ∈ t.work.stallsOf p, y.start + 1000 * s.work.get p R.SEQ_STALLNOTE_NOTE ≤ s.now.toNat → y.noted = true) ∧ FrameBut s t [] [p]) ∧
  (∀ (s : State) (p : Nat), (∃ x ∈ s.work.stallsOf p, x.start + 1000 * s.work.get p R.SEQ_STALLLIM_LIMIT ≤ s.now.toNat) → s.hasCtx p →
    (s.work.ctx (s.pageCtx p)).state = .running →
    ∃ t, exec (.stallLimit p) s = .next t ∧ t.hasEvent p 3 ∧ SameOutside s t)

/-- Memory: a window of host memory is set while it is not valid and kept while it is; a scrub tags what it cannot correct; a failing channel is FAILED; the
temperature is shown and its limit tells; the loss of a stack is fatal to the package (R153, R156, R157, R158, R375). -/
def Piece.MemoryHealth : Prop :=
  (∀ (s : State) (b : Caller) (i : Nat) (v : Word), i < 128 → s.reaches b (xltPage 0) →
    s.work.get (xltPage 0) (R.XLT_T3MAP_LO_VALID.i i) = 0 →
    ∃ t, exec (.xltT3mapWrite b (xltPage 0 * 4096 + 0x800 + 16 * i) v) s = .next t ∧
      t.work.reg (xltPage 0) (0x200 + 4 * i) = v &&& 0xFFFFF07F#32 ∧ FrameBut s t [] [xltPage 0]) ∧
  (∀ (s : State) (b : Caller) (i : Nat) (v : Word), i < 128 → s.reaches b (xltPage 0) →
    s.work.get (xltPage 0) (R.XLT_T3MAP_LO_VALID.i i) = 1 → bit v.toNat 0 = true →
    ∃ t, exec (.xltT3mapWrite b (xltPage 0 * 4096 + 0x800 + 16 * i) v) s = .next t ∧ t.hasEvent (xltPage 0) 0 ∧ FrameBut s t [] []) ∧
  (∀ (s : State) (g : Nat) (corr unc : List Nat), (s.dev.flt.running.find? fun a => a.act == 1 && a.scope / 5 == g / 240).isSome = true →
    s.work.t1Present g = true → s.work.zeroing false g = false →
    ∃ t, exec (.hbmScrub g corr unc) s = .next t ∧ (∀ a ∈ unc, g * gib ≤ a → a < g * gib + gib → t.work.poisonAt a = true) ∧
      (∀ x ∈ (s.dev.flt.running.find? fun a : Activity => a.act == 1 && a.scope / 5 == g / 240), t.work.runs x.act x.scope = false) ∧
      SameData s t ∧ SamePagesBut s t [] ∧ SameContexts s t ∧ SameOutside s t) ∧
  (∀ (s : State) (g : Nat) (corr unc : List Nat), (s.dev.flt.running.find? fun a => a.act == 2).isSome = true →
    g < s.work.t2Cap → g < 2 ^ 14 → s.work.zeroing true g = false →
    ∃ t, exec (.bulkScrub g corr unc) s = .next t ∧
      (∀ a ∈ unc, t2Base + g * gib ≤ a → a < t2Base + g * gib + gib → t.work.poisonAt a = true) ∧
      (∀ x ∈ (s.dev.flt.running.find? fun a : Activity => a.act == 2), t.work.runs x.act x.scope = false) ∧
      SameData s t ∧ SamePagesBut s t [] ∧ SameContexts s t ∧ SameOutside s t) ∧
  (∀ (s : State) (ch : Nat), ch < 16 → s.work.get (chanPage ch) R.MEM_STS_CHSTATE = 1 →
    ∃ t, exec (.bulkChannelFail ch) s = .next t ∧ t.work.get (chanPage ch) R.MEM_STS_CHSTATE = 2 ∧ t.hasEvent (chanPage ch) 17 ∧ SameOutside s t ∧
      (s.dev.ctxs = [] → FrameBut s t [] [chanPage ch])) ∧
  (∀ (s : State) (p n : Nat), typeOf p = 0x10 ∨ typeOf p = 0x11 → s.work.live p = true → n < 2 ^ 12 →
    ∃ t, exec (.memTempHigh p n) s = .next t ∧ t.work.get p R.MEM_TEMP_TEMP = n ∧
      (toSigned 12 (s.work.get p R.MEM_TEMP_TEMP) < 380 → toSigned 12 n ≥ 380 → t.hasEvent p 18) ∧ FrameBut s t [] [p]) ∧
  (∀ (s : State) (k : Nat), k < 20 → s.work.ready = true → s.work.get (stackPage k) R.MEM_STS_CHSTATE = 1 →
    ∃ t, exec (.stackLoss k) s = .next t ∧ t.work.get (stackPage k) R.MEM_STS_CHSTATE = 2 ∧ t.hasEvent (stackPage k) 17 ∧ t.work.fatal = true ∧
      SameMemory s t ∧ SameOutside s t)

/-- Writes into remote windows under credit. -/
def Obligations.WindowWrites : Prop := Piece.CreditedWrites ∧ Piece.WindowArrivals

/-- The prefetch ring and its engine. -/
def Obligations.PrefetchSchedule : Prop := Piece.PrefetchCommands ∧ Piece.PrefetchEngine

/-- The limits of a stall, and errors of the memories. -/
def Obligations.StallsAndMemoryHealth : Prop := Piece.StallLimits ∧ Piece.MemoryHealth

/-! ### Attention cache paging (chapter 10) -/

/-- A table lies in the address map, and has no more rows than a table may have (R171, R172). -/
def tabSound (s : State) (rq : Nat) : Prop := (s.work.tab rq).addr < 2 ^ 48 ∧ s.work.tRowcap (s.work.tab rq) ≤ 8192

/-- A count of two bytes at a place lies clear of a table. -/
def clearOf (s : State) (rq a : Nat) : Prop := a + 2 ≤ (s.work.tab rq).addr ∨ (s.work.tab rq).addr + tabBytes s rq ≤ a

/-- The regions of a table hold their free pages, and keep their counts clear of it (R169). -/
def poolApart (s : State) (rq : Nat) : Prop :=
  ∀ g ∈ s.work.tTags (s.work.tab rq),
    (s.work.regLow g ≤ (s.work.tab rq).addr ∨ (s.work.tab rq).addr + tabBytes s rq ≤ s.work.regFirst g) ∧
    ∀ x ∈ (s.work.region g).free, s.work.regFirst g ≤ x.1 ∧ x.1 + s.work.pageBytes g x.2 ≤ s.work.regEnd g

/-- Two tables lie apart, and the counts of the pages of the source's rows clear of both. -/
def shareApart (s : State) (rq src r0 r1 : Nat) : Prop :=
  (src = rq ∨ (s.work.tab src).addr + tabBytes s src ≤ (s.work.tab rq).addr ∨ (s.work.tab rq).addr + tabBytes s rq ≤ (s.work.tab src).addr) ∧
  ∀ i, i < r1 + 1 → r0 ≤ i → ∀ j, j < s.work.tPlanes (s.work.tab src) →
    clearOf s rq (s.work.refPlace (entryRef (s.work.tEntry (s.work.tab src) ((s.work.tab src).gen % 2) i j))) ∧
    clearOf s src (s.work.refPlace (entryRef (s.work.tEntry (s.work.tab src) ((s.work.tab src).gen % 2) i j)))

/-- The caller's context is of the table's partition (R177). -/
def ownTable (s : State) (x : TableOf) : Prop := (s.work.tab x.rq).part = (s.work.ctx x.ctx).part

/-- The unit that issued a pool operation has been told its status. -/
def toldPool (t : State) (x : TableOf) (st : Status) : Prop := SMap.at 0 t.dev.pool.told x.ctx = st.code

/-- A table operation done: rows appended for the positions asked for, rows shared, a row's pages replaced, PAGED set, all released. The table's published
generation stays as it was (R177, R181). -/
def Obligations.PoolOperations : Prop :=
  (∀ (s : State) (x : TableOf) (g n : Nat), ownTable s x → tabSound s x.rq → poolApart s x.rq → (s.work.poolGrow x.rq g n).1 = .done →
    ∃ t, exec (.grow x g n) s = .next t ∧ n ≤ t.work.tCover (t.work.tab x.rq) (t.work.tab x.rq).shadow ∧ toldPool t x .done ∧
      (t.work.tab x.rq).gen = (s.work.tab x.rq).gen ∧ SamePagesBut s t [] ∧ SameContexts s t ∧ SameOutside s t) ∧
  (∀ (s : State) (x : TableOf) (g src r0 r1 : Nat), ownTable s x → tabSound s x.rq → tabSound s src → shareApart s x.rq src r0 r1 →
    (s.work.poolShare x.rq g src r0 r1).1 = .done →
    ∃ t, exec (.share x g src r0 r1) s = .next t ∧ r0 ≤ r1 ∧ toldPool t x .done ∧
      t.work.tRows (t.work.tab x.rq) (t.work.tab x.rq).shadow = s.work.tRows (s.work.tab x.rq) (s.work.tab x.rq).shadow + (r1 + 1 - r0) ∧
      (t.work.tab x.rq).gen = (s.work.tab x.rq).gen ∧ SamePagesBut s t [] ∧ SameContexts s t ∧ SameOutside s t) ∧
  (∀ (s : State) (x : TableOf) (g row : Nat) (pages : List Nat), ownTable s x → tabSound s x.rq → (s.work.poolReplace x.rq g row pages).1 = .done →
    ∃ t, exec (.replace x g row pages) s = .next t ∧ pages.length = s.work.tPlanes (s.work.tab x.rq) ∧ toldPool t x .done ∧
      (∀ j, j < pages.length → entryAddr (t.work.tEntry (t.work.tab x.rq) (t.work.tab x.rq).shadow row j) = pages.getD j 0 ∧
        entryShared (t.work.tEntry (t.work.tab x.rq) (t.work.tab x.rq).shadow row j) = false) ∧
      (t.work.tab x.rq).rel = (s.work.tab x.rq).rel ++ (List.range pages.length).map (fun j =>
        entryRef (s.work.tEntry (s.work.tab x.rq) (s.work.tab x.rq).shadow row j)) ∧
      (t.work.tab x.rq).gen = (s.work.tab x.rq).gen ∧ SamePagesBut s t [] ∧ SameContexts s t ∧ SameOutside s t) ∧
  (∀ (s : State) (x : TableOf) (g n : Nat), ownTable s x → tabSound s x.rq → (s.work.poolSetpaged x.rq g n).1 = .done →
    ∃ t, exec (.setpaged x g n) s = .next t ∧ t.work.tPaged (t.work.tab x.rq) (t.work.tab x.rq).shadow = n % 2 ^ 25 ∧ toldPool t x .done ∧
      s.work.tPaged (s.work.tab x.rq) (s.work.tab x.rq).shadow ≤ n ∧ (t.work.tab x.rq).gen = (s.work.tab x.rq).gen ∧
      SameDataBut s t ((s.work.tab x.rq).addr + 32 + 32 * (s.work.tab x.rq).shadow) 4 ∧
      SamePagesBut s t [] ∧ SameRegsBut s t memPages ∧ SameContexts s t ∧ SameOutside s t) ∧
  (∀ (s : State) (x : TableOf) (g : Nat), ownTable s x → (s.work.poolDropall x.rq g).1 = .done →
    ∃ t, exec (.dropall x g) s = .next t ∧ (t.work.tab x.rq).dropping = true ∧ (t.work.tab x.rq).split = [] ∧ toldPool t x .done ∧
      (∀ r ∈ (s.work.tab x.rq).split, r ∈ (t.work.tab x.rq).rel) ∧
      (∀ i j, i < s.work.tRows (s.work.tab x.rq) (s.work.tab x.rq).shadow → j < s.work.tPlanes (s.work.tab x.rq) →
        entryRef (s.work.tEntry (s.work.tab x.rq) (s.work.tab x.rq).shadow i j) ∈ (t.work.tab x.rq).rel) ∧
      FrameBut s t [] [regPage (s.work.tab x.rq).waitTag])

/-- Every edit of a table names the generation after the published one; one that names another changes nothing, and its issuer is told EPOCH; a table of
another partition is BOUND (R177). -/
def Piece.EditsNameTheNextGeneration : Prop :=
  (∀ (s : State) (rq g : Nat), (s.work.tab rq).reg = true → g ≠ (s.work.tab rq).gen + 1 →
    (∀ n, (s.work.poolGrow rq g n).1 = .epoch ∧ (s.work.poolSetpaged rq g n).1 = .epoch) ∧ (s.work.poolDropall rq g).1 = .epoch ∧
    (∀ src r0 r1, (s.work.poolShare rq g src r0 r1).1 = .epoch) ∧ (∀ row pages, (s.work.poolReplace rq g row pages).1 = .epoch)) ∧
  (∀ (s : State) (x : TableOf) (g n src r0 r1 row : Nat) (pages : List Nat) (i : Instr),
    i ∈ [.grow x g n, .setpaged x g n, .dropall x g, .share x g src r0 r1, .replace x g row pages] →
    (s.work.tab x.rq).reg = true → g ≠ (s.work.tab x.rq).gen + 1 ∨ ¬ownTable s x →
    ∃ t, exec i s = .next t ∧ (ownTable s x → toldPool t x .epoch) ∧ (¬ownTable s x → toldPool t x .bound) ∧
      (∀ r, t.work.tab r = s.work.tab r) ∧ FrameBut s t [] [])

/-- The page being zeroed at an address of a region, with its class. -/
def zeroingAt (s : State) (tag a : Nat) : Option (Nat × Nat) := (s.work.region tag).zeroing.find? fun x => x.1 == a

/-- The compaction that runs in a region of a table; the new pages it takes for a row, and the work in which the row has been copied to them. -/
def compaction (s : State) (rq : Nat) : Option Activity :=
  s.dev.flt.running.find? fun a => a.act == 5 && (s.work.tTags (s.work.tab rq)).contains a.scope
def newPages (s : State) (rq row : Nat) : Option (List PageRef × Work) :=
  (s.work.allocEach (s.work.tRowOf (s.work.tab rq) (s.work.tab rq).shadow row).1 (s.work.tTags (s.work.tab rq))).toOption
def rowCopied (s : State) (rq row : Nat) (rs : List PageRef) (w : Work) : Work :=
  (List.range rs.length).foldl (fun w j =>
    w.copyPage (entryAddr (((List.range (s.work.tPlanes (s.work.tab rq))).map (s.work.tEntry (s.work.tab rq) (s.work.tab rq).shadow row)).getD j 0))
      (rs.getD j ⟨0, 0, 0⟩).addr (w.pageBytes (rs.getD j ⟨0, 0, 0⟩).tag (rs.getD j ⟨0, 0, 0⟩).k))
    (w.modTab rq fun t => { t with alloc := t.alloc ++ rs })

/-- The generation before the published one retires once no walker reads it: the rows edited are copied forward. A page to be zeroed is zero when it becomes
free. A compaction moves a private row to new pages (R176, R183, R185). -/
def Piece.GenerationsAndPages : Prop :=
  (∀ (s : State) (rq : Nat), (s.work.tab rq).canRetire = true → (s.work.tab rq).oldDrop = false → (s.work.tab rq).oldRel = [] →
    (s.work.tab rq).wait = 0 → (s.work.tab rq).ops = [] → (s.work.req rq).releasing = false → tabSound s rq →
    (∀ i ∈ (s.work.tab rq).oldLog, i < s.work.tRowcap (s.work.tab rq)) →
    ∃ t, exec (.generationRetire rq) s = .next t ∧ (t.work.tab rq).oldOpen = false ∧ (t.work.tab rq).oldLog = [] ∧
      (∀ i j, i ∈ (s.work.tab rq).oldLog → j < s.work.tPlanes (s.work.tab rq) →
        t.work.tEntry (t.work.tab rq) (t.work.tab rq).shadow i j = s.work.tEntry (s.work.tab rq) ((s.work.tab rq).gen % 2) i j) ∧
      SamePagesBut s t [] ∧ SameRegsBut s t memPages ∧ SameContexts s t ∧ SameOutside s t) ∧
  (∀ (s : State) (tag a : Nat), (zeroingAt s tag a).isSome = true → s.work.firstWait tag = none →
    (∀ x ∈ zeroingAt s tag a, a + s.work.pageBytes tag x.2 ≤ 2 ^ 64) →
    ∃ t, exec (.pageZeroDone tag a) s = .next t ∧
      (∀ x ∈ zeroingAt s tag a, (∀ j, j < s.work.pageBytes tag x.2 → t.work.rd (a + j) = 0) ∧
        (t.work.region tag).free = mergeFree (s.work.tshift tag) (s.work.regLow tag) 9 a x.2 (s.work.region tag).free) ∧
      (∀ x ∈ (t.work.region tag).zeroing, x.1 ≠ a) ∧ SamePagesBut s t [] ∧ SameContexts s t ∧ SameOutside s t) ∧
  (∀ (s : State) (rq row : Nat), (compaction s rq).isSome = true → tabSound s rq →
    (s.work.tab rq).reg = true → (s.work.tab rq).oldOpen = false → row < s.work.tRows (s.work.tab rq) (s.work.tab rq).shadow →
    (∀ j, j < s.work.tPlanes (s.work.tab rq) → entryShared (s.work.tEntry (s.work.tab rq) (s.work.tab rq).shadow row j) = false ∧
      (SMap.at (0, 0) s.dev.pool.refs (entryAddr (s.work.tEntry (s.work.tab rq) (s.work.tab rq).shadow row j) / 4096)).1 = 1) →
    (s.work.tRowOf (s.work.tab rq) (s.work.tab rq).shadow row).2 + 2 ^ (s.work.tRowOf (s.work.tab rq) (s.work.tab rq).shadow row).1 ≤
      s.work.tPaged (s.work.tab rq) ((s.work.tab rq).gen % 2) →
    (newPages s rq row).isSome = true → (∀ rs w, newPages s rq row = some (rs, w) →
      (Work.poolReplace rq ((s.work.tab rq).gen + 1) row (rs.map (·.addr)) (rowCopied s rq row rs w)).1 = .done) →
    ∃ t, exec (.pageCompaction rq row) s = .next t ∧ (∀ x ∈ compaction s rq, t.work.runs x.act x.scope = false) ∧
      (∀ rs w, newPages s rq row = some (rs, w) → ∀ j, j < rs.length →
        entryAddr (t.work.tEntry (t.work.tab rq) (t.work.tab rq).shadow row j) = (rs.getD j ⟨0, 0, 0⟩).addr) ∧
      SameContexts s t ∧ SameOutside s t)

/-- PPL_REGION_SET makes a region of the granules named, all of it but the reference counts free; PPL_REGION_CLEAR ends an unused region (R190). -/
def Obligations.PageRegions : Prop :=
  (∀ (s : State) (q : Issue), s.legal q (pplSpec 0x40 fun c => c.arg 0 < 16 && c.arg 1 < 1024 && c.arg 2 < 1024 &&
      bits (c.arg 3) 7 5 == 0 && c.arg 3 < 512 && c.arg 4 < 64) →
    s.work.regValid (s.arg q.page 0) = false → s.arg q.page 0 / 4 = dieOf q.page - 16 → 16 ≤ dieOf q.page →
    (∀ i, i < s.arg q.page 2 → (s.arg q.page 1 + i) / 240 = dieOf q.page - 16 ∧ s.work.owner kT1 (s.arg q.page 1 + i) = some (s.arg q.page 4) ∧
      s.work.zeroing false (s.arg q.page 1 + i) = false) →
    (∀ r, r < 16 → r ≠ s.arg q.page 0 → s.work.regValid r = true →
      overlaps (s.arg q.page 1) (s.arg q.page 2) (s.work.regFirst r / gib) (s.work.regGrans r) = false) →
    8 ≤ s.arg q.page 3 % 32 → s.arg q.page 3 % 32 ≤ 24 → q.page = pplPage (dieOf q.page - 16) →
    ∃ t, exec (.pplRegionSet q) s = .next t ∧ t.showsDone q.page ∧ t.work.regValid (s.arg q.page 0) = true ∧
      t.work.tshift (s.arg q.page 0) = s.arg q.page 3 % 32 ∧ t.work.regPart (s.arg q.page 0) = s.arg q.page 4 ∧
      t.work.regFirst (s.arg q.page 0) = s.arg q.page 1 * gib ∧ t.work.regGrans (s.arg q.page 0) = s.arg q.page 2 ∧
      (t.work.region (s.arg q.page 0)).free = fillFree (s.arg q.page 3 % 32) (s.arg q.page 1 * gib + s.arg q.page 2 * gib)
        (fillFuel (s.arg q.page 3 % 32) (s.arg q.page 2)) (s.arg q.page 1 * gib + s.arg q.page 2 * 2 ^ 19) ∧
      FrameBut s t [q.page] [q.page]) ∧
  (∀ (s : State) (q : Issue), s.legal q (pplSpec 0x41 fun c => c.arg 0 < 16) → s.arg q.page 0 / 4 = dieOf q.page - 16 →
    q.page = pplPage (dieOf q.page - 16) → (s.dev.pool.refs.any fun e => decide (s.work.regFirst (s.arg q.page 0) ≤ e.1 * 4096) && decide (e.1 * 4096 < s.work.regEnd (s.arg q.page 0))) = false →
    (s.work.region (s.arg q.page 0)).zeroing = [] →
    ∃ t, exec (.pplRegionClear q) s = .next t ∧ t.showsDone q.page ∧ t.work.regValid (s.arg q.page 0) = false ∧
      t.work.region (s.arg q.page 0) = {} ∧ FrameBut s t [q.page] [q.page])

/-- Edits of page tables and the generations of their banks. -/
def Obligations.EditsAndGenerations : Prop := Piece.EditsNameTheNextGeneration ∧ Piece.GenerationsAndPages

/-! ### Hawkmoth attention (chapter 11) -/

/-- What an HWK_RUN on a page asks for. -/
def hwkAsk (s : State) (p : Nat) : HwkAsk :=
  { page := p, ctx := s.pageCtx p, list := s.arg64 p 0, njob := bits (s.arg p 2) 15 0, mask := bits (s.arg p 2) 23 16
    part := s.arg64 p 3, size := bits (s.arg p 5) 23 0, res := s.arg64 p 6
    done := if bit (s.arg p 8) 20 then some (bits (s.arg p 8) 19 16, bits (s.arg p 8) 15 0) else none }

/-- The context for which an engine works; the list from which it takes its next job. -/
def engCtx (s : State) (d e : Nat) : Nat := (s.work.worksFor (hwkPage d e)).getD 0
def jobTaken (s : State) (d e : Nat) : Option (Nat × HwkList) := s.work.takeFrom d e (engCtx s d e)

/-- HWK_RUN is accepted: a list that fails a check of Table 11.3 ends with that check's status, a list that passes is outstanding and active. An idle engine takes
the next job of the oldest list and has its first task at the far end of its deque, a job without tasks is over at once; or it steals the task at the far end of
another deque (R194, R196, R202). -/
def Piece.HawkmothLists : Prop :=
  (∀ (s : State) (q : Issue), s.legal q hwkRunSpec → s.work.hlist q.page = none → s.work.hwkCheck (hwkAsk s q.page) = none → s.connected →
    ∃ (t : State) (l : HwkList), exec (.hwkRun q) s = .next t ∧ t.showsAccepted q.page 0x50 none ∧ t.work.hlist q.page = some l ∧
      l.ctx = s.pageCtx q.page ∧ l.addr = s.arg64 q.page 0 ∧ l.njob = s.arg q.page 2 % 2 ^ 16 ∧ l.next = 0 ∧ l.ended = 0 ∧ l.mover = false ∧
      t.work.get q.page R.HWK_LSTS_ACTIVE = 1 ∧ ReadFrame s t [q.page] [q.page]) ∧
  (∀ (s : State) (q : Issue) (st : Status) (n : Nat), s.legal q hwkRunSpec → s.work.hlist q.page = none →
    s.work.hwkCheck (hwkAsk s q.page) = some (st, n) → s.connected →
    ∃ t, exec (.hwkRun q) s = .next t ∧ t.showsAccepted q.page 0x50 (some st) ∧ t.work.hlist q.page = none ∧
      t.work.get q.page R.HWK_LFAIL_CODE = st.code ∧ ReadFrame s t [q.page] [q.page]) ∧
  (∀ (s : State) (d e : Nat), d < 16 → e < 8 → (s.work.worksFor (hwkPage d e)).isSome = true →
    (s.work.eng (engKey d e)).deque = [] → (s.work.eng (engKey d e)).feed = [] → (jobTaken s d e).isSome = true →
    (∀ p l, jobTaken s d e = some (p, l) → s.work.hlist p = some l ∧ (l.place (s.work.hjob l.addr l.next).need).isSome = true ∧
      (s.work.hjob l.addr l.next).ntasks ≠ 0) →
    ∃ t, exec (.hwkJobTake d e) s = .next t ∧ (∀ p l, jobTaken s d e = some (p, l) → (t.work.hlist p).map (·.next) = some (l.next + 1) ∧
      (t.work.hlist p).map (fun l' => SMap.at {} l'.jobs l.next) = (l.place (s.work.hjob l.addr l.next).need).map (fun off =>
        { off := off, need := (s.work.hjob l.addr l.next).need, taken := true }) ∧
      (t.work.eng (engKey d e)).deque.getLast? = some ((s.work.hjob l.addr l.next).task p l.next 0)) ∧ FrameBut s t [] [hwkPage d e]) ∧
  (∀ (s : State) (d e : Nat), d < 16 → e < 8 → (s.work.worksFor (hwkPage d e)).isSome = true →
    (s.work.eng (engKey d e)).deque = [] → (s.work.eng (engKey d e)).feed = [] → (jobTaken s d e).isSome = true →
    (∀ p l, jobTaken s d e = some (p, l) → s.work.hlist p = some l ∧ (l.place (s.work.hjob l.addr l.next).need).isSome = true ∧
      (s.work.hjob l.addr l.next).ntasks = 0) →
    ∃ t, exec (.hwkJobTake d e) s = .next t ∧ (∀ p l, jobTaken s d e = some (p, l) →
      (t.work.hlist p).map (fun l' => (l'.next, l'.ended)) = some (l.next + 1, l.ended + 1) ∧ t.work.ctr p 0 = s.work.ctr p 0 + 1) ∧
      (t.work.eng (engKey d e)).deque = [] ∧ SamePagesBut s t [] ∧ SameContexts s t ∧ SameOutside s t) ∧
  (∀ (s : State) (d e vd ve : Nat), d < 16 → e < 8 → vd < 16 → ve < 8 → vd / 4 = d / 4 → ¬(vd = d ∧ ve = e) →
    (s.work.worksFor (hwkPage d e)).isSome = true → (s.work.eng (engKey d e)).deque = [] → (s.work.eng (engKey d e)).feed = [] →
    (s.work.eng (engKey d e)).cur = none → (s.work.page (hwkPage vd ve)).ctx = some (engCtx s d e) →
    (s.work.eng (engKey vd ve)).deque ≠ [] → (s.work.eng (engKey vd ve)).feed = [] →
    vd = d ∨ (∀ i, i < 8 → i ≠ e → (s.work.page (hwkPage d i)).ctx = some (engCtx s d e) → (s.work.eng (engKey d i)).deque = []) →
    ∃ t, exec (.hwkSteal d e vd ve) s = .next t ∧ (t.work.eng (engKey d e)).deque = (s.work.eng (engKey vd ve)).deque.getLast?.toList ∧
      (t.work.eng (engKey vd ve)).deque = (s.work.eng (engKey vd ve)).deque.dropLast ∧
      t.work.ctr (hwkPage d e) 2 = s.work.ctr (hwkPage d e) 2 + 1 ∧ FrameBut s t [] [hwkPage d e, hwkPage vd ve])

/-- The task an engine works on, in the work in which it has been taken from its deque and, of a backward job, its sums have begun. -/
def blockWork (s : State) (d e : Nat) : Option (HwkRun × HwkList × HwkJob × Work) :=
  (s.work.curTask d e).map fun x => (x.1, x.2.1, x.2.2.1, x.2.2.2.begun x.2.2.1 x.2.1 x.1)

/-- The row group and the keys of block n of a task. -/
def blockGroup (r : HwkRun) (j : HwkJob) (n : Nat) : Nat := if j.bwd then n / j.nblocks r.task.ch else r.task.rg
def blockKeysOf (r : HwkRun) (j : HwkJob) (n : Nat) : List Nat := j.blockKeys r.task.ch (if j.bwd then n % j.nblocks r.task.ch else n)

/-- The rows of a block's keys and values as the walk finds them. -/
def blockKv (w : Work) (r : HwkRun) (l : HwkList) (j : HwkJob) (n : Nat) : List (Option (Nat × Nat)) :=
  (blockKeysOf r j n).map (w.kvAt j ((SMap.at none l.gens r.task.job).getD 0))

/-- What a block reads: page-table lines; its queries, keys, values and masks; of a backward job its gradients, outputs and statistics. -/
def blockRanges (w : Work) (r : HwkRun) (l : HwkList) (j : HwkJob) (n : Nat) : List (Nat × Nat) :=
  ((blockKeysOf r j n).map (w.walkLines j ((SMap.at none l.gens r.task.job).getD 0))).flatten ++
  w.blockReads j (blockGroup r j n) (blockKeysOf r j n) ((blockKv w r l j n).map (·.getD (0, 0))) ++
  if j.bwd then (j.groupRows (blockGroup r j n)).flatMap fun x => [(j.dO + x * j.d * 2, j.d * 2), (j.o + x * j.d * j.osz, j.d * j.osz), (j.stat + 4 * x, 4)] else []

/-- Block n of the task in hand can run: the walk finds its keys, and what it reads is there. -/
def blockRuns (r : HwkRun) (l : HwkList) (j : HwkJob) (w : Work) (n : Nat) : Prop :=
  (∀ x ∈ blockKv w r l j n, x.isSome = true) ∧ readyRanges w (blockRanges w r l j n)

/-- The engine holds the rows of its row group, each of D values, and the places they go to are free to be written. -/
def hwkRowsFree (s : State) (r : HwkRun) (j : HwkJob) : Prop :=
  r.rows.length = (j.groupRows r.task.rg).length ∧ (∀ x ∈ r.rows, x.o.length = j.d) ∧ ∀ k ∈ j.groupRows r.task.rg, s.work.held (j.o + k * j.d * j.osz) (j.d * j.osz) = false

/-- A block of a forward task leaves the rows of R204 with the engine and stores nothing, one of a backward task goes to memory; the end of a task of a job that
is one chunk ends its rows with their statistics, that of one chunk among others leaves its record in the partial area; the end of a list publishes HWK_RUN
(R203, R204, R205, R206, R211, R214). -/
def Piece.HawkmothBlocks : Prop :=
  (∀ (s : State) (d e : Nat), d < 16 → e < 8 → (s.work.worksFor (hwkPage d e)).isSome = true → unitClear s (hwkPage d e) (engCtx s d e) →
    ((blockWork s d e).bind fun x => x.2.2.2.nextBlock x.2.2.1 x.1.task x.1.next).isSome = true →
    (∀ r l j w, blockWork s d e = some (r, l, j, w) → ∀ n ∈ w.nextBlock j r.task r.next, blockRuns r l j w n) →
    (∀ r l j w, s.work.curTask d e = some (r, l, j, w) → j.bwd = false) →
    ∃ t, exec (.hwkBlock d e) s = .next t ∧
      (∀ r l j w, blockWork s d e = some (r, l, j, w) → ∀ n ∈ w.nextBlock j r.task r.next,
        (t.work.eng (engKey d e)).cur = some { r with
          next := n + 1
          rows := w.fwdBlock j (blockGroup r j n) (blockKeysOf r j n) ((blockKv w r l j n).map (·.getD (0, 0))) r.rows } ∧
        t.work.ctr (hwkPage d e) 4 = s.work.ctr (hwkPage d e) 4 + BitVec.ofNat 64 (2 * (blockKeysOf r j n).length * j.rb)) ∧
      t.work.ctr (hwkPage d e) 3 = s.work.ctr (hwkPage d e) 3 + 1 ∧
      ReadFrame s t [] (hwkPage d e :: unitRegs s (hwkPage d e) (engCtx s d e))) ∧
  (∀ (s : State) (d e : Nat), d < 16 → e < 8 → (s.work.worksFor (hwkPage d e)).isSome = true → unitClear s (hwkPage d e) (engCtx s d e) →
    (s.work.curTask d e).isSome = true →
    (∀ r l j w, s.work.curTask d e = some (r, l, j, w) → j.bwd = true ∧ r.next ≠ 0 ∧ (w.nextBlock j r.task r.next).isSome = true ∧
      ∀ n ∈ w.nextBlock j r.task r.next, blockRuns r l j w n) →
    ∃ t, exec (.hwkBlock d e) s = .next t ∧
      (∀ r l j w, s.work.curTask d e = some (r, l, j, w) → ∀ n ∈ w.nextBlock j r.task r.next,
        (t.work.eng (engKey d e)).cur = some { r with next := n + 1 }) ∧
      t.work.ctr (hwkPage d e) 3 = s.work.ctr (hwkPage d e) 3 + 1 ∧
      SamePagesBut s t [] ∧ SameRegsBut s t (hwkPage d e :: unitRegs s (hwkPage d e) (engCtx s d e)) ∧ SameContexts s t ∧ SameOutside s t) ∧
  (∀ (s : State) (d e : Nat), d < 16 → e < 8 → (s.work.worksFor (hwkPage d e)).isSome = true → unitClear s (hwkPage d e) (engCtx s d e) → noMirror s →
    (s.work.curTask d e).isSome = true →
    (∀ r l j w, s.work.curTask d e = some (r, l, j, w) → j.bwd = false ∧ w.nextBlock j r.task r.next = none ∧ j.nch = 1 ∧ hwkRowsFree s r j ∧
      (SMap.at {} l.jobs r.task.job).tasks + 1 ≠ j.ntasks) →
    ∃ t, exec (.hwkTaskComplete d e) s = .next t ∧ (t.work.eng (engKey d e)).cur = none ∧
      t.work.ctr (hwkPage d e) 1 = s.work.ctr (hwkPage d e) 1 + 1 ∧
      (∀ r l j w, s.work.curTask d e = some (r, l, j, w) →
        (t.work.hlist r.task.page).map (fun l' => (SMap.at {} l'.jobs r.task.job).tasks) = some ((SMap.at {} l.jobs r.task.job).tasks + 1) ∧
        ∀ k, j.groupRows r.task.rg = [k] → ((List.range j.keys).any fun i => s.work.sees j (k / j.g) i) = true →
          ofF32 (r.rows.getD 0 {}).m ≠ .nan → (r.rows.getD 0 {}).m ≠ pinf32 → ofF32 (r.rows.getD 0 {}).l ≠ .nan →
          t.work.le (j.stat + 4 * k) 4 = f32Add (r.rows.getD 0 {}).m (f32Log2 (r.rows.getD 0 {}).l) % 2 ^ 32) ∧
      SamePagesBut s t [] ∧ SameContexts s t ∧ SameOutside s t) ∧
  (∀ (s : State) (d e : Nat), d < 16 → e < 8 → (s.work.worksFor (hwkPage d e)).isSome = true → unitClear s (hwkPage d e) (engCtx s d e) →
    (s.work.curTask d e).isSome = true →
    (∀ r l j w, s.work.curTask d e = some (r, l, j, w) → w.nextBlock j r.task r.next = none ∧ (SMap.at {} l.jobs r.task.job).tasks + 1 ≠ j.ntasks ∧
      if j.bwd then r.next ≠ 0 else j.nch ≠ 1 ∧ SMap.at 0 (SMap.at {} l.jobs r.task.job).chunks r.task.rg + 1 ≠ j.nch) →
    ∃ t, exec (.hwkTaskComplete d e) s = .next t ∧ (t.work.eng (engKey d e)).cur = none ∧
      t.work.ctr (hwkPage d e) 1 = s.work.ctr (hwkPage d e) 1 + 1 ∧
      (∀ r l j w, s.work.curTask d e = some (r, l, j, w) →
        (t.work.hlist r.task.page).map (fun l' => (SMap.at {} l'.jobs r.task.job).tasks) = some ((SMap.at {} l.jobs r.task.job).tasks + 1) ∧
        (j.bwd = true → SameData s t)) ∧
      SamePagesBut s t [] ∧ SameContexts s t ∧ SameOutside s t) ∧
  (∀ (s : State) (p : Nat), typeOf p = 5 → (s.work.page p).outst.isSome = true → s.work.unaccepted p = false →
    ((s.work.hlist p).any fun l => l.allDone && !l.mover && l.go.isNone && (s.work.anchorOf l.ctx).isNone && (s.work.ctx l.ctx).state != .ending) = true →
    ∃ t, exec (.hwkListDone p) s = .next t ∧ t.work.hlist p = none ∧ t.work.get p R.HWK_LSTS_ACTIVE = 0 ∧ t.published p .done ∧
      FrameBut s t [p] [p])

/-- The record of the partial area that a page's engine writes when it quiesces, and the task it has in progress. -/
def quiesceRec (s : State) (p : Nat) : Option (Nat × HwkRun) :=
  (s.work.eng (engKey (dieOf p) (blockOf p).2)).cur.bind fun r => (s.work.hlist r.task.page).bind fun l =>
    (l.engRec r.task.page (dieOf p) (blockOf p).2).map fun a => (a, r)
/-- Values in each of its rows. -/
def rowLen (r : HwkRun) : Nat := (r.rows.headD {}).o.length

/-- A QUIESCING page is QUIESCED, with the event of it; an engine of MASK with a task in progress writes m, l and o of its rows to its record of the partial
area, and no other byte of the tiers (R33, R209; where the rows stand in the record: log entry 61). -/
def Piece.EngineQuiesces : Prop :=
  (∀ (s : State) (p : Nat), (s.work.page p).state = .quiescing →
    ∃ t, exec (.pageQuiesced p) s = .next t ∧ (t.work.page p).state = .quiesced ∧ t.hasEvent p 2 ∧ SameContexts s t ∧ SameOutside s t ∧
      (s.work.tlist p = none → typeOf p ≠ 5 → FrameBut s t [p] [])) ∧
  (∀ (s : State) (p : Nat), (s.work.page p).state = .quiescing → typeOf p = 5 → s.work.tlist p = none → (quiesceRec s p).isSome = true →
    (∀ a r, quiesceRec s p = some (a, r) → r.rows.length ≤ 16 ∧ rowLen r ≤ 256 ∧ (∀ x ∈ r.rows, x.o.length = rowLen r) ∧ a + 16576 ≤ 2 ^ 64) →
    ∃ t, exec (.pageQuiesced p) s = .next t ∧ (t.work.page p).state = .quiesced ∧
      (∀ a r, quiesceRec s p = some (a, r) → SameDataBut s t a 16576 ∧
        ∀ i, i < r.rows.length → t.work.le (a + 64 + i * (8 + 4 * rowLen r)) 4 = (r.rows.getD i {}).m % 2 ^ 32 ∧
          t.work.le (a + 64 + i * (8 + 4 * rowLen r) + 4) 4 = (r.rows.getD i {}).l % 2 ^ 32 ∧
          (∀ k, k < rowLen r → t.work.le (a + 64 + i * (8 + 4 * rowLen r) + 8 + 4 * k) 4 = (r.rows.getD i {}).o.getD k 0 % 2 ^ 32)) ∧
      SamePagesBut s t [p] ∧ SameRegsBut s t memPages ∧ SameContexts s t ∧ SameOutside s t)

/-- Attention lists, their blocks, and engines that quiesce. -/
def Obligations.HawkmothEngines : Prop := Piece.HawkmothLists ∧ Piece.HawkmothBlocks ∧ Piece.EngineQuiesces

/-! ### Ringlet (chapter 12) -/

/-- The context of an anchor does not run, so that its ring run makes no step of its own. -/
def ringStill (s : State) (p : Nat) : Prop := ∀ c ∈ (s.work.page p).ctx, (s.work.ctx c).state ≠ .running

/-- What a run does by itself brings its context no fault: the way to the successor is routed and has a share, and every hub can be reached. -/
def ringRoute (s : State) (p : Nat) : Prop :=
  s.connected ∧ dieOf p < 16 ∧
    (match s.work.hop (s.work.rgroup p).succ 0 with | .port n _ => s.work.hasShare (s.work.ctx (s.pageCtx p)).part n | _ => false) = true
def ringCalm (s : State) (p : Nat) : Prop := ringStill s p ∨ ringRoute s p

/-- A control message of an anchor (R343, Table 19.6). -/
def ringCtl (s : State) (p kind dst : Nat) (words : List Nat) : Msg :=
  { kind := 5, vc := 2, srcPkg := s.work.ownPkg, dstPkg := dst, part := (s.work.ctx (s.pageCtx p)).part, tag := 0, addr := 0
    len := (words.flatMap fun x => natLE 4 x).length, lvl := 0, status := 0, op := kind, data := words.flatMap fun x => natLE 4 x }

/-- The neighbours that an RLT_FORM names, by their physical ids; and what it tells them. -/
def formPred (s : State) (p : Nat) : Option Nat := (s.work.physPkg (s.work.ctx (s.pageCtx p)).part (bits (s.arg p 1) 11 0)).1
def formSucc (s : State) (p : Nat) : Option Nat := (s.work.physPkg (s.work.ctx (s.pageCtx p)).part (bits (s.arg p 1) 27 16)).1
def formWords (s : State) (p : Nat) : List Nat :=
  [s.arg p 2, s.arg p 0 % 128, bits (s.arg p 0) 14 8, bits (s.arg p 0) 19 16, bits (s.arg p 0) 23 20]

/-- Its limits are kept, its slots lie in the context's granules, and its neighbours where R219 asks. -/
def formOk (s : State) (p : Nat) : Prop :=
  (∃ k ∈ formPred s p, s.work.ringNear k (bits (s.arg p 0) 14 8 == 0 && s.arg p 0 % 128 % 2 == 1) = true) ∧
  (∃ k ∈ formSucc s p, s.work.ringNear k (bits (s.arg p 0) 14 8 + 1 == s.arg p 0 % 128 && s.arg p 0 % 128 % 2 == 1) = true) ∧
  s.work.inT1 (s.work.ctx (s.pageCtx p)).part (s.arg64 p 3) (bits (s.arg p 0) 23 20 * bits (s.arg p 5) 18 0 * 1024) = true ∧
  2 ≤ s.arg p 0 % 128 ∧ s.arg p 0 % 128 ≤ 64 ∧ bits (s.arg p 0) 14 8 < s.arg p 0 % 128 ∧
  6 ≤ bits (s.arg p 0) 19 16 ∧ bits (s.arg p 0) 19 16 ≤ 12 ∧ 2 ≤ bits (s.arg p 0) 23 20 ∧ bits (s.arg p 0) 23 20 ≤ 8 ∧
  64 ≤ bits (s.arg p 5) 18 0 ∧ bits (s.arg p 5) 18 0 ≤ 262144

/-- A reply is from the neighbour it claims to be from; it agrees with the group. -/
def replyFrom (s : State) (p : Nat) (fromSucc : Bool) (pkg : Nat) : Prop :=
  (s.work.rgroup p).p ≠ 0 ∧ s.outstanding p 0x58 ∧ pkg = if fromSucc then (s.work.rgroup p).succ else (s.work.rgroup p).pred
def replyAgrees (g : RltGroup) (fromSucc : Bool) (gid n rank swlog nslot : Nat) : Prop :=
  gid = g.gid ∧ n = g.p ∧ swlog = g.swlog ∧ nslot = g.nslot ∧ rank = if fromSucc then (g.rank + 1) % g.p else (g.rank + g.p - 1) % g.p

/-- RLT_FORM, where the limits and the places of the neighbours are right, tells both neighbours; their agreeing replies end it DONE, a reply that differs ends it
SHAPE, and time ends it BUSY. RLT_LEAVE dissolves the group (R215, R219, R230, R231). Where the successor's slots lie is open (log entry 73). -/
def Obligations.RingFormation : Prop :=
  (∀ (s : State) (q : Issue), s.legal q rltFormSpec → formOk s q.page →
    ∃ t, exec (.rltForm q) s = .next t ∧ t.showsAccepted q.page 0x58 none ∧
      { t.work.rgroup q.page with succArea := 0 } = {
        p := s.arg q.page 0 % 128, rank := bits (s.arg q.page 0) 14 8, swlog := bits (s.arg q.page 0) 19 16
        nslot := bits (s.arg q.page 0) 23 20, pred := (formPred s q.page).getD 0, succ := (formSucc s q.page).getD 0, gid := s.arg q.page 2
        area := s.arg64 q.page 3, slotK := bits (s.arg q.page 5) 18 0 } ∧
      t.dev.gyl.issued = s.dev.gyl.issued ++ [ringCtl s q.page 0 ((formPred s q.page).getD 0) (formWords s q.page),
        ringCtl s q.page 0 ((formSucc s q.page).getD 0) (formWords s q.page)] ∧ FrameBut s t [q.page] []) ∧
  (∀ (s : State) (p : Nat) (b : Bool) (pkg gid n rank swlog nslot : Nat), replyFrom s p b pkg →
    replyAgrees (s.work.rgroup p) b gid n rank swlog nslot → (if b then (s.work.rgroup p).predOk else (s.work.rgroup p).succOk) = true →
    ∃ t, exec (.rltFormReply p b pkg gid n rank swlog nslot) s = .next t ∧ s.decided t p .done ∧ (t.work.rgroup p).predOk = true ∧
      (t.work.rgroup p).succOk = true ∧ FrameBut s t [p] []) ∧
  (∀ (s : State) (p : Nat) (b : Bool) (pkg gid n rank swlog nslot : Nat), replyFrom s p b pkg →
    replyAgrees (s.work.rgroup p) b gid n rank swlog nslot → (if b then (s.work.rgroup p).predOk else (s.work.rgroup p).succOk) = false →
    ∃ t, exec (.rltFormReply p b pkg gid n rank swlog nslot) s = .next t ∧
      (if b then (t.work.rgroup p).succOk else (t.work.rgroup p).predOk) = true ∧ FrameBut s t [] []) ∧
  (∀ (s : State) (p : Nat) (b : Bool) (pkg gid n rank swlog nslot : Nat), replyFrom s p b pkg →
    ¬replyAgrees (s.work.rgroup p) b gid n rank swlog nslot →
    ∃ t, exec (.rltFormReply p b pkg gid n rank swlog nslot) s = .next t ∧ s.decided t p .shape ∧ FrameBut s t [p] []) ∧
  (∀ (s : State) (p : Nat), s.outstanding p 0x58 →
    ((s.work.page p).outst.any fun o => decide (o.stamp + s.work.rltTimeout p ≤ s.now.toNat)) = true →
    ∃ t, exec (.rltFormTimeout p) s = .next t ∧ s.decided t p .busy ∧ FrameBut s t [p] []) ∧
  (∀ (s : State) (q : Issue), s.legal q rltLeaveSpec →
    ∃ t, exec (.rltLeave q) s = .next t ∧ t.showsDone q.page ∧ t.work.rgroup q.page = {} ∧ t.work.rstate q.page = 0 ∧ FrameBut s t [q.page] [q.page])

/-- The run that an RLT_RUN asks for, before any block of it has come. -/
def runAsked (s : State) (p : Nat) : RltRun :=
  { sched := s.arg64 p 0, ncb := bits (s.arg p 2) 11 0, decode := bit (s.arg p 2) 16, part := s.arg64 p 3, psize := bits (s.arg p 5) 23 0
    free := List.range (s.work.rgroup p).nslot, last := s.now.toNat
    issue := (if bit (s.arg p 2) 16 then (s.work.rgroup p).rank else 0, 0)
    merge := (if bit (s.arg p 2) 16 then (s.work.rgroup p).rank else 0, 0) }

/-- Its schedule is where and as R224 asks. -/
def runOk (s : State) (p : Nat) : Prop :=
  (runAsked s p).ncb ≠ 0 ∧ ((runAsked s p).decode = true → (runAsked s p).ncb = 1) ∧ (runAsked s p).sched % 32 = 0 ∧
  s.work.inT1 (s.work.ctx (s.pageCtx p)).part (runAsked s p).sched (32 * (s.work.rgroup p).p * (runAsked s p).ncb) = true ∧
  ∀ n, n < (s.work.rgroup p).p * (runAsked s p).ncb → s.work.entryOk (s.work.rgroup p) (runAsked s p) (s.pageCtx p) n = true

/-- Where the next block of a run lands. -/
def landAt (s : State) (p k : Nat) : Nat :=
  (s.work.rgroup p).area + k % (s.work.rgroup p).nslot * (1024 * (s.work.rgroup p).slotK)

/-- RLT_RUN begins a run, or ends UNKNOWN before any transfer where the schedule is broken; a block that arrives stands in its slot and counts; a slot freed by
the successor is free; the state of a decode step is taken in, at rank 0 the final one; the committed length goes on around the ring (R221, R222, R224, R227,
R228, R231). -/
def Piece.RingRuns : Prop :=
  (∀ (s : State) (q : Issue), s.legal q rltRunSpec → ¬runOk s q.page →
    ∃ t, exec (.rltRun q) s = .next t ∧ t.showsAccepted q.page 0x59 (some .unknown) ∧ t.work.rgroup q.page = s.work.rgroup q.page ∧
      t.dev.gyl.issued = s.dev.gyl.issued ∧ FrameBut s t [q.page] [q.page]) ∧
  (∀ (s : State) (q : Issue), s.legal q rltRunSpec → runOk s q.page → ringCalm s q.page → (s.work.rgroup q.page).earlyState = none →
    ∃ t, exec (.rltRun q) s = .next t ∧ (t.work.page q.page).cmdSts = 0x80000101#32 ∧
      ((t.work.page q.page).outst.any fun o => o.code == 0x59) = true ∧ t.work.rstate q.page = 2 ∧ SameContexts s t ∧ SameData s t ∧ SameOutside s t ∧
      (ringStill s q.page → (t.work.rgroup q.page).run = some { runAsked s q.page with
          recv := min (s.work.rgroup q.page).early ((runAsked s q.page).arrivals (s.work.rgroup q.page)) } ∧
        FrameBut s t [q.page] [q.page])) ∧
  (∀ (s : State) (p : Nat) (data : List Byte), (s.work.rgroup p).p ≠ 0 → ringCalm s p →
    (∃ r ∈ (s.work.rgroup p).run, r.recv < r.arrivals (s.work.rgroup p) ∧
      r.occupied (s.work.rgroup p) (r.recv % (s.work.rgroup p).nslot) = false ∧
      data.length = (s.work.rltEntry r (r.ofArrival (s.work.rgroup p) r.recv)).len ∧ landAt s p r.recv + data.length ≤ 2 ^ 64) →
    ∃ t, exec (.rltBlockArrive p data) s = .next t ∧
      t.work.get p R.SEQ_RLTBLK_BLOCKS = (s.work.get p R.SEQ_RLTBLK_BLOCKS + 1) % 2 ^ 32 ∧
      (∀ r ∈ (s.work.rgroup p).run, (∀ j, j < data.length → t.work.rd (landAt s p r.recv + j) = data.getD j 0) ∧
        SameDataBut s t (landAt s p r.recv) data.length ∧
        (ringStill s p → (t.work.rgroup p).run = some { r with recv := r.recv + 1, last := s.now.toNat })) ∧ SameContexts s t ∧ SameOutside s t) ∧
  (∀ (s : State) (p : Nat) (data : List Byte), (s.work.rgroup p).p ≠ 0 → (s.work.rgroup p).run = none → s.work.rstate p = 1 →
    (s.work.rgroup p).early < (s.work.rgroup p).nslot → data.length ≤ 1024 * (s.work.rgroup p).slotK →
    landAt s p (s.work.rgroup p).early + data.length ≤ 2 ^ 64 →
    ∃ t, exec (.rltBlockArrive p data) s = .next t ∧ (t.work.rgroup p).early = (s.work.rgroup p).early + 1 ∧
      (∀ j, j < data.length → t.work.rd (landAt s p (s.work.rgroup p).early + j) = data.getD j 0) ∧
      SameDataBut s t (landAt s p (s.work.rgroup p).early) data.length ∧ SamePagesBut s t [] ∧ SameRegsBut s t (p :: memPages) ∧ SameContexts s t ∧
      SameOutside s t) ∧
  (∀ (s : State) (p slot : Nat), (s.work.rgroup p).p ≠ 0 → ringCalm s p → slot < (s.work.rgroup p).nslot →
    (∃ r ∈ (s.work.rgroup p).run, slot ∉ r.free) →
    ∃ t, exec (.rltFree p slot) s = .next t ∧ SameContexts s t ∧ SameData s t ∧ SameOutside s t ∧
      (ringStill s p → (t.work.rgroup p).run = (s.work.rgroup p).run.map (fun r => { r with free := r.free ++ [slot], last := s.now.toNat }) ∧
        FrameBut s t [] [])) ∧
  (∀ (s : State) (p : Nat) (data : List Byte), (s.work.rgroup p).p ≠ 0 → ringCalm s p →
    (∃ r ∈ (s.work.rgroup p).run, r.decode = true ∧ r.stateIn = false ∧ ((s.work.rgroup p).rank = 0 → r.stateOut = true) ∧
      data.length = (s.work.runStates r (s.work.rgroup p).rank).foldl (fun n e => n + stateBytes e.1 e.2.1 e.2.2) 0) →
    ∃ t, exec (.rltStateArrive p data) s = .next t ∧ SameContexts s t ∧ SameOutside s t ∧
      (ringStill s p → (t.work.rgroup p).run = (s.work.rgroup p).run.map (fun r => { r with stateIn := true, last := s.now.toNat }) ∧
        SamePagesBut s t [] ∧ SameRegsBut s t memPages) ∧
      (∀ r ∈ (s.work.rgroup p).run, (s.work.rgroup p).rank = 0 → (s.work.runStates r 0).length = 1 → ∀ x ∈ s.work.runStates r 0,
        x.1 + data.length ≤ 2 ^ 64 → (∀ j, j < data.length → t.work.rd (x.1 + j) = data.getD j 0) ∧ SameDataBut s t x.1 data.length)) ∧
  (∀ (s : State) (p n : Nat), (s.work.rgroup p).p ≠ 0 → s.work.rstate p = 1 ∨ s.work.rstate p = 2 → (s.work.rgroup p).rank ≠ 0 →
    ∃ t, exec (.rltCommitNotice p n) s = .next t ∧ (t.work.rgroup p).clen = n ∧
      t.dev.gyl.issued = s.dev.gyl.issued ++ (if (s.work.rgroup p).rank + 1 = (s.work.rgroup p).p then []
        else [ringCtl s p 3 (s.work.rgroup p).succ [(s.work.rgroup p).gid, n]]) ∧ FrameBut s t [] [])

/-- The words by which a member tells its neighbours that it abandons are the first that it sends. -/
def abandonTold (s t : State) (p : Nat) : Prop :=
  (s.dev.gyl.issued ++ [ringCtl s p 1 (s.work.rgroup p).pred [(s.work.rgroup p).gid],
    ringCtl s p 1 (s.work.rgroup p).succ [(s.work.rgroup p).gid]]) <+: t.dev.gyl.issued

/-- A member that abandons, by command, at a neighbour's word or for lack of an answer in time, tells both neighbours, has no run, and is ABANDONED; an
RLT_ABANDON may interrupt the RLT_RUN of its page (R229). -/
def Piece.RingAbandonment : Prop :=
  (∀ (s : State) (q : Issue), s.legal q rltAbandonSpec → s.work.rstate q.page = 1 ∨ s.work.rstate q.page = 2 → s.connected → dieOf q.page < 16 →
    ∃ t, exec (.rltAbandon q) s = .next t ∧ t.showsDone q.page ∧ t.work.rstate q.page = 3 ∧ (t.work.rgroup q.page).run = none ∧
      t.hasEvent q.page 21 ∧ abandonTold s t q.page ∧ SameOutside s t) ∧
  (∀ (s : State) (q : Issue), s.reaches q.caller q.page → typeOf q.page = 4 → q.hi = 0 → s.work.mayIssue q.caller q.page = true →
    (s.work.page q.page).state = .bound ∨ (s.work.page q.page).state = .running →
    ((s.work.page q.page).outst.any fun o => o.code == 0x59) = true → s.work.rstate q.page = 2 → s.connected → dieOf q.page < 16 →
    ∃ t, exec (.rltAbandon q) s = .next t ∧ t.showsDone q.page ∧ t.work.rstate q.page = 3 ∧ (t.work.rgroup q.page).run = none ∧
      t.hasEvent q.page 1 ∧ t.hasEvent q.page 21 ∧ abandonTold s t q.page ∧ SameOutside s t) ∧
  (∀ (s : State) (p : Nat), typeOf p = 4 → (s.work.rgroup p).p ≠ 0 → s.work.rstate p = 1 ∨ s.work.rstate p = 2 →
    ∃ t, exec (.rltAbandonMsg p) s = .next t ∧ t.work.rstate p = 3 ∧ (t.work.rgroup p).run = none ∧ t.hasEvent p 21 ∧ abandonTold s t p ∧
      SameOutside s t) ∧
  (∀ (s : State) (p : Nat), s.hasCtx p → (s.work.ctx (s.pageCtx p)).state = .running → s.work.rstate p = 1 ∨ s.work.rstate p = 2 →
    (∃ r ∈ (s.work.rgroup p).run, s.work.awaits p r = true ∧ r.last + s.work.rltTimeout p ≤ s.now.toNat) →
    ∃ t, exec (.rltTimeout p) s = .next t ∧ t.work.rstate p = 3 ∧ (t.work.rgroup p).run = none ∧ t.hasEvent p 21 ∧ abandonTold s t p ∧
      SameOutside s t)

/-- Ringlet runs and their abandonment. -/
def Obligations.RingRunsAndAbandonment : Prop := Piece.RingRuns ∧ Piece.RingAbandonment

/-! ### Skippers (chapter 13) -/

/-- The descriptors that an SKP_PUSH names, as tasks of its page: the last of them nearest (R238). -/
def pushedTasks (s : State) (p : Nat) : List SkpTask :=
  ((List.range (s.arg p 2)).map fun i =>
    { x := setBits (s.work.taskAt (s.arg64 p 0) i) 23 16 (s.pageCtx p), ctx := s.pageCtx p, home := p, seq := (s.work.skp p).next + i
      go := s.work.taskGo (s.pageCtx p) (s.work.taskAt (s.arg64 p 0) i) }).reverse

/-- The task that a Skipper steals, and from which deque (R240). -/
def stealFrom (s : State) (p : Nat) : Option (Nat × SkpTask) :=
  (victims p (s.work.get p R.SKP_STEALCFG_SCOPE)).findSome? fun v =>
    ((s.work.skp v).deque.reverse.find? (s.work.stealable p)).map fun t => (v, t)

/-- The task in the hand of a Skipper. -/
def handTask (s : State) (p : Nat) : SkpTask := ((s.work.skp p).run.map (·.task)).getD { x := 0, ctx := 0, home := 0, seq := 0 }
/-- It has been carried out, its writes are accepted, and no merge of its context is under way. -/
def handDone (s : State) (p : Nat) : Prop :=
  (s.work.skp p).run.map (·.ran) = some true ∧ s.work.unaccepted p = false ∧ SMap.at false s.dev.rlt.merging (handTask s p).ctx = false ∧
    unitClear s p (handTask s p).ctx
/-- It has a join count that can be read. -/
def handJoins (s : State) (p : Nat) : Prop :=
  (handTask s p).join ≠ 0 ∧ s.work.inT1 (s.work.ctx (handTask s p).ctx).part (handTask s p).join 8 = true ∧
    readyRanges s.work [((handTask s p).join, 8)]
def joinCount (s : State) (p : Nat) : Nat := s.work.le (handTask s p).join 8

/-- A list of valid descriptors enters the deque whole, the last of it nearest; a unit of the device pushes one; an idle Skipper takes a task from the first
victim that has one; a task that has run counts and leaves, its join count going down by one, and a count that reaches zero injects GO (R237, R238, R240,
R241). -/
def Obligations.SkipperDeques : Prop :=
  (∀ (s : State) (q : Issue), s.legal q skpPushSpec → s.hasCtx q.page → s.connected → s.arg64 q.page 0 % 64 = 0 →
    s.work.inT1 (s.work.ctx (s.pageCtx q.page)).part (s.arg64 q.page 0) (64 * s.arg q.page 2) = true →
    s.work.poisoned (s.arg64 q.page 0) (64 * s.arg q.page 2) = false → s.arg q.page 2 ≠ 0 →
    (∀ i, i < s.arg q.page 2 → taskBad (s.work.taskAt (s.arg64 q.page 0) i) = false ∧ (bit (s.work.taskAt (s.arg64 q.page 0) i) 8 = true →
      (s.work.taskGo (s.pageCtx q.page) (s.work.taskAt (s.arg64 q.page 0) i)).isSome = true)) →
    (s.work.skp q.page).deque.length + s.arg q.page 2 ≤ 64 →
    ∃ t, exec (.skpPush q) s = .next t ∧ t.showsDone q.page ∧ (t.work.skp q.page).deque = pushedTasks s q.page ++ (s.work.skp q.page).deque ∧
      t.work.get q.page R.SKP_STS_DEPTH = (s.work.skp q.page).deque.length + s.arg q.page 2 ∧ ReadFrame s t [q.page] [q.page]) ∧
  (∀ (s : State) (d i : Nat) (x : Task), d < 16 → i < 32 → s.hasCtx (skpPage d i) → s.work.skpWorks (skpPage d i) = true →
    (s.work.skp (skpPage d i)).deque.length < 64 → x.words.length = 16 → taskBad (taskNum x) = false →
    (bits (taskNum x) 4 0 = 0x0A → (SMap.at [] s.dev.rlt.merges (s.pageCtx (skpPage d i))).head? = some (taskNum x) ∧
      SMap.at false s.dev.rlt.merging (s.pageCtx (skpPage d i)) = false) →
    ∃ t, exec (.skpInternalPush d i x) s = .next t ∧ (t.work.skp (skpPage d i)).deque =
        { x := setBits (taskNum x) 23 16 (s.pageCtx (skpPage d i)), ctx := s.pageCtx (skpPage d i), home := skpPage d i
          seq := (s.work.skp (skpPage d i)).next, go := s.work.taskGo (s.pageCtx (skpPage d i)) (taskNum x) } :: (s.work.skp (skpPage d i)).deque ∧
      FrameBut s t [] [skpPage d i]) ∧
  (∀ (s : State) (d i : Nat), d < 16 → i < 32 → s.work.skpWorks (skpPage d i) = true → (s.work.skp (skpPage d i)).run = none →
    ((s.work.skp (skpPage d i)).deque.all s.work.fenceHeld) = true → (stealFrom s (skpPage d i)).isSome = true → s.connected →
    ∃ t, exec (.skpSteal d i) s = .next t ∧ ∀ v x, stealFrom s (skpPage d i) = some (v, x) →
      ((t.work.skp (skpPage d i)).run).map (·.task) = some x ∧ (t.work.skp v).deque = (s.work.skp v).deque.erase x ∧
      t.work.ctr v 4 = s.work.ctr v 4 + 1 ∧ (∀ n, n = (if dieOf v = d then 1 else if dieOf v / 4 = d / 4 then 2 else 3) →
        t.work.ctr (skpPage d i) n = s.work.ctr (skpPage d i) n + 1) ∧ FrameBut s t [] [skpPage d i, v]) ∧
  (∀ (s : State) (d i : Nat), d < 16 → i < 32 → handDone s (skpPage d i) → (handTask s (skpPage d i)).join = 0 →
    ∃ t, exec (.skpTaskComplete d i) s = .next t ∧ (t.work.skp (skpPage d i)).run = none ∧
      t.work.ctr (skpPage d i) 0 = s.work.ctr (skpPage d i) 0 + 1 ∧
      FrameBut s t [] (skpPage d i :: unitRegs s (skpPage d i) (handTask s (skpPage d i)).ctx)) ∧
  (∀ (s : State) (d i : Nat), d < 16 → i < 32 → handDone s (skpPage d i) → handJoins s (skpPage d i) →
    joinCount s (skpPage d i) ≠ 0 → (joinCount s (skpPage d i) = 1 → goFree s (handTask s (skpPage d i)).ctx (handTask s (skpPage d i)).go) →
    ∃ t, exec (.skpTaskComplete d i) s = .next t ∧ (t.work.skp (skpPage d i)).run = none ∧
      t.work.le (handTask s (skpPage d i)).join 8 = joinCount s (skpPage d i) - 1 ∧ t.work.ctr (skpPage d i) 0 = s.work.ctr (skpPage d i) 0 + 1 ∧
      (joinCount s (skpPage d i) = 1 → goGiven s t (handTask s (skpPage d i)).ctx (handTask s (skpPage d i)).go) ∧
      SameDataBut s t (handTask s (skpPage d i)).join 8 ∧ SamePagesBut s t [] ∧
      SameRegsBut s t (skpPage d i :: unitRegs s (skpPage d i) (handTask s (skpPage d i)).ctx) ∧ SameContexts s t ∧ SameOutside s t)

/-- A Skipper has a task of a kind in hand, not yet run, whose context runs; it works for that context, and no page region is mirrored. -/
def taskInHand (s : State) (p kind : Nat) : Prop :=
  typeOf p = 6 ∧ s.work.live p = true ∧ (s.work.page p).state ≠ .off ∧ (s.work.page p).state ≠ .fenced ∧
    (s.work.skp p).run = some ⟨handTask s p, false, none⟩ ∧ (handTask s p).kind = kind ∧ (s.work.ctx (handTask s p).ctx).state = .running ∧
    unitClear s p (handTask s p).ctx ∧ noMirror s

/-- The task in hand has been carried out. -/
def taskRan (t : State) (p : Nat) : Prop := (t.work.skp p).run.map (·.ran) = some true

/-- Where its address fields lie in the local address map. -/
def srcAt (s : State) (p : Nat) : Nat := (handTask s p).src % 2 ^ 48
def dstAt (s : State) (p : Nat) : Nat := (handTask s p).dst % 2 ^ 48
def p1At (s : State) (p : Nat) : Nat := (handTask s p).p1 % 2 ^ 48

/-- A range of the tier-1 memory of its context's partition for which no access has to wait. -/
def taskSpan (s : State) (p a n : Nat) : Prop :=
  s.work.inT1 (s.work.ctx (handTask s p).ctx).part a n = true ∧ freeRanges s.work [(a, n)]
def srcSpan (s : State) (p n : Nat) : Prop := isScr (handTask s p).src = false ∧ taskSpan s p (srcAt s p) n
def dstSpan (s : State) (p n : Nat) : Prop := isScr (handTask s p).dst = false ∧ taskSpan s p (dstAt s p) n

/-- What a task that writes nothing but what is named leaves alone; what one that writes [a, a + n) does. -/
def taskKeeps (s t : State) (p : Nat) : Prop :=
  SamePagesBut s t [] ∧ SameRegsBut s t (p :: unitRegs s p (handTask s p).ctx) ∧ SameContexts s t ∧ SameOutside s t
def taskFrame (s t : State) (p a n : Nat) : Prop := SameDataBut s t a n ∧ taskKeeps s t p

/-- The index that entry n of the list of a GATHER or a SCATTER holds; the row it names; the list can be read, and its rows are of a legal size (R236). -/
def rowIndex (s : State) (p n : Nat) : Nat := s.work.le (p1At s p + 4 * n) 4
def gatherRow (s : State) (p n : Nat) : Nat := srcAt s p + rowIndex s p n * (handTask s p).p0
def scatterRow (s : State) (p n : Nat) : Nat := dstAt s p + rowIndex s p n * (handTask s p).p0
def rowsNamed (s : State) (p : Nat) : Prop :=
  4 ≤ (handTask s p).p0 ∧ (handTask s p).p0 ≤ 65536 ∧ (handTask s p).p0 % 4 = 0 ∧ isScr (handTask s p).p1 = false ∧
    taskSpan s p (p1At s p) (4 * (handTask s p).len) ∧ readyRanges s.work [(p1At s p, 4 * (handTask s p).len)]

/-- COPY, GATHER, SCATTER and FILL between spans of tier 1 that do not overlap: every byte of the destination is the byte the kind names (R236). -/
def Piece.TasksThatMoveBytes : Prop :=
  (∀ (s : State) (d i : Nat), taskInHand s (skpPage d i) 0x01 → srcSpan s (skpPage d i) (handTask s (skpPage d i)).len →
    dstSpan s (skpPage d i) (handTask s (skpPage d i)).len →
    apart (srcAt s (skpPage d i)) (handTask s (skpPage d i)).len (dstAt s (skpPage d i)) (handTask s (skpPage d i)).len →
    ∃ t, exec (.copy d i) s = .next t ∧ taskRan t (skpPage d i) ∧
      (∀ j, j < (handTask s (skpPage d i)).len → t.work.rd (dstAt s (skpPage d i) + j) = s.work.rd (srcAt s (skpPage d i) + j)) ∧
      taskFrame s t (skpPage d i) (dstAt s (skpPage d i)) (handTask s (skpPage d i)).len) ∧
  (∀ (s : State) (d i : Nat), taskInHand s (skpPage d i) 0x02 → rowsNamed s (skpPage d i) → isScr (handTask s (skpPage d i)).src = false →
    dstSpan s (skpPage d i) ((handTask s (skpPage d i)).len * (handTask s (skpPage d i)).p0) →
    apart (p1At s (skpPage d i)) (4 * (handTask s (skpPage d i)).len) (dstAt s (skpPage d i))
      ((handTask s (skpPage d i)).len * (handTask s (skpPage d i)).p0) →
    (∀ n, n < (handTask s (skpPage d i)).len → taskSpan s (skpPage d i) (gatherRow s (skpPage d i) n) (handTask s (skpPage d i)).p0 ∧
      s.work.poisoned (gatherRow s (skpPage d i) n) (handTask s (skpPage d i)).p0 = false ∧
      apart (gatherRow s (skpPage d i) n) (handTask s (skpPage d i)).p0 (dstAt s (skpPage d i)) ((handTask s (skpPage d i)).len * (handTask s (skpPage d i)).p0)) →
    ∃ t, exec (.gather d i) s = .next t ∧ taskRan t (skpPage d i) ∧
      (∀ n j, n < (handTask s (skpPage d i)).len → j < (handTask s (skpPage d i)).p0 →
        t.work.rd (dstAt s (skpPage d i) + n * (handTask s (skpPage d i)).p0 + j) =
          s.work.rd (gatherRow s (skpPage d i) n + j)) ∧
      taskFrame s t (skpPage d i) (dstAt s (skpPage d i)) ((handTask s (skpPage d i)).len * (handTask s (skpPage d i)).p0)) ∧
  (∀ (s : State) (d i : Nat), taskInHand s (skpPage d i) 0x03 → rowsNamed s (skpPage d i) → isScr (handTask s (skpPage d i)).dst = false →
    srcSpan s (skpPage d i) ((handTask s (skpPage d i)).len * (handTask s (skpPage d i)).p0) →
    s.work.poisoned (srcAt s (skpPage d i)) ((handTask s (skpPage d i)).len * (handTask s (skpPage d i)).p0) = false →
    (∀ n, n < (handTask s (skpPage d i)).len → taskSpan s (skpPage d i) (scatterRow s (skpPage d i) n) (handTask s (skpPage d i)).p0 ∧
      apart (scatterRow s (skpPage d i) n) (handTask s (skpPage d i)).p0 (p1At s (skpPage d i)) (4 * (handTask s (skpPage d i)).len) ∧
      apart (scatterRow s (skpPage d i) n) (handTask s (skpPage d i)).p0 (srcAt s (skpPage d i)) ((handTask s (skpPage d i)).len * (handTask s (skpPage d i)).p0)) →
    ∃ t, exec (.scatter d i) s = .next t ∧ taskRan t (skpPage d i) ∧
      (∀ n j, n < (handTask s (skpPage d i)).len → j < (handTask s (skpPage d i)).p0 →
        (∀ m, n < m → m < (handTask s (skpPage d i)).len → rowIndex s (skpPage d i) m ≠ rowIndex s (skpPage d i) n) →
        t.work.rd (scatterRow s (skpPage d i) n + j) =
          s.work.rd (srcAt s (skpPage d i) + n * (handTask s (skpPage d i)).p0 + j)) ∧
      (∀ a, a < 2 ^ 100 → (∀ n, n < (handTask s (skpPage d i)).len →
        apart a 1 (scatterRow s (skpPage d i) n) (handTask s (skpPage d i)).p0) →
        t.mem.byte a = s.mem.byte a) ∧ taskKeeps s t (skpPage d i)) ∧
  (∀ (s : State) (d i : Nat), taskInHand s (skpPage d i) 0x0B → dstSpan s (skpPage d i) (handTask s (skpPage d i)).len →
    ∃ t, exec (.fill d i) s = .next t ∧ taskRan t (skpPage d i) ∧
      (∀ j, j < (handTask s (skpPage d i)).len →
        t.work.rd (dstAt s (skpPage d i) + j) = BitVec.ofNat 8 ((handTask s (skpPage d i)).p0 / 256 ^ (j % 4))) ∧
      taskFrame s t (skpPage d i) (dstAt s (skpPage d i)) (handTask s (skpPage d i)).len)

/-- Bytes of the state of one row of 64 values, from an address field (R195). -/
def stateLen (field : Nat) : Nat := statOff field 1 64 + 4
/-- Word n of the source of the task in hand, and of its destination. -/
def srcWord (s : State) (p n : Nat) : Nat := s.work.le (srcAt s p + 4 * n) 4
def dstWord (s : State) (p n : Nat) : Nat := s.work.le (dstAt s p + 4 * n) 4

/-- The first entry of an EXP_UNPACK's list, and the expert's output row that it names, of d values (R271). -/
def unpackEntry (s : State) (p : Nat) : Nat := s.work.le (srcAt s p) 8
def unpackRow (s : State) (p : Nat) : Nat :=
  p1At s p + (bits (unpackEntry s p) 40 32 * ((handTask s p).p1 / 2 ^ 48) + bits (unpackEntry s p) 63 48) * (handTask s p).p0 * 4

/-- REDUCE leaves the value of its operation over the words in ascending order; RLT_MERGE of a partial into an empty running state leaves the partial's row and
statistic; EXP_PACK moves the rows of its list to this package; EXP_UNPACK of one output leaves its weighted row (R225, R236, R270, R271). -/
def Obligations.TasksThatCompute : Prop :=
  (∀ (s : State) (d i : Nat), taskInHand s (skpPage d i) 0x09 → (handTask s (skpPage d i)).p0 % 4 ≠ 3 →
    srcSpan s (skpPage d i) (4 * (handTask s (skpPage d i)).len) → dstSpan s (skpPage d i) 4 →
    s.work.poisoned (srcAt s (skpPage d i)) (4 * (handTask s (skpPage d i)).len) = false →
    ∃ t, exec (.reduce d i) s = .next t ∧ taskRan t (skpPage d i) ∧ t.work.le (dstAt s (skpPage d i)) 4 =
        reduceVals ((handTask s (skpPage d i)).p0 % 4) ((List.range (handTask s (skpPage d i)).len).map (srcWord s (skpPage d i))) % 2 ^ 32 ∧
      taskFrame s t (skpPage d i) (dstAt s (skpPage d i)) 4) ∧
  (∀ (s : State) (d i : Nat), taskInHand s (skpPage d i) 0x0A → (handTask s (skpPage d i)).p0 % 8 = 0 → (handTask s (skpPage d i)).len = 1 →
    srcSpan s (skpPage d i) (stateLen (handTask s (skpPage d i)).src) → dstSpan s (skpPage d i) (stateLen (handTask s (skpPage d i)).dst) →
    s.work.poisoned (srcAt s (skpPage d i)) (stateLen (handTask s (skpPage d i)).src) = false →
    s.work.poisoned (dstAt s (skpPage d i)) (stateLen (handTask s (skpPage d i)).dst) = false →
    apart (srcAt s (skpPage d i)) (stateLen (handTask s (skpPage d i)).src) (dstAt s (skpPage d i)) (stateLen (handTask s (skpPage d i)).dst) →
    s.work.le (dstAt s (skpPage d i) + statOff (handTask s (skpPage d i)).dst 1 64) 4 = ninf32 →
    s.work.le (srcAt s (skpPage d i) + statOff (handTask s (skpPage d i)).src 1 64) 4 ≠ ninf32 →
    ofF32 (s.work.le (srcAt s (skpPage d i) + statOff (handTask s (skpPage d i)).src 1 64) 4) ≠ .nan →
    ∃ t, exec (.rltMerge d i) s = .next t ∧ taskRan t (skpPage d i) ∧
      (∀ j, j < 64 → t.work.le (dstAt s (skpPage d i) + 4 * j) 4 = srcWord s (skpPage d i) j) ∧
      t.work.le (dstAt s (skpPage d i) + statOff (handTask s (skpPage d i)).dst 1 64) 4 =
        s.work.le (srcAt s (skpPage d i) + statOff (handTask s (skpPage d i)).src 1 64) 4 ∧
      taskFrame s t (skpPage d i) (dstAt s (skpPage d i)) (stateLen (handTask s (skpPage d i)).dst)) ∧
  (∀ (s : State) (d i : Nat), taskInHand s (skpPage d i) 0x07 → (handTask s (skpPage d i)).p0 < 2 ^ 20 → (handTask s (skpPage d i)).p1 < 2 ^ 60 →
    p1At s (skpPage d i) = 0 → 16 ≤ (handTask s (skpPage d i)).p0 → (handTask s (skpPage d i)).p0 ≤ 65536 → (handTask s (skpPage d i)).p0 % 16 = 0 →
    s.work.physPkg (s.work.ctx (handTask s (skpPage d i)).ctx).part (bits (handTask s (skpPage d i)).p1 59 48) = (some s.work.ownPkg, s.work) →
    srcSpan s (skpPage d i) ((handTask s (skpPage d i)).len * (handTask s (skpPage d i)).p0) →
    dstSpan s (skpPage d i) ((handTask s (skpPage d i)).len * (handTask s (skpPage d i)).p0) →
    apart (srcAt s (skpPage d i)) ((handTask s (skpPage d i)).len * (handTask s (skpPage d i)).p0) (dstAt s (skpPage d i))
      ((handTask s (skpPage d i)).len * (handTask s (skpPage d i)).p0) →
    ∃ t, exec (.expPack d i) s = .next t ∧ taskRan t (skpPage d i) ∧
      (∀ j, j < (handTask s (skpPage d i)).len * (handTask s (skpPage d i)).p0 →
        t.work.rd (dstAt s (skpPage d i) + j) = s.work.rd (srcAt s (skpPage d i) + j)) ∧
      taskFrame s t (skpPage d i) (dstAt s (skpPage d i)) ((handTask s (skpPage d i)).len * (handTask s (skpPage d i)).p0)) ∧
  (∀ (s : State) (d i : Nat), taskInHand s (skpPage d i) 0x08 → 1 ≤ (handTask s (skpPage d i)).p0 → (handTask s (skpPage d i)).p0 ≤ 16384 →
    (handTask s (skpPage d i)).len = 1 → srcSpan s (skpPage d i) 8 → bit (unpackEntry s (skpPage d i)) 41 = true →
    bit (unpackEntry s (skpPage d i)) 42 = true →
    taskSpan s (skpPage d i) (unpackRow s (skpPage d i)) (4 * (handTask s (skpPage d i)).p0) →
    dstSpan s (skpPage d i) (4 * (handTask s (skpPage d i)).p0) →
    ∃ t, exec (.expUnpack d i) s = .next t ∧ taskRan t (skpPage d i) ∧
      (∀ j, j < (handTask s (skpPage d i)).p0 → t.work.le (dstAt s (skpPage d i) + 4 * j) 4 =
        f32Fma (unpackEntry s (skpPage d i) % 2 ^ 32) (s.work.le (unpackRow s (skpPage d i) + 4 * j) 4) 0 % 2 ^ 32) ∧
      taskFrame s t (skpPage d i) (dstAt s (skpPage d i)) (4 * (handTask s (skpPage d i)).p0))

/-! #### The tasks of the attention cache -/

/-- The request whose table a task names, its table and plane; how many rows a token has there, and their bytes (R170). -/
def tskRq (s : State) (p : Nat) : Nat := (handTask s p).p0 % 2 ^ 13
def tskTab (s : State) (p : Nat) : Tab := s.work.tab (tskRq s p)
def tskPlane (s : State) (p : Nat) : Nat := bits (handTask s p).p0 14 13
def tskPos (s : State) (p : Nat) : Nat := (handTask s p).p1 % 2 ^ 25
def planeRb (s : State) (p j : Nat) : Nat := kvRb (tskRq s p) j (s.work.tshift (s.work.tTag (tskTab s p) j))
def planeRows (s : State) (p j : Nat) : Nat := kvCount (tskRq s p) j (s.work.tshift (s.work.tTag (tskTab s p) j))

/-- A token's place: of its entry, of its page, the page's class, and the token in the page. -/
structure Place where
  line : Nat
  page : Nat
  cls : Nat
  tok : Nat
deriving DecidableEq, Repr

/-- Where the shadow has a position of a plane: its entry's place, and the page's address, class and token, where the entry is sound (R173, R174). -/
def placeOf (s : State) (p pos j : Nat) : Option Place :=
  (s.work.shadowAt (tskTab s p) pos j).bind fun (row, k, tok, e) =>
    (s.work.entryPage (tskTab s p) e k).map fun a => ⟨s.work.tRowAt (tskTab s p) (tskTab s p).shadow row + 8 * j, a, k, tok⟩
/-- Its page is not shared. -/
def ownPage (s : State) (p pos j : Nat) : Prop := ∀ e ∈ s.work.shadowAt (tskTab s p) pos j, entryShared e.2.2.2 = false

/-- An entry of a table can be read at once. -/
def entryReady (s : State) (l : Nat) : Prop := l + 8 ≤ t1Size ∧ readyRanges s.work [(l, 8)]

/-- The rows of a token of a page can be written, and lie clear of the table. -/
def rowsFree (s : State) (p j a k tok : Nat) : Prop :=
  ∀ m, m < planeRows s p j → taskSpan s p (a + tokOff (planeRb s p j) k tok m) (planeRb s p j) ∧ a < 2 ^ 48 ∧
    apart (a + tokOff (planeRb s p j) k tok m) (planeRb s p j) (tskTab s p).addr (tabBytes s (tskRq s p))

/-- A table that a task may work on: of its context's partition, in tier 1, its rows no more than it may have. -/
def tableSound (s : State) (p : Nat) : Prop :=
  s.work.badTable (handTask s p) = none ∧ (tskTab s p).addr + tabBytes s (tskRq s p) ≤ t1Size ∧
    s.work.tRows (tskTab s p) (tskTab s p).shadow ≤ s.work.tRowcap (tskTab s p)

/-- KV_SCATTER of one position that the main path takes: a committed prefix that is paged, a row that is there unshared, and rows that can be moved. -/
def scatterOk (s : State) (p : Nat) : Prop :=
  tableSound s p ∧ (handTask s p).len = 1 ∧ (s.work.req (tskRq s p)).clen ≤ tskPos s p ∧
    s.work.tPaged (tskTab s p) ((tskTab s p).gen % 2) = (s.work.req (tskRq s p)).clen ∧ s.work.drafting (tskRq s p) = false ∧
    tskPos s p < s.work.tCover (tskTab s p) (tskTab s p).shadow ∧ ownPage s p (tskPos s p) (tskPlane s p) ∧
    srcSpan s p (planeRows s p (tskPlane s p) * planeRb s p (tskPlane s p)) ∧
    ∃ x ∈ placeOf s p (tskPos s p) (tskPlane s p), entryReady s x.line ∧ rowsFree s p (tskPlane s p) x.page x.cls x.tok ∧
      (∀ m, m < planeRows s p (tskPlane s p) → apart (x.page + tokOff (planeRb s p (tskPlane s p)) x.cls x.tok m) (planeRb s p (tskPlane s p)) (srcAt s p)
        (planeRows s p (tskPlane s p) * planeRb s p (tskPlane s p))) ∧
      (Work.poolSetpaged (tskRq s p) ((tskTab s p).gen + 1) (max (tskPos s p + 1) (s.work.tPaged (tskTab s p) (tskTab s p).shadow))
        (Work.appendToken p (handTask s p).ctx (planeRb s p (tskPlane s p)) (planeRows s p (tskPlane s p)) (handTask s p).src 0 x.page x.cls x.tok
          (s.work.walkTask p (tskRq s p))).2).1 = .done

/-- Position i of those a STAGE_FLUSH copies, from the staging buffer to its page (R188). -/
def flushFrom (s : State) (p : Nat) : Nat := s.work.tPaged (tskTab s p) ((tskTab s p).gen % 2)
def flushCount (s : State) (p : Nat) : Nat := (s.work.req (tskRq s p)).clen - flushFrom s p
def stageRow (s : State) (p i m : Nat) : Nat :=
  s.work.tStage (tskTab s p) (tskPlane s p) + tokOff (planeRb s p (tskPlane s p)) (s.work.tMaxk (tskTab s p))
    ((flushFrom s p + i) % 2 ^ s.work.tMaxk (tskTab s p)) m
def flushOk (s : State) (p : Nat) : Prop :=
  tableSound s p ∧ (s.work.req (tskRq s p)).clen ≤ s.work.tCover (tskTab s p) (tskTab s p).shadow ∧
    ((s.work.walkTask p (tskRq s p)).poolSetpaged (tskRq s p) ((tskTab s p).gen + 1) (s.work.req (tskRq s p)).clen).1 = .done ∧
    s.work.tPaged (tskTab s p) (tskTab s p).shadow ≤ (s.work.req (tskRq s p)).clen ∧
    ∀ i, i < flushCount s p → ownPage s p (flushFrom s p + i) (tskPlane s p) ∧
      ∃ x ∈ placeOf s p (flushFrom s p + i) (tskPlane s p), entryReady s x.line ∧ rowsFree s p (tskPlane s p) x.page x.cls x.tok ∧
        ∀ m, m < planeRows s p (tskPlane s p) → taskSpan s p (stageRow s p i m) (planeRb s p (tskPlane s p)) ∧
          s.work.poisoned (stageRow s p i m) (planeRb s p (tskPlane s p)) = false ∧
          ∀ i', i' < flushCount s p → ∀ m', m' < planeRows s p (tskPlane s p) →
            apart (x.page + tokOff (planeRb s p (tskPlane s p)) x.cls x.tok m) (planeRb s p (tskPlane s p)) (stageRow s p i' m') (planeRb s p (tskPlane s p))

/-- PAGE_SPLIT of a shared row, its split reserve whole and the tokens before the position free to be copied (R179). -/
def splitAddr (s : State) (p j : Nat) : Nat := ((tskTab s p).split.getD j ⟨0, 0, 0⟩).addr
def splitRow (s : State) (p : Nat) : Nat := ((s.work.shadowAt (tskTab s p) (tskPos s p) 0).map (·.1)).getD 0
def splitOk (s : State) (p : Nat) : Prop :=
  tableSound s p ∧ (∃ e ∈ s.work.shadowAt (tskTab s p) (tskPos s p) 0, entryShared e.2.2.2 = true) ∧
    (tskTab s p).split.length = s.work.tPlanes (tskTab s p) ∧
    (Work.poolReplace (tskRq s p) ((tskTab s p).gen + 1) (splitRow s p) ((tskTab s p).split.map (·.addr)) (s.work.walkTask p (tskRq s p))).1 = .done ∧
    ∀ j, j < s.work.tPlanes (tskTab s p) → ∃ x ∈ placeOf s p (tskPos s p) j, entryReady s x.line ∧
      ∀ i, i < x.tok → rowsFree s p j (splitAddr s p j) x.cls i ∧ ∀ m, m < planeRows s p j →
        taskSpan s p (x.page + tokOff (planeRb s p j) x.cls i m) (planeRb s p j) ∧
          s.work.poisoned (x.page + tokOff (planeRb s p j) x.cls i m) (planeRb s p j) = false

/-- The tasks of the attention cache: KV_SCATTER of one position of the main path writes its rows and sets PAGED behind it; STAGE_FLUSH copies the staged
positions and sets PAGED to the committed length; PAGE_SPLIT puts the split reserve's pages in a shared row's place (R179, R186, R188). -/
def Piece.TasksOfTheCache : Prop :=
  (∀ (s : State) (d i : Nat), taskInHand s (skpPage d i) 0x04 → scatterOk s (skpPage d i) →
    ∃ t, exec (.kvScatter d i) s = .next t ∧ taskRan t (skpPage d i) ∧ t.work.tPaged (t.work.tab (tskRq s (skpPage d i))) (tskTab s (skpPage d i)).shadow =
        max (tskPos s (skpPage d i) + 1) (s.work.tPaged (tskTab s (skpPage d i)) (tskTab s (skpPage d i)).shadow) % 2 ^ 25 ∧
      (t.work.tab (tskRq s (skpPage d i))).gen = (tskTab s (skpPage d i)).gen ∧
      (t.work.tab (tskRq s (skpPage d i))).walkers = (tskTab s (skpPage d i)).walkers ++ [(tskTab s (skpPage d i)).gen] ∧
      (∀ x ∈ placeOf s (skpPage d i) (tskPos s (skpPage d i)) (tskPlane s (skpPage d i)),
        ∀ m, m < planeRows s (skpPage d i) (tskPlane s (skpPage d i)) → ∀ j, j < planeRb s (skpPage d i) (tskPlane s (skpPage d i)) →
        t.work.rd (x.page + tokOff (planeRb s (skpPage d i) (tskPlane s (skpPage d i))) x.cls x.tok m + j) =
          s.work.rd (srcAt s (skpPage d i) + m * planeRb s (skpPage d i) (tskPlane s (skpPage d i)) + j)) ∧
      taskKeeps s t (skpPage d i)) ∧
  (∀ (s : State) (d i : Nat), taskInHand s (skpPage d i) 0x05 → flushOk s (skpPage d i) →
    ∃ t, exec (.stageFlush d i) s = .next t ∧ taskRan t (skpPage d i) ∧ t.work.tPaged (t.work.tab (tskRq s (skpPage d i))) (tskTab s (skpPage d i)).shadow =
        (s.work.req (tskRq s (skpPage d i))).clen % 2 ^ 25 ∧
      (flushCount s (skpPage d i) = 1 →
        ∀ x ∈ placeOf s (skpPage d i) (flushFrom s (skpPage d i)) (tskPlane s (skpPage d i)),
        ∀ m, m < planeRows s (skpPage d i) (tskPlane s (skpPage d i)) → ∀ j, j < planeRb s (skpPage d i) (tskPlane s (skpPage d i)) →
        t.work.rd (x.page + tokOff (planeRb s (skpPage d i) (tskPlane s (skpPage d i))) x.cls x.tok m + j) = s.work.rd (stageRow s (skpPage d i) 0 m + j)) ∧
      t.work.ctr (tabPage (tskRq s (skpPage d i))) 4 = s.work.ctr (tabPage (tskRq s (skpPage d i))) 4 + 1 ∧ taskKeeps s t (skpPage d i)) ∧
  (∀ (s : State) (d i : Nat), taskInHand s (skpPage d i) 0x06 → splitOk s (skpPage d i) →
    ∃ t, exec (.pageSplit d i) s = .next t ∧ taskRan t (skpPage d i) ∧
      (∀ j, j < s.work.tPlanes (tskTab s (skpPage d i)) →
        entryAddr (t.work.tEntry (t.work.tab (tskRq s (skpPage d i))) (tskTab s (skpPage d i)).shadow (splitRow s (skpPage d i)) j) = splitAddr s (skpPage d i) j ∧
        entryShared (t.work.tEntry (t.work.tab (tskRq s (skpPage d i))) (tskTab s (skpPage d i)).shadow (splitRow s (skpPage d i)) j) = false) ∧
      (t.work.tab (tskRq s (skpPage d i))).gen = (tskTab s (skpPage d i)).gen ∧
      t.work.ctr (tabPage (tskRq s (skpPage d i))) 3 = s.work.ctr (tabPage (tskRq s (skpPage d i))) 3 + 1 ∧ taskKeeps s t (skpPage d i))

/-- The Skipper tasks that move bytes and those of the cache. -/
def Obligations.TasksThatMove : Prop := Piece.TasksThatMoveBytes ∧ Piece.TasksOfTheCache

/-! ### Teasel (chapter 14) and experts (chapter 15) -/

/-- What a TSL_RUN on a page asks for. -/
def tslAsk (s : State) (p : Nat) : TslAsk :=
  { page := p, ctx := s.pageCtx p, list := s.arg64 p 0, njob := s.arg p 2, save := s.arg64 p 4
    done := if bit (s.arg p 3) 20 then some (bits (s.arg p 3) 19 16, bits (s.arg p 3) 15 0) else none }

/-- The gather list of a page. -/
def gatherList (s : State) (p : Nat) : TslList :=
  (s.work.tlist p).getD { ctx := 0, addr := 0, njob := 0, save := 0, go := none, job := 0, bag := 0, at_ := none, acc := [], n := 0 }

/-- TSL_RUN is accepted and its list checked: the first failing check ends it, a list that passes is active; a list whose jobs are complete injects GO and is
published, in a teardown as FAULT without GO (R252, R257). -/
def Piece.GatherLists : Prop :=
  (∀ (s : State) (q : Issue), s.legal q tslRunSpec → s.work.tslCheck (tslAsk s q.page) = none → s.connected →
    ∃ t, exec (.tslRun q) s = .next t ∧ t.showsAccepted q.page 0x68 none ∧ t.work.tlist q.page = some {
        ctx := s.pageCtx q.page, addr := s.arg64 q.page 0, njob := s.arg q.page 2, save := s.arg64 q.page 4
        go := (tslAsk s q.page).done.bind fun e => s.work.goSite (s.pageCtx q.page) e.1 e.2
        job := 0, bag := 0, at_ := none, acc := [], n := 0 } ∧
      t.work.get q.page R.TSL_STS_ACTIVE = 1 ∧ t.work.get64 q.page R.TSL_OLDEST_LO_OLD_LO = s.now.toNat ∧ ReadFrame s t [q.page] [q.page]) ∧
  (∀ (s : State) (q : Issue) (st : Status) (n : Nat), s.legal q tslRunSpec → s.work.tslCheck (tslAsk s q.page) = some (st, n) → s.connected →
    ∃ t, exec (.tslRun q) s = .next t ∧ t.showsAccepted q.page 0x68 (some st) ∧ t.work.tlist q.page = s.work.tlist q.page ∧
      t.work.get q.page R.TSL_LFAIL_CODE = st.code ∧ ReadFrame s t [q.page] [q.page]) ∧
  (∀ (s : State) (p : Nat), (s.work.tlist p).isSome = true → (gatherList s p).njob ≤ (gatherList s p).job → s.work.unaccepted p = false →
    (s.work.page p).outst.isSome = true → (s.work.ctx (gatherList s p).ctx).state ≠ .ending → goFree s (gatherList s p).ctx (gatherList s p).go →
    ∃ t, exec (.tslListDone p) s = .next t ∧ t.work.tlist p = none ∧ t.published p .done ∧ t.work.get p R.TSL_STS_ACTIVE = 0 ∧
      goGiven s t (gatherList s p).ctx (gatherList s p).go ∧ FrameBut s t [p] [p]) ∧
  (∀ (s : State) (p : Nat), (s.work.tlist p).isSome = true → (gatherList s p).njob ≤ (gatherList s p).job → s.work.unaccepted p = false →
    (s.work.page p).outst.isSome = true → (s.work.ctx (gatherList s p).ctx).state = .ending →
    ∃ t, exec (.tslListDone p) s = .next t ∧ t.work.tlist p = none ∧ t.published p .fault ∧ t.work.get p R.TSL_STS_ACTIVE = 0 ∧
      (∀ k, t.work.slot k = s.work.slot k) ∧ FrameBut s t [p] [p])

/-- The job that a list has come to, its table, the lookup that its open bag has come to, the row this names, and where the row lies in the cold table. -/
def gatherJob (s : State) (p : Nat) : TslJob := s.work.tjob (gatherList s p).addr (gatherList s p).job
def gatherTable (s : State) (p : Nat) : TslTable := s.work.ttab (gatherJob s p)
def lookupNo (s : State) (p : Nat) : Nat := (gatherList s p).at_.getD 0
def lookupAt (s : State) (p : Nat) : Nat := (gatherJob s p).idx + 8 * lookupNo s p
def lookupRow (s : State) (p : Nat) : Nat := s.work.le (lookupAt s p) 8 % 2 ^ 40
def coldRow (s : State) (p : Nat) : Nat := (gatherTable s p).cold + lookupRow s p * (gatherTable s p).stride
/-- Where a bag's output goes. -/
def bagOut (s : State) (p : Nat) : Nat := (gatherJob s p).out + (gatherList s p).bag * (gatherJob s p).ostride

/-- An engine works on an open bag of its list. -/
def bagOpen (s : State) (p : Nat) : Prop :=
  (s.work.tlist p).isSome = true ∧ s.work.worksFor p = some (gatherList s p).ctx ∧ (gatherList s p).job < (gatherList s p).njob ∧
    (gatherList s p).bag < (gatherJob s p).nbag ∧ (gatherList s p).at_.isSome = true ∧ unitClear s p (gatherList s p).ctx

/-- An open bag pools the row of its next lookup, here a row of the cold table in tier 1 without directory, counters or weights; a bag without further lookups is
closed: its FP32 output stands in memory (R249, R253, R254). -/
def Piece.GatherRows : Prop :=
  (∀ (s : State) (h i : Nat), h < 4 → i < 8 → bagOpen s (tslPage h i) →
    lookupNo s (tslPage h i) < s.work.toff (gatherJob s (tslPage h i)) ((gatherList s (tslPage h i)).bag + 1) →
    (gatherJob s (tslPage h i)).pool ≠ 3 → (gatherTable s (tslPage h i)).diren = false → (gatherTable s (tslPage h i)).cnten = false →
    lookupAt s (tslPage h i) + 8 ≤ t1Size → lookupRow s (tslPage h i) < (gatherTable s (tslPage h i)).nrows →
    s.work.inT1 (s.work.ctx (gatherList s (tslPage h i)).ctx).part (coldRow s (tslPage h i)) (gatherTable s (tslPage h i)).width = true →
    readyRanges s.work [(lookupAt s (tslPage h i), 8), (coldRow s (tslPage h i), (gatherTable s (tslPage h i)).width)] →
    ∃ t, exec (.tslRow h i) s = .next t ∧ t.work.tlist (tslPage h i) = some { gatherList s (tslPage h i) with
        at_ := some (lookupNo s (tslPage h i) + 1), n := (gatherList s (tslPage h i)).n + 1
        acc := (List.range (gatherTable s (tslPage h i)).elems).map fun n => poolOne (gatherJob s (tslPage h i)) 0 ((gatherList s (tslPage h i)).acc.getD n 0)
          (toF32 (elemAt (gatherTable s (tslPage h i)).efmt (s.work.le (coldRow s (tslPage h i)) (gatherTable s (tslPage h i)).width) n)) } ∧
      t.work.ctr (tslPage h i) 2 = s.work.ctr (tslPage h i) 2 + 1 ∧
      t.work.ctr (tslPage h i) 7 = s.work.ctr (tslPage h i) 7 + BitVec.ofNat 64 (gatherTable s (tslPage h i)).width ∧
      ReadFrame s t [] (unitRegs s (tslPage h i) (gatherList s (tslPage h i)).ctx)) ∧
  (∀ (s : State) (h i : Nat), h < 4 → i < 8 → bagOpen s (tslPage h i) → noMirror s →
    s.work.toff (gatherJob s (tslPage h i)) ((gatherList s (tslPage h i)).bag + 1) ≤ lookupNo s (tslPage h i) →
    (gatherJob s (tslPage h i)).pool ≠ 1 → (gatherJob s (tslPage h i)).oconv = 0 → (gatherList s (tslPage h i)).acc ≠ [] →
    bagOut s (tslPage h i) + 4 * (gatherList s (tslPage h i)).acc.length ≤ t1Size →
    freeRanges s.work [(bagOut s (tslPage h i), 4 * (gatherList s (tslPage h i)).acc.length)] →
    ∃ t, exec (.tslRow h i) s = .next t ∧
      (∀ n, n < (gatherList s (tslPage h i)).acc.length →
        t.work.le (bagOut s (tslPage h i) + 4 * n) 4 = (gatherList s (tslPage h i)).acc.getD n 0 % 2 ^ 32) ∧
      (t.work.tlist (tslPage h i)).map (fun l => (l.job, l.bag, l.at_, l.acc)) =
        some (if (gatherList s (tslPage h i)).bag + 1 < (gatherJob s (tslPage h i)).nbag
          then ((gatherList s (tslPage h i)).job, (gatherList s (tslPage h i)).bag + 1, none, []) else ((gatherList s (tslPage h i)).job + 1, 0, none, [])) ∧
      t.work.ctr (tslPage h i) 1 = s.work.ctr (tslPage h i) 1 + 1 ∧
      SameDataBut s t (bagOut s (tslPage h i)) (4 * (gatherList s (tslPage h i)).acc.length) ∧ SamePagesBut s t [] ∧
      SameRegsBut s t (tslPage h i :: unitRegs s (tslPage h i) (gatherList s (tslPage h i)).ctx) ∧ SameContexts s t ∧ SameOutside s t)

/-- The oldest route of a hub whose context runs, and its descriptor. -/
def routeFound (s : State) (h : Nat) : Option ExrRoute := (s.work.routes h).find? fun r => (s.work.worksFor r.page) == some r.ctx
def theRoute (s : State) (h : Nat) : ExrRoute := (routeFound s h).getD { page := 0, ctx := 0, desc := 0, go := none }
def routeDesc (s : State) (h : Nat) : ExrDesc := ⟨s.work.le (theRoute s h).desc 64⟩
def routeNe (s : State) (h : Nat) : Nat := s.work.exNe (routeDesc s h).table

/-- The hub may serve it: its descriptor and table can be read at once. -/
def routeReady (s : State) (h : Nat) : Prop :=
  (routeFound s h).isSome = true ∧ unitClear s (exrPage h) (theRoute s h).ctx ∧
    freeRanges s.work [((theRoute s h).desc, 64), ((routeDesc s h).table, 64 + 16 * routeNe s h)]

/-- The check that fails it, the GO entry last (R76, R262). -/
def routeFails (s : State) (h : Nat) : Option Status :=
  (s.work.exCheck (s.work.ctx (theRoute s h).ctx).part (theRoute s h).desc).orElse fun _ => if (theRoute s h).noGo then some .owner else none

/-- The assignments of a route in dispatch order, and those of an expert that are kept. -/
def routeAssigns (s : State) (h : Nat) : List ExAssign := exSlots ((List.range (routeDesc s h).t).map fun t => (s.work.exToken (routeDesc s h) t).1)
def routeCap (s : State) (h : Nat) : Nat := (routeDesc s h).cap (routeNe s h) (routeDesc s h).t
def keptFor (s : State) (h e : Nat) : List ExAssign :=
  ((routeAssigns s h).filter fun a => decide (a.slot < routeCap s h)).filter fun a => a.ex == e

/-- What a route writes: assignments, counts, and dispatch lists. -/
def routeOut (s : State) (h : Nat) : List (Nat × Nat) :=
  [((routeDesc s h).assign, 8 * ((routeDesc s h).t * (routeDesc s h).k)), ((routeDesc s h).count, 8 * routeNe s h + 64),
    ((routeDesc s h).dispatch, 4 * (routeDesc s h).cap (routeNe s h) (routeDesc s h).tplan * routeNe s h)]

/-- EXR_ROUTE joins the routes of its hub. The oldest route whose context runs is checked, a failing check being its final status; one that passes leaves its
assignments and, for each expert, how many it was given and how many it keeps within the capacity, and injects GO (R260, R262, R265, R266). -/
def Obligations.ExpertRouting : Prop :=
  (∀ (s : State) (q : Issue), s.legal q exrSpec → dieOf q.page < 16 →
    ∃ (t : State) (r : ExrRoute), exec (.exrRoute q) s = .next t ∧ t.showsAccepted q.page 0x2C none ∧ r.page = q.page ∧
      r.ctx = s.pageCtx q.page ∧ r.desc = s.arg64 q.page 0 ∧ t.work.routes (dieOf q.page / 4) = s.work.routes (dieOf q.page / 4) ++ [r] ∧
      FrameBut s t [q.page] [exrPage (dieOf q.page / 4)]) ∧
  (∀ (s : State) (h : Nat) (st : Status), h < 4 → routeReady s h → routeFails s h = some st →
    ∃ t, exec (.exrRouteServe h) s = .next t ∧ s.decided t (theRoute s h).page st ∧ t.work.routes h = (s.work.routes h).erase (theRoute s h) ∧
      ReadFrame s t [(theRoute s h).page] (exrPage h :: unitRegs s (exrPage h) (theRoute s h).ctx)) ∧
  (∀ (s : State) (h : Nat), h < 4 → routeReady s h → routeFails s h = none → noMirror s → goFree s (theRoute s h).ctx (theRoute s h).go →
    readyRanges s.work [((routeDesc s h).scores, 4 * routeNe s h * (routeDesc s h).t)] →
    ((routeDesc s h).sets ≠ 0 → readyRanges s.work [((routeDesc s h).sets, (routeDesc s h).t)]) → freeRanges s.work (routeOut s h) →
    ∃ t, exec (.exrRouteServe h) s = .next t ∧ s.decided t (theRoute s h).page .done ∧ t.work.routes h = (s.work.routes h).erase (theRoute s h) ∧
      t.work.ctr (exrPage h) 0 = s.work.ctr (exrPage h) 0 + 1 ∧ t.work.ctr (exrPage h) 1 = s.work.ctr (exrPage h) 1 + BitVec.ofNat 64 (routeDesc s h).t ∧
      (∀ e, e < routeNe s h → t.work.le ((routeDesc s h).count + 8 * e) 8 =
        ((routeAssigns s h).filter fun a => a.ex == e).length + (keptFor s h e).length * 2 ^ 32) ∧
      (apart (routeDesc s h).assign (8 * ((routeDesc s h).t * (routeDesc s h).k)) (routeDesc s h).count (8 * routeNe s h + 64) →
        apart (routeDesc s h).assign (8 * ((routeDesc s h).t * (routeDesc s h).k)) (routeDesc s h).dispatch
          (4 * (routeDesc s h).cap (routeNe s h) (routeDesc s h).tplan * routeNe s h) →
        ∀ i, i < (routeDesc s h).t * (routeDesc s h).k →
          ∀ a ∈ (routeAssigns s h).find? (fun a : ExAssign => a.tok == i / (routeDesc s h).k && a.rank == i % (routeDesc s h).k),
          t.work.le ((routeDesc s h).assign + 8 * i) 8 = exEntry a (routeCap s h) % 2 ^ 64) ∧
      goGiven s t (theRoute s h).ctx (theRoute s h).go ∧
      (∀ a, a < 2 ^ 100 → (∀ x ∈ routeOut s h, apart a 1 x.1 x.2) → t.mem.byte a = s.mem.byte a) ∧ SamePagesBut s t [(theRoute s h).page] ∧
      SameRegsBut s t (exrPage h :: unitRegs s (exrPage h) (theRoute s h).ctx) ∧ SameContexts s t ∧ SameOutside s t)

/-- Gather lists and their rows. -/
def Obligations.TeaselGathers : Prop := Piece.GatherLists ∧ Piece.GatherRows

/-! ### Requests and tokens (chapter 16) -/

/-- The entry that the next submission slot of partition p names. -/
def slotRq (s : State) (p : Nat) : Nat := bits (s.work.le (s.work.subSlot p) 4) 20 8

/-- That slot is the host's to process, its word 0 names operation `op` with reserved bits zero, and the report of it has an event slot. -/
def slotHolds (s : State) (p op : Nat) : Prop :=
  p < 64 ∧ s.work.subWaits p = true ∧ s.work.evReady p = true ∧ s.work.le (s.work.subSlot p) 4 = 2 ^ 31 + slotRq s p * 256 + op

/-- Nothing but host memory is written, and of the pages and registers only those named. -/
def HostFrame (s t : State) (regs : List Nat) : Prop :=
  SamePagesBut s t [] ∧ SameRegsBut s t regs ∧ SameContexts s t ∧ SameOutside s t ∧ ∀ a, a < 2 ^ 64 → t.mem.byte a = s.mem.byte a

/-- A slot that names an entry of the partition, its other bytes zero: what CANCEL, PAUSE, RESUME and RELEASE ask; and the entry. -/
def slotNames (s : State) (p op : Nat) : Prop :=
  slotHolds s p op ∧ (s.work.req (slotRq s p)).part < 64 ∧ s.work.ownsReq p (slotRq s p) = true ∧ s.work.slotZero (s.work.subSlot p) 4 128 = true
def slotReq (s : State) (p : Nat) : Req := s.work.req (slotRq s p)

/-- Mirroring of a partition's requests is off. -/
def unmirrored (s : State) (rq : Nat) : Prop := s.work.get (rqtPage 0) (R.RQT_MIRTGT_MEN.i (s.work.req rq).part) = 0

/-- The ring, offset and size that the slot of a RING_SET names (R279). -/
def setRing (s : State) (p : Nat) : Nat := s.work.le (s.work.subSlot p + 4) 2
def setOff (s : State) (p : Nat) : Nat := s.work.le (s.work.subSlot p + 8) 8
def setLog (s : State) (p : Nat) : Nat := s.work.le (s.work.subSlot p + 16) 1

/-- The submission rows take the slot's entry through the transitions of R276, count the slot, and RING_SET sets its ring (R276, R279, R280). -/
def Piece.Submissions : Prop :=
  (∀ (s : State) (p : Nat), slotHolds s p 1 → (s.work.submit p (s.work.subSlot p) (slotRq s p)).1 = .done →
    ∃ t, exec (.submit p) s = .next t ∧ (t.work.hwin p).sub = ((s.work.hwin p).sub + 1) % 65536 ∧ (t.work.req (slotRq s p)).state = 1 ∧
      (t.work.req (slotRq s p)).part = p ∧ (t.work.req (slotRq s p)).clen = 0 ∧
      (t.work.req (slotRq s p)).limit = s.work.le (s.work.subSlot p + 8) 4 % 2 ^ 25 ∧
      (t.work.req (slotRq s p)).prompt = s.work.le (s.work.subSlot p + 12) 4 % 2 ^ 25 ∧
      (t.work.req (slotRq s p)).usertag = s.work.le (s.work.subSlot p + 88) 8 ∧
      t.work.ctr dbPage 0 = s.work.ctr dbPage 0 + 1 ∧ t.work.ctr dbPage 1 = s.work.ctr dbPage 1 + 1 ∧ SamePagesBut s t [] ∧ SameContexts s t ∧
      SameOutside s t) ∧
  (∀ (s : State) (p : Nat), slotNames s p 2 → 1 ≤ (slotReq s p).state → (slotReq s p).state ≤ 5 →
    (s.work.included (slotRq s p) = false → unmirrored s (slotRq s p)) →
    ∃ t, exec (.cancel p) s = .next t ∧ (t.work.hwin p).sub = ((s.work.hwin p).sub + 1) % 65536 ∧
      t.work.req (slotRq s p) = (if s.work.included (slotRq s p) then { slotReq s p with cancelling := true }
        else { slotReq s p with state := 7, cancelling := false, pausing := false }) ∧ HostFrame s t [dbPage, rqHub (slotRq s p)]) ∧
  (∀ (s : State) (p : Nat), slotNames s p 3 → 1 ≤ (slotReq s p).state → (slotReq s p).state ≤ 4 →
    ∃ t, exec (.pause p) s = .next t ∧ (t.work.hwin p).sub = ((s.work.hwin p).sub + 1) % 65536 ∧
      t.work.req (slotRq s p) = (if s.work.included (slotRq s p) then { slotReq s p with pausing := true }
        else { slotReq s p with state := 5, prior := (slotReq s p).state, cancelling := false, pausing := false }) ∧
      HostFrame s t [dbPage, rqHub (slotRq s p)]) ∧
  (∀ (s : State) (p : Nat), slotNames s p 4 → (slotReq s p).state = 5 →
    ∃ t, exec (.resume p) s = .next t ∧ (t.work.hwin p).sub = ((s.work.hwin p).sub + 1) % 65536 ∧
      t.work.req (slotRq s p) = { slotReq s p with state := (slotReq s p).prior } ∧ HostFrame s t [dbPage, rqHub (slotRq s p)]) ∧
  (∀ (s : State) (p : Nat), slotNames s p 5 → (slotReq s p).state = 6 ∨ (slotReq s p).state = 7 → (slotReq s p).releasing = false →
    (s.work.tab (slotRq s p)).reg = false → unmirrored s (slotRq s p) →
    ∃ t, exec (.release p) s = .next t ∧ (t.work.hwin p).sub = ((s.work.hwin p).sub + 1) % 65536 ∧ t.work.req (slotRq s p) = {} ∧
      HostFrame s t [dbPage, rqHub (slotRq s p)]) ∧
  (∀ (s : State) (p : Nat), slotNames s p 5 → (slotReq s p).state = 6 ∨ (slotReq s p).state = 7 → (slotReq s p).releasing = false →
    (s.work.tab (slotRq s p)).reg = true → (s.work.tab (slotRq s p)).oldOpen = true →
    ∃ t, exec (.release p) s = .next t ∧ (t.work.hwin p).sub = ((s.work.hwin p).sub + 1) % 65536 ∧
      t.work.req (slotRq s p) = { slotReq s p with releasing := true }) ∧
  (∀ (s : State) (p : Nat), slotHolds s p 6 → setRing s p < 2 ^ 13 → s.work.ownsRing p (setRing s p) = true → setOff s p % 64 = 0 →
    4 ≤ setLog s p → setLog s p ≤ 12 → setOff s p + 16 * 2 ^ setLog s p ≤ gib →
    s.work.slotZero (s.work.subSlot p) 6 8 = true → s.work.slotZero (s.work.subSlot p) 17 128 = true →
    (∀ e ∈ s.dev.serve.reqs, e.2.state = 0 ∨ e.2.ring ≠ setRing s p) →
    ∃ t, exec (.ringSet p) s = .next t ∧ (t.work.hwin p).sub = ((s.work.hwin p).sub + 1) % 65536 ∧
      t.work.tokRing (setRing s p) = { isSet := true, off := setOff s p, lg := setLog s p, head := 0, next := 0 } ∧ HostFrame s t [dbPage])

/-- The doorbell page answers: ready, not fatal, powered, and neither OFF nor FENCED. -/
def doorbells (s : State) (p : Nat) : Prop :=
  p < 64 ∧ s.work.ready = true ∧ s.work.fatal = false ∧ s.work.live dbPage = true ∧ (s.work.page dbPage).state ≠ .off ∧ (s.work.page dbPage).state ≠ .fenced

/-- The doorbell writes: the counts are taken up to a ring's size beyond the device's own, and the window is set up and enabled (R278, R283). -/
def Piece.Doorbells : Prop :=
  (∀ (s : State) (p : Nat) (v : Word), doorbells s p → ∃ t, exec (.dbSubtail .pf p v) s = .next t ∧
    t.work.get dbPage (R.DB_SUBTAIL_TAIL.i p) =
      (if s.work.winOn p then clampCount (v.toNat % 65536) (s.work.hwin p).sub (s.work.subSize p) 65536 else v.toNat % 65536) ∧ FrameBut s t [] [dbPage]) ∧
  (∀ (s : State) (p : Nat) (v : Word), doorbells s p → ∃ t, exec (.dbEvhead .pf p v) s = .next t ∧
    t.work.get dbPage (R.DB_EVHEAD_HEAD.i p) =
      (if s.work.winOn p then clampCount (v.toNat % 65536) (s.work.hwin p).ev (s.work.evSize p) 65536 else v.toNat % 65536) ∧ HostFrame s t [dbPage]) ∧
  (∀ (s : State) (p : Nat) (v : Word), doorbells s p → s.work.ownsRing p (bits v.toNat 12 0) = true → (s.work.tokRing (bits v.toNat 12 0)).isSet = true →
    ∃ t, exec (.dbTokhead .pf p v) s = .next t ∧ t.work.tokRing (bits v.toNat 12 0) = { s.work.tokRing (bits v.toNat 12 0) with
        head := clampCount (bits v.toNat 28 16) (s.work.tokRing (bits v.toNat 12 0)).next (2 ^ (s.work.tokRing (bits v.toNat 12 0)).lg) 8192 } ∧
      FrameBut s t [] []) ∧
  (∀ (s : State) (p : Nat) (v : Word), doorbells s p → s.work.winOn p = false → 4 ≤ bits v.toNat 3 0 → bits v.toNat 3 0 ≤ 12 → 4 ≤ bits v.toNat 7 4 →
    bits v.toNat 7 4 ≤ 14 → bit v.toNat 8 = true → s.work.get dbPage (R.DB_SUBTAIL_TAIL.i p) = 0 →
    ∃ t, exec (.dbWincfg .pf p v) s = .next t ∧ t.work.winOn p = true ∧ t.work.subSize p = 2 ^ bits v.toNat 3 0 ∧
      t.work.evSize p = 2 ^ bits v.toNat 7 4 ∧ t.work.hwin p = {} ∧ t.work.get dbPage (R.DB_STS_SUBSTALL.i p) = 0 ∧ FrameBut s t [] [dbPage])

/-- The tenant's bucket as TEN_GET shows it. -/
def bucketNow (s : State) (n : Nat) : Bucket := if s.work.bucket n = {} then {} else (s.work.bucket n).refill s.now.toNat

/-- Tenant budgets, and the dump of entries: TEN_SET fills the bucket, TEN_GET answers its level, RQT_DUMP writes the 64 bytes of each entry (R284, R292). -/
def Piece.TenantsAndDumps : Prop :=
  (∀ (s : State) (q : Issue), s.legal q (tenSpec 0x70 fun c => c.arg 0 < 2 ^ 12 && c.arg 1 < 2 ^ 24 && c.arg 2 < 2 ^ 24 && c.arg 3 < 2 ^ 17) →
    ∃ t, exec (.tenSet q) s = .next t ∧ t.showsDone q.page ∧ t.work.bucket (s.arg q.page 0) =
        { level := (256 * s.arg q.page 2 : Nat), rate := s.arg q.page 1, burst := s.arg q.page 2, pweight := s.arg q.page 3 % 65536
          limited := bit (s.arg q.page 3) 16, rem := 0, last := s.now.toNat } ∧
      (∀ n, n ≠ s.arg q.page 0 → t.work.bucket n = s.work.bucket n) ∧ FrameBut s t [q.page] []) ∧
  (∀ (s : State) (q : Issue), s.legal q (tenSpec 0x71 fun c => c.arg 0 < 2 ^ 12) → (s.work.page q.page).args.length = 12 →
    ∃ t, exec (.tenGet q) s = .next t ∧ t.showsDone q.page ∧ t.arg64 q.page 1 = ofSigned 64 (bucketNow s (s.arg q.page 0)).level ∧
      t.work.bucket (s.arg q.page 0) = bucketNow s (s.arg q.page 0) ∧ FrameBut s t [q.page] []) ∧
  (∀ (s : State) (q : Issue), s.legal q rqtDumpSpec → s.connected → s.arg q.page 0 + s.arg q.page 1 ≤ 8192 →
    s.work.t1Populated (s.arg64 q.page 2) (64 * s.arg q.page 1) = true →
    ∃ t, exec (.rqtDump q) s = .next t ∧ t.showsDone q.page ∧
      (∀ k j, k < s.arg q.page 1 → j < 64 → t.work.rd (s.arg64 q.page 2 + 64 * k + j) = (s.work.req (s.arg q.page 0 + k)).bytes.getD j 0) ∧
      SameDataBut s t (s.arg64 q.page 2) (64 * s.arg q.page 1) ∧
      SamePagesBut s t [q.page] ∧ SameRegsBut s t (q.page :: memPages) ∧ SameContexts s t ∧ SameOutside s t)

/-- The requests from which a batch of context x is formed; the one of them, where it is alone. -/
def batchCands (s : State) (x : Nat) : List (Nat × Req) :=
  s.dev.serve.reqs.filter fun e => e.2.ctx == x && e.2.part == (s.work.ctx x).part && decide (1 ≤ e.2.state) && decide (e.2.state ≤ 4) && !e.2.held &&
    (s.work.role (s.work.ctx x).part != 0 || decide (e.2.clen < e.2.prompt))
def soleCand (s : State) (x : Nat) : Nat := ((batchCands s x).head?.map (·.1)).getD 0
def soleReq (s : State) (x : Nat) : Req := s.work.req (soleCand s x)

/-- SRV_FORM's checks pass. -/
def mayForm (s : State) (q : Issue) : Prop :=
  s.legal q srvFormSpec ∧ s.connected ∧ (s.work.batch (s.pageCtx q.page)).formed = false ∧ s.work.role (s.work.ctx (s.pageCtx q.page)).part ≠ 2 ∧
    1 ≤ s.arg q.page 2 ∧ s.arg q.page 2 ≤ 2048 ∧
    s.work.inT1 (s.work.ctx (s.pageCtx q.page)).part (s.arg64 q.page 0) (16 + 16 * s.arg q.page 2) = true

/-- The publication of a context's commit that is under way. -/
def publishing (s : State) (c : Nat) : Prop := (SMap.at none s.dev.serve.publish c).isSome = true ∧ (s.work.ctx c).commit.isSome = true

/-- It is of one token of one request, and a slot of the request's ring is there for it. -/
def oneToken (s : State) (c : Nat) (r : PubReq) (l : List Word) : Prop :=
  (∃ p ∈ SMap.at none s.dev.serve.publish c, p.reqs = [r] ∧ p.lost = false) ∧ r.slots = [l] ∧ r.events = [] ∧
    (s.work.hwin (s.work.ctx c).part).owed = [] ∧ s.dev.host.link = true ∧ s.work.winOn (s.work.ctx c).part = true ∧
    (s.work.tokRing (s.work.req r.rq).ring).isSet = true
def tokenAt (s : State) (c : Nat) (r : PubReq) : Nat :=
  s.work.winBase (s.work.ctx c).part + (s.work.tokRing (s.work.req r.rq).ring).off +
    (s.work.tokRing (s.work.req r.rq).ring).next % 2 ^ (s.work.tokRing (s.work.req r.rq).ring).lg * 16
def tokenRoom (s : State) (c : Nat) (r : PubReq) : Prop :=
  1 ≤ ((s.work.tokRing (s.work.req r.rq).ring).head + 8192 - (s.work.tokRing (s.work.req r.rq).ring).next) % 8192 ∧
    ((s.work.tokRing (s.work.req r.rq).ring).head + 8192 - (s.work.tokRing (s.work.req r.rq).ring).next) % 8192 ≤
      2 ^ (s.work.tokRing (s.work.req r.rq).ring).lg ∧ s.work.slotOurs (tokenAt s c r) = true

/-- SRV_FORM writes the batch array: no entry where no request may be included, one decode entry where one request in DECODE has room for its token and events.
SRV_SAMPLE of an array in which no entry emits marks each entry and settles DONE; an array outside the granules settles BOUND. TOKEN_PUBLISH ends the commit:
its token slots are written, the step counts and STEP_COMMIT completes (R286, R288, R291). -/
def Obligations.BatchesAndTokens : Prop :=
  (∀ (s : State) (q : Issue), mayForm s q → batchCands s (s.pageCtx q.page) = [] →
    ∃ t, exec (.srvForm q) s = .next t ∧ t.showsDone q.page ∧ (t.work.batch (s.pageCtx q.page)).formed = true ∧
      (t.work.batch (s.pageCtx q.page)).ents = [] ∧ (∀ j, j < 16 → t.work.rd (s.arg64 q.page 0 + j) = 0) ∧
      (t.work.ctx (s.pageCtx q.page)).batchDeadline = 0 ∧ SameDataBut s t (s.arg64 q.page 0) 16 ∧ SamePagesBut s t [q.page] ∧
      SameRegsBut s t (q.page :: memPages) ∧
      (∀ c, c ≠ s.pageCtx q.page → { t.work.ctx c with events := [] } = { s.work.ctx c with events := [] }) ∧ SameOutside s t) ∧
  (∀ (s : State) (q : Issue), mayForm s q → batchCands s (s.pageCtx q.page) = [(soleCand s (s.pageCtx q.page), soleReq s (s.pageCtx q.page))] →
    soleCand s (s.pageCtx q.page) < 8192 → (soleReq s (s.pageCtx q.page)).state = 3 → (soleReq s (s.pageCtx q.page)).cancelling = false →
    (soleReq s (s.pageCtx q.page)).pausing = false → (s.work.bucket (soleReq s (s.pageCtx q.page)).tenant).limited = false →
    1 ≤ s.work.tokRoom (soleReq s (s.pageCtx q.page)).ring →
    (soleReq s (s.pageCtx q.page)).events ≤ s.work.evFree (soleReq s (s.pageCtx q.page)).part → s.work.cacheWait (soleCand s (s.pageCtx q.page)) = false →
    ∃ t, exec (.srvForm q) s = .next t ∧ t.showsDone q.page ∧ (t.work.batch (s.pageCtx q.page)).formed = true ∧
      (t.work.batch (s.pageCtx q.page)).ents = [(soleCand s (s.pageCtx q.page), 1, 1)] ∧ t.work.le (s.arg64 q.page 0) 4 = 1 ∧
      t.work.le (s.arg64 q.page 0 + 16) 2 = soleCand s (s.pageCtx q.page) + 2 ^ 13 ∧ t.work.le (s.arg64 q.page 0 + 20) 4 = 1 ∧
      (t.work.ctx (s.pageCtx q.page)).batchDeadline = BitVec.ofNat 64 (soleReq s (s.pageCtx q.page)).deadline ∧
      (t.work.req (soleCand s (s.pageCtx q.page))).lastIncl = s.now.toNat ∧ SameDataBut s t (s.arg64 q.page 0) 32 ∧ SameOutside s t) ∧
  (∀ (s : State) (q : Issue), s.legal q srvSampleSpec → s.connected → s.work.le (s.arg64 q.page 0) 4 ≤ 2048 →
    s.work.inT1 (s.work.ctx (s.pageCtx q.page)).part (s.arg64 q.page 0) (16 + 16 * s.work.le (s.arg64 q.page 0) 4) = true →
    s.work.inT1 (s.work.ctx (s.pageCtx q.page)).part (s.arg64 q.page 0) 16 = true →
    s.work.poisoned (s.arg64 q.page 0) (16 + 16 * s.work.le (s.arg64 q.page 0) 4) = false →
    (∀ b, b < s.work.le (s.arg64 q.page 0) 4 → s.work.ctxReq (s.pageCtx q.page) (s.work.batchEnt (s.arg64 q.page 0) b).1 = true ∧
      s.work.emits (s.work.batchEnt (s.arg64 q.page 0) b) = false) →
    ∃ t, exec (.srvSample q) s = .next t ∧ t.showsAccepted q.page 0x35 (some .done) ∧
      (∀ b, b < s.work.le (s.arg64 q.page 0) 4 → t.work.le (s.arg64 q.page 0 + 16 + 16 * b + 12) 4 = 128) ∧
      SameDataBut s t (s.arg64 q.page 0) (16 + 16 * s.work.le (s.arg64 q.page 0) 4) ∧ SamePagesBut s t [q.page] ∧ SameContexts s t ∧ SameOutside s t) ∧
  (∀ (s : State) (q : Issue), s.legal q srvSampleSpec → s.work.inT1 (s.work.ctx (s.pageCtx q.page)).part (s.arg64 q.page 0) 16 = false →
    ∃ t, exec (.srvSample q) s = .next t ∧ t.showsAccepted q.page 0x35 (some .bound) ∧ FrameBut s t [q.page] []) ∧
  (∀ (s : State) (c : Nat), publishing s c → (∀ m ∈ (s.work.ctx c).commit, (s.work.page m.page).outst.isSome = true) →
    ∃ t, exec (.tokenPublish c) s = .next t ∧ (∀ m ∈ (s.work.ctx c).commit, t.published m.page .done) ∧ (t.work.ctx c).commit = none ∧
      (t.work.ctx c).step = (s.work.ctx c).step + 1 ∧
      (∀ p ∈ SMap.at none s.dev.serve.publish c, (t.work.ctx c).cmtStamp = BitVec.ofNat 64 p.stamp) ∧
      SMap.at none t.dev.serve.publish c = none ∧
      (∀ p ∈ SMap.at none s.dev.serve.publish c, ∀ r ∈ p.reqs, ∀ l ∈ r.slots, oneToken s c r l → tokenRoom s c r →
        (∀ j, j < 4 * l.length → t.work.rd (hostA (tokenAt s c r) + j) = (wordBytes l).getD j 0) ∧
        t.work.tokRing (s.work.req r.rq).ring = { s.work.tokRing (s.work.req r.rq).ring with next := ((s.work.tokRing (s.work.req r.rq).ring).next + 1) % 8192 }) ∧
      SameOutside s t)

/-- What an RQT_MIGRATE names: partition, context, entry, ring, table; and its destination may be migrated to (R293). -/
def migPart (s : State) (p : Nat) : Nat := bits (s.arg p 1) 5 0
def migCtx (s : State) (p : Nat) : Nat := bits (s.arg p 1) 15 8
def migIdx (s : State) (p : Nat) : Nat := bits (s.arg p 2) 12 0
def migRing (s : State) (p : Nat) : Nat := bits (s.arg p 2) 28 16
def mayMigrate (s : State) (q : Issue) : Prop :=
  s.legal q rqtMigrateSpec ∧ s.work.ownsReq (migPart s q.page) (migIdx s q.page) = true ∧ s.work.ownsRing (migPart s q.page) (migRing s q.page) = true ∧
    (s.work.tokRing (migRing s q.page)).isSet = true ∧ (s.work.ctx (migCtx s q.page)).state ≠ .none ∧
    (s.work.ctx (migCtx s q.page)).part = migPart s q.page ∧ s.arg64 q.page 3 % 128 = 0 ∧ s.work.inT1 (migPart s q.page) (s.arg64 q.page 3) 128 = true ∧
    (∀ j, j < 2 ^ (s.work.le (s.arg64 q.page 3 + 4) 1 % 4) → j < 4 → s.work.regValid (bits (s.arg q.page 5) (4 * j + 3) (4 * j)) = true ∧
      s.work.regPart (bits (s.arg q.page 5) (4 * j + 3) (4 * j)) = migPart s q.page) ∧
    (s.work.req (migIdx s q.page)).state = 0 ∧ (s.work.req (migIdx s q.page)).held = false ∧ s.work.role (migPart s q.page) = 1

/-- A migration waits for the source's answer, or for the bytes it reads; RQT_MIGRATE is outstanding. -/
def migrating (s : State) (answered : Bool) : Prop :=
  (∃ m ∈ s.dev.serve.migration, m.entry.isSome = answered) ∧ (s.work.page dbPage).outst.isSome = true

/-- The number of `n` bytes at an offset of what a source answers; the entry it makes here; and that the answer can be taken (R293). -/
def ansNum (l : List Byte) (off n : Nat) : Nat := leNat ((l.drop off).take n)
def movedReq (m : Migration) (entry : List Byte) : Req :=
  { reqOf (ansNum entry) with
    state := ansNum entry 0 4 % 16, pclass := bits (ansNum entry 0 4) 5 4, part := m.part, tenant := bits (ansNum entry 0 4) 23 12, ctx := m.ctx
    clen := ansNum entry 4 4, usertag := ansNum entry 64 8, ring := m.ring, ptaddr := m.table }
def admitted (s : State) (m : Migration) (entry : List Byte) : Option Work :=
  (s.work.storeLE (m.table + 22) 2 ((List.range 4).foldl (fun v j => v + m.tags.getD j 0 * 16 ^ j) 0)).admitTable m.idx m.part m.ctx m.table 0 0
    ((movedReq m entry).clen + min (s.work.le (m.table + 16) 4 % 2 ^ 25) ((movedReq m entry).limit - (movedReq m entry).clen))
def answerFits (s : State) (m : Migration) (entry header : List Byte) : Prop :=
  s.work.resident m.part (movedReq m entry).tenant (movedReq m entry) = true ∧ s.work.le (m.table + 4) 1 % 4 = ansNum header 4 1 % 4 ∧
    (∀ j, j < 2 ^ (ansNum header 4 1 % 4) → s.work.tshift (m.tags.getD j 0) = ansNum header (128 + j) 1) ∧
    (admitted s m entry).isSome = true

/-- A migration asks the source to hold, takes or loses its answer, publishes or gives up, and the source releases or takes the request back (R293). -/
def Obligations.RequestMigration : Prop :=
  (∀ (s : State) (q : Issue), mayMigrate s q →
    ∃ (t : State) (m : Migration), exec (.rqtMigrate q) s = .next t ∧ t.showsAccepted q.page 0x74 none ∧ t.dev.serve.migration = some m ∧
      m.srcIdx = bits (s.arg q.page 0) 12 0 ∧ m.srcPkg = bits (s.arg q.page 0) 27 16 ∧ m.idx = migIdx s q.page ∧ m.ctx = migCtx s q.page ∧
      m.ring = migRing s q.page ∧ m.table = s.arg64 q.page 3 ∧ m.entry = none ∧
      t.dev.host.out = s.dev.host.out ++ [.migrate 0 m.srcPkg m.srcIdx (migPart s q.page)] ∧ FrameBut s t [q.page] []) ∧
  (∀ (s : State) (rq pkg part : Nat), (s.work.req rq).part ≠ part ∨ ((s.work.req rq).state ≠ 3 ∧ (s.work.req rq).state ≠ 4) ∨ (s.work.req rq).toPkg ≠ 0 →
    ∃ t, exec (.migrateHold rq pkg part) s = .next t ∧ t.work.req rq = s.work.req rq ∧
      t.dev.host.out = s.dev.host.out ++ [.migrateReply pkg false (s.work.migEntry rq) []] ∧ FrameBut s t [] []) ∧
  (∀ (s : State) (rq pkg part : Nat), (s.work.req rq).part = part → (s.work.req rq).state = 3 ∨ (s.work.req rq).state = 4 → (s.work.req rq).toPkg = 0 →
    ∃ t, exec (.migrateHold rq pkg part) s = .next t ∧ t.work.req rq = (if s.work.included rq then { s.work.req rq with toPkg := pkg + 1 }
        else { s.work.req rq with state := 8, before := (s.work.req rq).state, toPkg := pkg + 1 }) ∧
      t.dev.host.out = s.dev.host.out ++
        (if s.work.included rq then [] else [.migrateReply pkg true (s.work.migEntry rq) (s.work.migHeader rq)]) ∧ FrameBut s t [] [rqHub rq]) ∧
  (∀ (s : State) (entry header : List Byte), migrating s false →
    ∃ t, exec (.migrateReply false entry header) s = .next t ∧ t.dev.serve.migration = none ∧
      s.decided t dbPage (if entry.isEmpty then .fault else .state) ∧ FrameBut s t [dbPage] []) ∧
  (∀ (s : State) (entry header : List Byte), migrating s false → entry ≠ [] →
    (∀ m ∈ s.dev.serve.migration, answerFits s m entry header) →
    ∃ t, exec (.migrateReply true entry header) s = .next t ∧
      (∀ m ∈ s.dev.serve.migration, t.dev.serve.migration = some { m with entry := some (movedReq m entry) }) ∧
      (t.work.page dbPage).outst = (s.work.page dbPage).outst ∧ SameOutside s t) ∧
  (∀ (s : State) (data : List (Nat × Byte)), migrating s true →
    ∃ t, exec (.migratePublish false data) s = .next t ∧ t.dev.serve.migration = none ∧ s.decided t dbPage .fault ∧
      (∀ m ∈ s.dev.serve.migration, t.work.req m.idx = s.work.req m.idx ∧ (t.work.tab m.idx).reg = false ∧
        .migrate 2 m.srcPkg m.srcIdx m.part ∈ t.dev.host.out) ∧ SameContexts s t ∧ SameOutside s t) ∧
  (∀ (s : State) (data : List (Nat × Byte)), migrating s true →
    ∃ t, exec (.migratePublish true data) s = .next t ∧ t.dev.serve.migration = none ∧ s.decided t dbPage .done ∧
      (∀ m ∈ s.dev.serve.migration, ∀ r ∈ m.entry, t.work.req m.idx = r ∧ .migrate 1 m.srcPkg m.srcIdx m.part ∈ t.dev.host.out) ∧
      SameOutside s t) ∧
  (∀ (s : State) (rq : Nat), (s.work.req rq).state = 8 → (s.work.req rq).releasing = false →
    ∃ t, exec (.migrateRelease rq false) s = .next t ∧ t.work.req rq = { s.work.req rq with state := (s.work.req rq).before, toPkg := 0 } ∧
      (t.work.tab rq).walkers = (s.work.tab rq).walkers.erase (s.work.tab rq).gen ∧ FrameBut s t [] [rqHub rq]) ∧
  (∀ (s : State) (rq : Nat), (s.work.req rq).state = 8 → (s.work.req rq).releasing = false → (s.work.tab rq).reg = false → unmirrored s rq → (s.work.req rq).part < 64 →
    ∃ t, exec (.migrateRelease rq true) s = .next t ∧ t.work.req rq = {} ∧ HostFrame s t [dbPage, rqHub rq])

/-- Submissions, doorbells, tenants and dumps. -/
def Obligations.RequestsAndTenants : Prop := Piece.Submissions ∧ Piece.Doorbells ∧ Piece.TenantsAndDumps

/-! ### Model residency (chapter 17) -/

/-- The common checks of MDL_LOAD, LDR_STORE and MDL_REPLACE (R299, R301, R304). -/
def mdlLoadSpec : CmdSpec := ldrSpec 0x81 true fun c => c.arg 0 < 2 ^ 18 && c.arg 2 < 2 ^ 16 && c.arg 3 < 2 ^ 12 && c.arg 5 < 2 ^ 16 && c.arg 7 < 2 ^ 16
def ldrStoreSpec : CmdSpec := ldrSpec 0x80 true fun c => c.arg 1 < 2 ^ 16 && c.arg 3 < 2 ^ 16 && c.arg 4 < 2 ^ 31
def mdlReplaceSpec : CmdSpec :=
  ldrSpec 0x82 true fun c => bits (c.arg 0) 17 12 == 0 && c.arg 0 < 2 ^ 20 && bits (c.arg 0) 19 18 != 3 && c.arg 2 < 2 ^ 16 &&
    c.arg 5 < 2 ^ 16 && (bits (c.arg 0) 19 18 != 1 || c.arg64 4 == 0)

/-- What a command on HD0's loader leaves alone: it starts, and nothing is stored yet. -/
def LoaderFrame (s t : State) : Prop := SamePagesBut s t [ldr0] ∧ SameContexts s t ∧ SameData s t ∧ SameOutside s t

/-- The model that a command on the loader names, and the replacement that an MDL_REPLACE asks for. -/
def loadModel (s : State) (q : Issue) : Model := s.work.model (s.arg q.page 0 % 4096)
def replAsked (s : State) (p : Nat) : Repl :=
  { mode := bits (s.arg p 0) 19 18, image := s.arg64 p 1, area := s.arg64 p 4, next := 0, waiting := false }

/-- The new shard of an INPLACE replacement has as many layers as the resident image, each no longer than the old one (R304). -/
def inplaceFits (s : State) (q : Issue) : Prop :=
  ∃ x ∈ s.work.newShard (loadModel s q) (replAsked s q.page), (s.work.image (s.arg64 q.page 1)).nlayer = (loadModel s q).nlayer ∧
    ∀ l, l < x.2.length → (x.2.getD l (0, 0, 0, 0)).2.2.2 ≤ ((loadModel s q).layers.getD l (0, 0, 0, 0)).2.2.2

/-- MDL_LOAD, LDR_STORE and MDL_REPLACE start where Campion admits a loading activity, and are PENDING where it does not (R299–R301, R304, R380). -/
def Piece.LoaderCommands : Prop :=
  (∀ (s : State) (q : Issue), s.legal q mdlLoadSpec → (loadModel s q).state = 0 → (s.work.request 6 0 (q.page + 1)).1 = true →
    ∃ t, exec (.mdlLoad q) s = .next t ∧ t.showsAccepted q.page 0x81 none ∧ t.work.model (s.arg q.page 0 % 4096) = {
        state := 1, part := bits (s.arg q.page 0) 17 12, image := s.arg64 q.page 1, origin := s.arg q.page 3, area := s.arg64 q.page 4
        map := s.arg64 q.page 6 } ∧
      t.work.get ldr0 R.LDR_STS_ACTIVE = 1 ∧ t.work.get ldr0 R.LDR_PROG_PROG = 0 ∧ LoaderFrame s t) ∧
  (∀ (s : State) (q : Issue), s.legal q mdlLoadSpec → (loadModel s q).state = 0 →
    (s.work.request 6 0 (q.page + 1)).1 = false →
    ∃ t, exec (.mdlLoad q) s = .next t ∧ (t.work.page q.page).cmdSts = 0x80001717#32 ∧
      t.work.model (s.arg q.page 0 % 4096) = loadModel s q ∧ LoaderFrame s t) ∧
  (∀ (s : State) (q : Issue), s.legal q ldrStoreSpec → s.arg64 q.page 0 % 4096 = 0 → s.arg64 q.page 2 % 4096 = 0 →
    s.work.t3Valid (s.arg64 q.page 0) (s.arg q.page 4 * 4096) = true → s.work.t2Populated (s.arg64 q.page 2) (s.arg q.page 4 * 4096) = true →
    granulesAll (s.arg64 q.page 2 - t2Base) (s.arg q.page 4 * 4096) (fun g => (s.work.owner kT2 g).isNone) = true →
    s.work.imageIn (s.arg64 q.page 2) (s.arg q.page 4 * 4096) = false → 1 ≤ s.arg q.page 4 → s.arg q.page 4 ≤ 2 ^ 30 →
    (s.work.request 6 0 (q.page + 1)).1 = true →
    ∃ t, exec (.ldrStore q) s = .next t ∧ t.showsAccepted q.page 0x80 none ∧ t.work.get ldr0 R.LDR_STS_ACTIVE = 1 ∧
      t.work.get ldr0 R.LDR_PROG_PROG = 0 ∧ LoaderFrame s t) ∧
  (∀ (s : State) (q : Issue), s.legal q mdlReplaceSpec → s.connected → (loadModel s q).state = 2 → bits (s.arg q.page 0) 19 18 = 1 →
    (s.work.request 6 0 (q.page + 1)).1 = true →
    s.work.imageFails (loadModel s q).part (s.arg64 q.page 1) (s.arg64 q.page 4) none (fun _ len => len) false (s.work.myKey (loadModel s q).origin) = none →
    inplaceFits s q →
    ∃ t, exec (.mdlReplace q) s = .next t ∧ t.showsAccepted q.page 0x82 none ∧
      t.work.model (s.arg q.page 0 % 4096) = { loadModel s q with state := 3, repl := some (replAsked s q.page) } ∧
      t.work.get ldr0 R.LDR_STS_ACTIVE = 1 ∧ t.work.get ldr0 R.LDR_STS_MODE = 1 ∧ LoaderFrame s t)

/-- The model that ARG0 names; its opens of the count in force; the open that the context has already, and the count it gets. -/
def asked (s : State) (q : Issue) : Model := s.work.model (s.arg q.page 0)
def curOpens (e : Model) : Nat := (e.opens.filter fun o => o.2 == e.sw).length
def openFound (s : State) (q : Issue) : Option (Nat × Nat) := (asked s q).opens.find? fun o => o.1 == s.pageCtx q.page
def openCount (s : State) (q : Issue) : Nat := match openFound s q with | some o => o.2 | none => (asked s q).sw

/-- Queries, opens and the end of a model's use: MDL_QUERY shows the entry, MDL_OPEN the bank in force and keeps it open, MDL_UNLOAD makes the model
UNLOADING, and once nothing has it open MDL_RETIRE leaves it ABSENT (R300, R302, R312). -/
def Piece.ModelsInUse : Prop :=
  (∀ (s : State) (q : Issue), s.legal q (ldrSpec 0x86 true fun c => c.arg 0 < 2 ^ 12) → (s.work.page q.page).args.length = 12 →
    ∃ t, exec (.mdlQuery q) s = .next t ∧ t.showsDone q.page ∧
      t.arg q.page 1 = ((asked s q).state + (match (asked s q).repl with | some r => r.mode | none => 0) * 2 ^ 3 + (asked s q).part * 2 ^ 5 +
        (asked s q).nlayer * 2 ^ 11) % 2 ^ 32 ∧
      t.arg q.page 2 = (asked s q).sw % 2 ^ 32 ∧ t.arg q.page 3 = curOpens (asked s q) % 2 ^ 32 ∧
      t.arg q.page 4 = ((asked s q).opens.length - curOpens (asked s q)) % 2 ^ 32 ∧ t.arg64 q.page 5 = (asked s q).image % 2 ^ 64 ∧
      t.arg64 q.page 7 = (asked s q).map % 2 ^ 64 ∧ t.arg64 q.page 9 = (asked s q).free % 2 ^ 64 ∧ t.arg q.page 11 = (asked s q).origin % 2 ^ 32 ∧
      FrameBut s t [q.page] []) ∧
  (∀ (s : State) (q : Issue), s.legal q { types := [4], code := 0x38, states := [.running], resv := fun c => c.arg 0 < 2 ^ 12 } →
    (s.work.page q.page).args.length = 12 → (asked s q).state = 2 ∨ (asked s q).state = 3 → (asked s q).part = (s.work.ctx (s.pageCtx q.page)).part →
    ∃ t, exec (.mdlOpen q) s = .next t ∧ t.showsDone q.page ∧
      t.arg64 q.page 1 = ((asked s q).map + 8 * (openCount s q % 2 * (asked s q).nlayer)) % 2 ^ 64 ∧ t.arg q.page 3 = openCount s q % 2 ^ 32 ∧
      t.work.model (s.arg q.page 0) = (if (openFound s q).isSome then asked s q
        else { asked s q with opens := (asked s q).opens ++ [(s.pageCtx q.page, (asked s q).sw)] }) ∧ FrameBut s t [q.page] []) ∧
  (∀ (s : State) (q : Issue), s.legal q (ldrSpec 0x83 true fun c => c.arg 0 < 2 ^ 12) → (asked s q).state = 2 → s.work.modelNamed (s.arg q.page 0) = false →
    ∃ t, exec (.mdlUnload q) s = .next t ∧ t.showsAccepted q.page 0x83 none ∧
      t.work.model (s.arg q.page 0) = { asked s q with state := 4 } ∧ FrameBut s t [q.page] []) ∧
  (∀ (s : State) (m : Nat), (s.work.model m).state = 4 → (s.work.model m).opens = [] → (s.work.page ldr0).outst.isSome = true →
    ∃ t, exec (.mdlRetire m) s = .next t ∧ t.work.model m = { map := (s.work.model m).map, free := (s.work.model m).area } ∧
      (∀ i, ∀ a ∈ SMap.at none t.dev.mdl.slots i, a.model ≠ m) ∧ t.hasEvent ldr0 17 ∧ s.decided t ldr0 .done ∧ FrameBut s t [ldr0] [ldr0])

/-- A replacement under way, the new shard and its layers; what an INPLACE layer copies, from where, and to where; a group's span in the shard. -/
def replOf (s : State) (m : Nat) : Option (Repl × (Nat × Nat × Nat) × List (Nat × Nat × Nat × Nat)) :=
  (s.work.model m).repl.bind fun r => (s.work.newShard (s.work.model m) r).map fun x => (r, x.1, x.2)
def layerOf (ls : List (Nat × Nat × Nat × Nat)) (l : Nat) : Nat × Nat × Nat × Nat := ls.getD l (0, 0, 0, 0)
def layerFrom (r : Repl) (sh : Nat × Nat × Nat) (ls : List (Nat × Nat × Nat × Nat)) (l : Nat) : Nat := r.image + sh.1 + (layerOf ls l).2.2.1
def layerTo (s : State) (m l : Nat) : Nat := s.work.lmap (s.work.model m) ((s.work.model m).sw % 2) l
def groupSpan (ls : List (Nat × Nat × Nat × Nat)) (g : Nat) : Nat × Nat := span ((groupLayers ls g).map (layerOf ls))

/-- The steps of a replacement: a layer copied over its predecessor while nobody is inside it; a group copied into the spare area, the shadow bank naming it, the
banks switched; and, once every open of the old bank is released, the replacement ends with the new image in force (R303, R305–R307). -/
def Piece.Replacements : Prop :=
  (∀ (s : State) (m l : Nat), l + 1 < (s.work.model m).nlayer →
    (∀ o ∈ (s.work.model m).opens, s.work.phase o.1 < (layerOf (s.work.model m).layers l).1 ∨ (layerOf (s.work.model m).layers (l + 1)).1 ≤ s.work.phase o.1) →
    (∃ r sh ls, replOf s m = some (r, sh, ls) ∧ r.mode = 1 ∧ r.next = l ∧ s.work.srcFailed (layerFrom r sh ls l) (layerOf ls l).2.2.2 = false ∧
      apart (layerFrom r sh ls l) (layerOf ls l).2.2.2 (layerTo s m l) (layerOf ls l).2.2.2 ∧ layerFrom r sh ls l + (layerOf ls l).2.2.2 ≤ 2 ^ 64 ∧
      layerTo s m l + (layerOf ls l).2.2.2 ≤ 2 ^ 64) →
    ∃ t, exec (.mdlInplaceLayer m l) s = .next t ∧ (∀ r sh ls, replOf s m = some (r, sh, ls) →
      t.work.model m = { s.work.model m with repl := some { r with next := l + 1 } } ∧
      (∀ j, j < (layerOf ls l).2.2.2 / 64 * 64 → t.work.rd (layerTo s m l + j) = s.work.rd (layerFrom r sh ls l + j)) ∧
      SameDataBut s t (layerTo s m l) (layerOf ls l).2.2.2) ∧ t.work.get ldr0 R.LDR_STS_LAYER = l % 2 ^ 10 ∧ SameOutside s t) ∧
  (∀ (s : State) (m g : Nat),
    (∃ r sh ls, replOf s m = some (r, sh, ls) ∧ r.mode = 2 ∧ r.waiting = false ∧ r.next = g ∧ (nextGroup ls (g + 1)).isSome = true ∧
      s.work.srcFailed (r.image + sh.1 + (groupSpan ls g).1) (groupSpan ls g).2 = false ∧ ls.length ≤ (s.work.model m).nlayer ∧
      (s.work.model m).map + 16 * (s.work.model m).nlayer ≤ 2 ^ 64) →
    ∃ t, exec (.mdlRollingGroup m g) s = .next t ∧ (∀ r sh ls, replOf s m = some (r, sh, ls) →
      t.work.model m = { s.work.model m with sw := (s.work.model m).sw + 1, repl := some { r with waiting := true } } ∧
      ∀ l ∈ groupLayers ls g, t.work.le ((s.work.model m).entryAt (((s.work.model m).sw + 1) % 2) l) 8 =
        (r.area + (layerOf ls l).2.2.1 - (groupSpan ls g).1) % 2 ^ 64) ∧
      t.hasEvent ldr0 16 ∧ t.work.ctr ldr0 3 = s.work.ctr ldr0 3 + 1 ∧ SamePagesBut s t [] ∧ SameContexts s t ∧ SameOutside s t) ∧
  (∀ (s : State) (m : Nat), (s.work.model m).state = 3 → (∀ x ∈ (s.work.model m).opens, (s.work.model m).sw ≤ x.2) →
    (s.work.page ldr0).outst.isSome = true → (∃ r sh ls, replOf s m = some (r, sh, ls) ∧ r.waiting = true ∧ r.mode = 0) →
    ∃ t, exec (.mdlRetire m) s = .next t ∧ (∀ r sh ls, replOf s m = some (r, sh, ls) → t.work.model m = { s.work.model m with
        state := 2, repl := none, image := r.image, layers := ls, free := (s.work.model m).area, area := r.area }) ∧
      t.hasEvent ldr0 17 ∧ s.decided t ldr0 .done ∧ SameOutside s t)

/-- The model and the addition that an ADP_LOAD names. -/
def adpModel (s : State) (q : Issue) : Model := s.work.model (bits (s.arg q.page 0) 20 9)
def additionAt (s : State) (q : Issue) : Nat := (adpModel s q).image + (s.work.image (adpModel s q).image).dir + 32 * s.arg q.page 1

/-- Adapters: ADP_LOAD puts an addition of kind 1 at its address and enters the slot, ADP_DROP empties the slot (R309). -/
def Piece.Adapters : Prop :=
  (∀ (s : State) (q : Issue), s.legal q (ldrSpec 0x84 false fun c => c.arg 0 < 2 ^ 21 && c.arg 1 < 2 ^ 16 && c.arg 3 < 2 ^ 16) → s.connected →
    (adpModel s q).state = 2 ∨ (adpModel s q).state = 3 → s.work.slotNamed (s.arg q.page 0 % 512) = false → t2Base ≤ (adpModel s q).image →
    s.work.le (additionAt s q + 2) 1 = 1 →
    (s.work.addition (bits (s.arg q.page 0) 20 9) (s.arg q.page 0 % 512) (s.arg q.page 1) (s.arg64 q.page 2)).1 = .done →
    ∃ t, exec (.adpLoad q) s = .next t ∧ t.showsAccepted q.page 0x84 (some .done) ∧
      SMap.at none t.dev.mdl.slots (s.arg q.page 0 % 512) =
        some { model := bits (s.arg q.page 0) 20 9, tenant := s.work.le (additionAt s q + 4) 2, addr := s.arg64 q.page 2 } ∧
      t.work.ctr ldr0 5 = s.work.ctr ldr0 5 + 1 ∧ SamePagesBut s t [q.page] ∧ SameContexts s t ∧ SameOutside s t) ∧
  (∀ (s : State) (q : Issue), s.legal q (ldrSpec 0x85 false fun c => c.arg 0 < 2 ^ 9) → s.work.slotNamed (s.arg q.page 0) = false →
    ∃ t, exec (.adpDrop q) s = .next t ∧ t.showsDone q.page ∧ SMap.at none t.dev.mdl.slots (s.arg q.page 0) = none ∧
      (∀ i, i ≠ s.arg q.page 0 → SMap.at none t.dev.mdl.slots i = SMap.at none s.dev.mdl.slots i) ∧ FrameBut s t [q.page] [])

/-- The loader, its models and their adapters. -/
def Obligations.ModelLoader : Prop := Piece.LoaderCommands ∧ Piece.Adapters

/-- Models in use and their replacements. -/
def Obligations.ModelsAndReplacements : Prop := Piece.ModelsInUse ∧ Piece.Replacements

/-! ### Partitions, contexts and the schedule (chapter 18) -/

/-- The verdict on a BND_COMMIT, in the order of R318. -/
def bindVerdict (s : State) (q : Issue) : Option Status := s.work.bindFails (s.work.call q 0x90)

/-- The commit under way on HD0's page binds one resource to a partition. -/
def oneEntry (s : State) (k part ix : Nat) (force : Bool) : Prop :=
  s.dev.bnd.commit = some { page := bndPage 0, entries := [(k, false, part, 0, ix, 1)], force := force }

/-- BND_COMMIT is accepted and judged at once: a failing check is its final status, or the commit waits for its stamp. At the stamp the resource is the new
partition's, its epoch counts on, and the commit is published DONE (R318, R319). -/
def Piece.BindingCommits : Prop :=
  (∀ (s : State) (q : Issue), s.legal q bndCommitSpec → s.connected → (bindVerdict s q).isSome = true →
    ∃ t, exec (.bndCommit q) s = .next t ∧ t.showsAccepted q.page 0x90 (bindVerdict s q) ∧ t.dev.bnd = s.dev.bnd ∧
      t.work.ctr q.page 1 = (if bindVerdict s q = some .busy then s.work.ctr q.page 1 + 1 else s.work.ctr q.page 1) ∧ ReadFrame s t [q.page] []) ∧
  (∀ (s : State) (q : Issue), s.legal q bndCommitSpec → s.connected → bindVerdict s q = none → bit (s.arg q.page 2) 16 = false →
    ∃ (t : State) (b : BndCommit), exec (.bndCommit q) s = .next t ∧ t.showsAccepted q.page 0x90 none ∧ t.dev.bnd.commit = some b ∧ b.page = q.page ∧
      b.entries.length = bits (s.arg q.page 2) 10 0 ∧ t.dev.bnd.owner = s.dev.bnd.owner ∧ t.work.get q.page R.BND_STS_COMMITTING = 1 ∧
      ReadFrame s t [q.page] [q.page]) ∧
  (∀ (s : State), (∃ k part ix force, oneEntry s k part ix force ∧ 1 ≤ k ∧ k ≤ 10 ∧ part < 64 ∧ ix < 4096 ∧ (∃ n ∈ s.work.kindRange k, ix < n) ∧
      s.work.owner k ix ≠ some part ∧ ∀ p ∈ s.work.owner k ix, p < 64 ∧ s.work.holders p k ix = []) → (s.work.page (bndPage 0)).outst.isSome = true →
    ∃ t, exec .bndCommitStamp s = .next t ∧ t.published (bndPage 0) .done ∧ t.hasEvent (bndPage 0) 16 ∧ t.dev.bnd.commit = none ∧
      t.work.get (bndPage 0) R.BND_STS_COMMITTING = 0 ∧ SameOutside s t ∧
      ∀ k part ix force, oneEntry s k part ix force → t.work.owner k ix = some part ∧
        t.work.get (bndPage 0) (R.BND_EPOCH_EPOCH.i part) = (s.work.get (bndPage 0) (R.BND_EPOCH_EPOCH.i part) + 1) % 65536)

/-- The resource that a BND_QUERY names. -/
def askedKind (s : State) (q : Issue) : Nat := bits (s.arg q.page 0) 3 0
def askedIx (s : State) (q : Issue) : Nat := bits (s.arg q.page 0) 27 16

/-- BND_QUERY answers the owner and ZEROING of a resource; a spare entry is written and its use cleared; a granule that has been zeroed is no longer ZEROING;
a virtual function's reset frees its requests, ends its contexts, turns its window off and invalidates its slices (R320, R322, R334, R381). -/
def Piece.BindingTable : Prop :=
  (∀ (s : State) (q : Issue), s.legal q bndQuerySpec → (s.work.page q.page).args.length = 12 → (s.work.kindRange (askedKind s q)).isSome = true →
    askedIx s q < (s.work.kindRange (askedKind s q)).getD 0 →
    ∃ t, exec (.bndQuery q) s = .next t ∧ t.showsDone q.page ∧ bits (t.arg q.page 1) 6 0 =
        (match s.work.owner (askedKind s q) (askedIx s q) with | some p => (p + 64) % 128 | none => 0) ∧
      ((∀ p ∈ s.work.owner (askedKind s q) (askedIx s q), p < 64) → bit (t.arg q.page 1) 7 =
        ((askedKind s q == 6 && s.work.zeroing false (askedIx s q)) || (askedKind s q == 7 && s.work.zeroing true (askedIx s q)))) ∧
      FrameBut s t [q.page] []) ∧
  (∀ (s : State) (i : Nat) (v : Word), i < 64 → s.reaches .pf (bndPage 0) →
    ∃ t, exec (.bndSpareWrite .pf (bndPage 0 * 4096 + 0x300 + 4 * i) v) s = .next t ∧
      t.work.get (bndPage 0) (R.BND_SPARE_ALLOW.i i) = bits v.toNat 8 0 ∧ t.work.get (bndPage 0) (R.BND_SPARE_USED.i i) = 0 ∧
      FrameBut s t [] [bndPage 0]) ∧
  (∀ (s : State) (tier g : Nat), (tier = 1 ∧ g < 960) ∨ tier = 2 → s.work.zeroing (tier == 2) g = true →
    ∃ t, exec (.granuleZeroDone tier g) s = .next t ∧ t.work.zeroing (tier == 2) g = false ∧ SameOutside s t ∧
      (s.dev.bnd.zeroing = [(if tier = 2 then g + 4096 else g, true)] → t.hasEvent (bndPage (if tier = 2 then 0 else g / 240)) 17)) ∧
  (∀ (s : State) (vf : Nat), 1 ≤ vf → vf ≤ 64 → vf ≤ s.work.get pciPage R.PCI_NUMVF_NUMVF → SMap.wf {} s.dev.serve.reqs = true →
    SMap.wf {} s.dev.ctxs = true →
    ∃ t, exec (.vfFlr vf) s = .next t ∧ t.work.winOn (vf - 1) = false ∧
      (∀ rq, (s.work.req rq).part = vf - 1 → (t.work.req rq).state = 0) ∧
      (∀ c, (s.work.ctx c).part = vf - 1 → (s.work.ctx c).state ≠ .none → (t.work.ctx c).state = .ending) ∧
      (∀ i, i < 128 → s.work.get (xltPage 0) (R.XLT_T3MAP_LO_PARTITION.i i) = vf - 1 → t.work.get (xltPage 0) (R.XLT_T3MAP_LO_VALID.i i) = 0) ∧
      t.dev.bnd.owner = s.dev.bnd.owner ∧ SameOutside s t)

/-- A command of the SPW page of the replica that schedules passes every common check. -/
def spwLegal (s : State) (q : Issue) (code : Nat) (resv : Call → Bool) : Prop := s.legal q (spwSpec code resv) ∧ q.page = s.work.spwActing

/-- A descriptor in populated tier 1 that passes the checks of CTX_CREATE (R324). -/
def mayCreate (s : State) (a id : Nat) (x : Ctx) : Prop :=
  a % 64 = 0 ∧ s.work.t1Populated a 192 = true ∧ id = s.work.le a 1 ∧ x = s.work.ctxDesc a ∧ s.work.placed x = true ∧ x.saveA % 4096 = 0 ∧
    x.spillA % 4096 = 0 ∧ s.work.inT1 x.part x.saveA (x.places.length * x.saveSz * 2 ^ 20) = true ∧
    s.work.inT1 x.part x.spillA (x.places.length * x.spillSz * 1024) = true ∧ s.work.poisoned a 192 = false ∧ s.work.ctxClean a = true ∧ x.cls ≠ 3 ∧
    x.groups ≠ 0 ∧ x.seqs ≠ 0 ∧ x.saveSz ≤ 180 ∧ 64 ≤ x.spillSz ∧ x.spillSz ≤ 16384 ∧ (s.work.ctx id).state = .none ∧
    (∀ e ∈ s.dev.ctxs, e.2.state = .none ∨ e.2.skps &&& x.skps = 0) ∧ s.work.zeroingIn x.saveA (x.places.length * x.saveSz * 2 ^ 20) = false ∧
    s.work.zeroingIn x.spillA (x.places.length * x.spillSz * 1024) = false ∧
    ∀ d ∈ x.places, groupState * x.groupsOn d ≤ x.saveSz * 2 ^ 20 ∧ (x.cls = 0 → x.groupsOn d ≤ 8)

/-- The context that CTX_CREATE's descriptor describes, and its number; the context that another command names. -/
def newCtx (s : State) (q : Issue) : Ctx := s.work.ctxDesc (s.arg64 q.page 0)
def newId (s : State) (q : Issue) : Nat := s.work.le (s.arg64 q.page 0) 1
def ctxNamed (s : State) (q : Issue) : Ctx := s.work.ctx (s.arg q.page 0)

/-- No other context takes part in scheduling or holds resources. -/
def alone (s : State) (c : Nat) : Prop := SMap.wf {} s.dev.ctxs = true ∧ ∀ e, e ≠ c → (s.work.ctx e).state = .none ∨ (s.work.ctx e).state = .created

/-- CTX_CREATE makes the context of its descriptor, CREATED; CTX_START makes it READY, and the scheduling point restores it where it may rank and its resources
are free; CTX_END begins its teardown; CTX_DEADLINE and CTX_QUERY set and show what they name (R323, R324, R325). -/
def Obligations.ContextCommands : Prop :=
  (∀ (s : State) (q : Issue), spwLegal s q 0xA0 (fun c => c.addrOk 0) → s.connected → mayCreate s (s.arg64 q.page 0) (newId s q) (newCtx s q) →
    ∃ t, exec (.ctxCreate q) s = .next t ∧ t.showsDone q.page ∧ t.work.ctx (newId s q) = newCtx s q ∧ (t.work.ctx (newId s q)).state = .created ∧
      (t.work.cfg (newId s q)).dieMap = ((List.range 16).map fun k => (newCtx s q).places.getD k 16) ∧
      (∀ c, c ≠ newId s q → t.work.ctx c = s.work.ctx c) ∧ SamePagesBut s t [q.page] ∧ SameRegsBut s t memPages ∧ SameData s t ∧ SameOutside s t) ∧
  (∀ (s : State) (q : Issue), spwLegal s q 0xA1 (fun c => c.arg 0 < 256) → (ctxNamed s q).state = .created →
    alone s (s.arg q.page 0) → s.work.mayRank (ctxNamed s q) = false →
    ∃ t, exec (.ctxStart q) s = .next t ∧ t.showsDone q.page ∧ t.work.ctx (s.arg q.page 0) = { ctxNamed s q with state := .ready } ∧
      (∀ c, c ≠ s.arg q.page 0 → t.work.ctx c = s.work.ctx c) ∧ SamePagesBut s t [q.page] ∧ SameRegsBut s t [] ∧ SameMemory s t ∧ SameOutside s t) ∧
  (∀ (s : State) (q : Issue), spwLegal s q 0xA1 (fun c => c.arg 0 < 256) → (ctxNamed s q).state = .created →
    alone s (s.arg q.page 0) → s.work.mayRank (ctxNamed s q) = true →
    (∀ p ∈ (ctxNamed s q).pages, (s.work.page p).state = .bound ∨ (s.work.page p).state = .quiesced) →
    ∃ t, exec (.ctxStart q) s = .next t ∧ t.showsDone q.page ∧ (t.work.ctx (s.arg q.page 0)).state = .restoring ∧
      (∀ p ∈ (ctxNamed s q).pages, (t.work.page p).ctx = some (s.arg q.page 0)) ∧ SameOutside s t) ∧
  (∀ (s : State) (q : Issue), spwLegal s q 0xA2 (fun c => c.arg 0 < 256) → (ctxNamed s q).state ≠ .none →
    (ctxNamed s q).state ≠ .ending →
    ∃ t, exec (.ctxEnd q) s = .next t ∧ t.showsAccepted q.page 0xA2 none ∧ (t.work.ctx (s.arg q.page 0)).state = .ending ∧ (t.work.ctx (s.arg q.page 0)).endPage = q.page + 1 ∧
      (alone s (s.arg q.page 0) → (∀ c, c ≠ s.arg q.page 0 → (t.work.ctx c).state = (s.work.ctx c).state) ∧ SameMemory s t ∧ SameOutside s t)) ∧
  (∀ (s : State) (q : Issue), spwLegal s q 0xA3 (fun c => c.arg 0 < 256) → (ctxNamed s q).state ≠ .none →
    ∃ t, exec (.ctxDeadline q) s = .next t ∧ t.showsDone q.page ∧ (t.work.ctx (s.arg q.page 0)).deadline = BitVec.ofNat 64 (s.arg64 q.page 1) ∧ SameOutside s t) ∧
  (∀ (s : State) (q : Issue), spwLegal s q 0xA4 (fun c => c.arg 0 < 256) → (s.work.page q.page).args.length = 12 →
    ∃ t, exec (.ctxQuery q) s = .next t ∧ t.showsDone q.page ∧ bits (t.arg q.page 1) 2 0 = (ctxNamed s q).state.code ∧
      t.arg64 q.page 2 = (ctxNamed s q).effective % 2 ^ 64 ∧ FrameBut s t [q.page] [])

/-- A context saved is SAVED with its record; one restored whose class is granted runs; a class-2 context whose turn is over and that nothing waits for begins
a new turn of its tenant's weight (R325, R329, R330). -/
def Piece.SavesAndTurns : Prop :=
  (∀ (s : State) (c : Nat), (s.work.ctx c).state = .saving → (s.work.ctx c).discard = false → s.work.mayRank (s.work.ctx c) = false →
    ∃ t, exec (.contextSaved c) s = .next t ∧ (t.work.ctx c).state = .saved ∧ (t.work.ctx c).hasSave = true ∧ SameOutside s t) ∧
  (∀ (s : State) (c : Nat), (s.work.ctx c).state = .restoring → (s.work.ctx c).restored = false → alone s c →
    s.work.granted (s.work.ctx c).part (s.work.ctx c).cls = true → s.dev.tiers.rings = [] → s.dev.rlt.groups = [] →
    ∃ t, exec (.contextRestored c) s = .next t ∧ (t.work.ctx c).state = .running ∧ (t.work.ctx c).hasSave = false ∧
      t.work.ctr s.work.spwActing 2 = s.work.ctr s.work.spwActing 2 + 1 ∧ SameOutside s t) ∧
  (∀ (s : State) (c : Nat), (s.work.ctx c).cls = 2 → (s.work.ctx c).state = .running → (s.work.ctx c).runSince.toNat + (s.work.ctx c).turnLeft ≤ s.now.toNat →
    alone s c → s.work.granted (s.work.ctx c).part 2 = true →
    ∃ t, exec (.spwTurnEnd c) s = .next t ∧ (t.work.ctx c).state = .running ∧ (t.work.ctx c).runSince = s.now ∧
      (t.work.ctx c).turnLeft = 1000 * s.work.get s.work.spwActing R.SPW_SLICE_SLICE * SMap.at 256 s.dev.spw.weights (s.work.ctx c).tenant / 256 ∧
      t.work.ctr s.work.spwActing 6 = s.work.ctr s.work.spwActing 6 + 1 ∧ SameMemory s t ∧ SameOutside s t)

/-- The window a list entry of SPW_LOAD describes is well formed. -/
def windowOk (s : State) (a : Nat) : Prop :=
  bits (s.work.le a 4) 31 20 = 0 ∧ s.work.le (a + 4) 4 = 0 ∧ 10 ≤ s.work.le a 4 ∧ s.work.le a 4 ≤ 10 ^ 6

/-- Entry i of the list that SPW_LOAD names. -/
def winAddr (s : State) (q : Issue) (i : Nat) : Nat := s.arg64 q.page 0 + 32 * i

/-- SPW_LOAD fills the shadow bank, SPW_START sets the frame going from its T0, SPW_STOP asks for its end, TEN_WEIGHT sets a weight; windows start in order,
the frame ends at its boundary and completes SPW_STOP; the lead point is noted; and the standby replica takes over once the primary is lost (R326, R327, R331, R333). -/
def Piece.Schedule : Prop :=
  (∀ (s : State) (q : Issue), spwLegal s q 0xA8 (fun c => c.addrOk 0 && decide (c.arg 2 < 512)) → s.connected → s.arg64 q.page 0 % 32 = 0 →
    1 ≤ s.arg q.page 2 → s.arg q.page 2 ≤ 256 → s.work.t1Populated (s.arg64 q.page 0) (32 * s.arg q.page 2) = true →
    s.work.poisoned (s.arg64 q.page 0) (32 * s.arg q.page 2) = false → (∀ i, i < s.arg q.page 2 → windowOk s (winAddr s q i)) →
    ((List.range (s.arg q.page 2)).map fun i => s.work.le (winAddr s q i) 4).sum ≤ 10 ^ 6 →
    ∃ t, exec (.spwLoad q) s = .next t ∧ t.showsDone q.page ∧ t.dev.spw.shadowFull = true ∧
      t.dev.spw.shadowBank = ((List.range (s.arg q.page 2)).map fun i => { len := s.work.le (winAddr s q i) 4, grant := s.work.le (winAddr s q i + 8) 24 }) ∧
      t.work.get q.page R.SPW_STS_PENDLOAD = 1 ∧ ReadFrame s t [q.page] [spwPage false, spwPage true]) ∧
  (∀ (s : State) (q : Issue), spwLegal s q 0xA9 (fun _ => true) → s.dev.spw.running = false → s.dev.spw.shadowFull = true →
    s.now.toNat + 100000 ≤ s.arg64 q.page 0 →
    ∃ t, exec (.spwStart q) s = .next t ∧ t.showsDone q.page ∧ t.dev.spw.running = true ∧ t.dev.spw.started = false ∧ t.dev.spw.t0 = s.arg64 q.page 0 ∧
      t.dev.spw.bank = s.dev.spw.shadowBank ∧ FrameBut s t [q.page] [spwPage false, spwPage true]) ∧
  (∀ (s : State) (q : Issue), spwLegal s q 0xAA (fun _ => true) → s.dev.spw.running = true →
    ∃ t, exec (.spwStop q) s = .next t ∧ t.showsAccepted q.page 0xAA none ∧ t.dev.spw = { s.dev.spw with stopReq := true, stopPage := q.page + 1 } ∧
      FrameBut s t [q.page] []) ∧
  (∀ (s : State) (q : Issue), spwLegal s q 0xAB (fun c => c.arg 0 < 4096 && c.arg 1 < 65536) →
    ∃ t, exec (.tenWeight q) s = .next t ∧ t.showsDone q.page ∧ SMap.at 256 t.dev.spw.weights (s.arg q.page 0) = max 1 (s.arg q.page 1) ∧
      (∀ n, n ≠ s.arg q.page 0 → SMap.at 256 t.dev.spw.weights n = SMap.at 256 s.dev.spw.weights n) ∧ FrameBut s t [q.page] []) ∧
  (∀ (s : State), s.dev.spw.running = true → s.dev.spw.started = false → s.dev.spw.stopReq = false → s.dev.spw.primaryLost = false →
    s.dev.spw.t0 ≤ s.now.toNat →
    ∃ t, exec .spwWindowStart s = .next t ∧ t.dev.spw.started = true ∧ t.dev.spw.win = 0 ∧ t.dev.spw.frameStart = s.dev.spw.t0 ∧
      t.work.get s.work.spwActing R.SPW_STS_FRAME = 1 ∧ t.work.get s.work.spwActing R.SPW_STS_WINDOW = 0 ∧ SameOutside s t) ∧
  (∀ (s : State), s.dev.spw.running = true → s.dev.spw.started = true → s.dev.spw.primaryLost = false → s.dev.spw.nextStart ≤ s.now.toNat →
    s.dev.spw.win + 1 < s.dev.spw.bank.length → s.dev.spw.bank.length ≤ 256 →
    ∃ t, exec .spwWindowStart s = .next t ∧ t.dev.spw.win = s.dev.spw.win + 1 ∧ t.dev.spw.frameStart = s.dev.spw.frameStart ∧
      t.work.get s.work.spwActing R.SPW_STS_WINDOW = s.dev.spw.win + 1 ∧ t.dev.spw.lead = false ∧ SameOutside s t) ∧
  (∀ (s : State), s.dev.spw.running = true → s.dev.spw.started = true → s.dev.spw.primaryLost = false →
    s.dev.spw.nextStart ≤ s.now.toNat → s.dev.spw.bank.length ≤ s.dev.spw.win + 1 → s.dev.spw.stopReq = true → s.dev.spw.stopPage = s.work.spwActing + 1 →
    (s.work.page s.work.spwActing).outst.isSome = true →
    ∃ t, exec .spwWindowStart s = .next t ∧ t.dev.spw.running = false ∧ t.published s.work.spwActing .done ∧ t.work.get s.work.spwActing R.SPW_STS_FRAME = 0 ∧ SameOutside s t) ∧
  (∀ (s : State), s.dev.spw.running = true → s.dev.spw.lead = false →
    s.dev.spw.nextStart ≤ s.now.toNat + s.work.get s.work.spwActing R.SPW_LEAD_LEAD → s.dev.spw.nextWin.isSome = true →
    ∃ t, exec .spwLeadPoint s = .next t ∧ t.dev.spw.lead = true ∧ SameOutside s t) ∧
  (∀ (s : State), s.dev.spw.standbyActs = false →
    ∃ t, exec .spwHeartbeatLoss s = .next t ∧ t.dev.spw.standbyActs = !s.dev.spw.running ∧
      (s.dev.spw.running = false → t.work.get (spwPage true) R.SPW_STS_ACTING = 1 ∧ t.hasEvent (spwPage true) 18) ∧ FrameBut s t [] [spwPage true]) ∧
  (∀ (s : State), s.dev.spw.primaryLost = true → s.dev.spw.running = false ∨ s.dev.spw.nextStart ≤ s.now.toNat →
    ∃ t, exec .spwTakeover s = .next t ∧ t.dev.spw.standbyActs = true ∧ t.dev.spw.primaryLost = false ∧
      t.work.get (spwPage true) R.SPW_STS_ACTING = 1 ∧ t.hasEvent (spwPage true) 18 ∧ t.work.ctr (spwPage true) 7 = s.work.ctr (spwPage true) 7 + 1 ∧
      FrameBut s t [] [spwPage true])

/-- Binding commits and the binding table. -/
def Obligations.Bindings : Prop := Piece.BindingCommits ∧ Piece.BindingTable

/-- Saves, turns and the schedule of frames. -/
def Obligations.SavesAndSchedule : Prop := Piece.SavesAndTurns ∧ Piece.Schedule

/-! ### Gymbiust links (chapter 19) -/

/-- The GYL page of a hub answers the physical function. -/
def gylReached (s : State) (h i : Nat) : Prop := h < 4 ∧ i < 2 ∧ s.reaches .pf (portPage (2 * h + i))

/-- The lanes that training finds, of those the port has. -/
def foundLanes (h i lanes : Nat) : Nat := lanes % 2 ^ portLanes (2 * h + i)

/-- Only registers and flits of a port, and what Campion shows, change. -/
def PortFrame (s t : State) (n : Nat) : Prop := SamePagesBut s t [] ∧ SameRegsBut s t [portPage n, cmpPage 0] ∧ SameContexts s t ∧ SameMemory s t ∧ SameOutside s t

/-- The states of a link: LINKEN starts training and, written 0, disables the port; training ends UP with a legal width and the peer in place, or FAILED; a lost
FEC lock, an acknowledgement that does not come and GYL_RETRAIN take an UP port to RETRAIN, which ends UP or FAILED (R337–R339, R341). -/
def Obligations.LinkStates : Prop :=
  (∀ (s : State) (h i : Nat), gylReached s h i → s.work.lstate (2 * h + i) = 0 →
    ∃ t, exec (.gylLinkEnable .pf h i) s = .next t ∧ t.work.lstate (2 * h + i) = 1 ∧ t.work.get (portPage (2 * h + i)) R.GYL_CTL_LINKEN = 1 ∧
      FrameBut s t [] [portPage (2 * h + i)]) ∧
  (∀ (s : State) (h i : Nat), gylReached s h i → (s.work.port (2 * h + i)).wait = [] →
    ∃ t, exec (.gylLinkDisable .pf h i) s = .next t ∧ t.work.lstate (2 * h + i) = 0 ∧ t.work.get (portPage (2 * h + i)) R.GYL_CTL_LINKEN = 0 ∧
      (t.work.port (2 * h + i)).replay = [] ∧ t.work.lanes (2 * h + i) = 0 ∧
      (s.work.lstate (2 * h + i) = 2 → t.hasEvent (portPage (2 * h + i)) 17) ∧ SameContexts s t ∧ SameMemory s t ∧ SameOutside s t) ∧
  (∀ (s : State) (h i lanes : Nat) (peer : PeerInfo), h < 4 → i < 2 → s.work.lstate (2 * h + i) = 1 → 4 ≤ popcount 40 (foundLanes h i lanes) →
    s.work.peerOk (2 * h + i) peer = true → peer.pkg < 2 ^ 12 →
    ∃ t, exec (.gylTrainDone h i lanes peer) s = .next t ∧ t.work.lstate (2 * h + i) = 2 ∧ t.work.lanes (2 * h + i) = legalLanes (foundLanes h i lanes) ∧
      t.work.get (portPage (2 * h + i)) R.GYL_STS_WIDTH = popcount 40 (legalLanes (foundLanes h i lanes)) ∧ t.work.get (portPage (2 * h + i)) R.GYL_STS_PEER = peer.pkg ∧
      t.hasEvent (portPage (2 * h + i)) 16 ∧ SameMemory s t ∧ SameOutside s t) ∧
  (∀ (s : State) (h i : Nat), h < 4 → i < 2 → s.work.lstate (2 * h + i) = 1 → (s.work.port (2 * h + i)).wait = [] →
    ∃ t, exec (.gylTrainTimeout h i) s = .next t ∧ t.work.lstate (2 * h + i) = 4 ∧ t.hasEvent (portPage (2 * h + i)) 3 ∧ SameContexts s t ∧
      SameMemory s t ∧ SameOutside s t) ∧
  (∀ (s : State) (h i : Nat), h < 4 → i < 2 → s.work.lstate (2 * h + i) = 2 →
    ∃ t, exec (.gylFecLockLoss h i) s = .next t ∧ t.work.lstate (2 * h + i) = 3 ∧ t.work.runs 3 (2 * h + i) = true ∧
      ((s.work.port (2 * h + i)).wait = [] → PortFrame s t (2 * h + i))) ∧
  (∀ (s : State) (h i : Nat), h < 4 → i < 2 → s.work.lstate (2 * h + i) = 2 → (s.work.port (2 * h + i)).replay ≠ [] →
    ∃ t, exec (.gylAckTimeout h i) s = .next t ∧ t.work.lstate (2 * h + i) = 3 ∧ t.work.port (2 * h + i) = s.work.port (2 * h + i) ∧
      ((s.work.port (2 * h + i)).wait = [] → PortFrame s t (2 * h + i))) ∧
  (∀ (s : State) (q : Issue), s.legal q retrainSpec → s.work.lstate (portOf q.page) = 2 → (s.work.request 3 (portOf q.page) (q.page + 1)).1 = true →
    ∃ t, exec (.gylRetrain q) s = .next t ∧ t.showsAccepted q.page 0xB1 none ∧ t.work.lstate (portOf q.page) = 3 ∧
      ((s.work.port (portOf q.page)).wait = [] → SamePagesBut s t [q.page]) ∧ SameContexts s t ∧ SameMemory s t ∧ SameOutside s t) ∧
  (∀ (s : State) (h i lanes : Nat), h < 4 → i < 2 → s.work.lstate (2 * h + i) = 3 → 4 ≤ popcount 40 (foundLanes h i lanes) →
    ∃ t, exec (.gylRetrainDone h i lanes) s = .next t ∧ t.work.lstate (2 * h + i) = 2 ∧ t.work.lanes (2 * h + i) = legalLanes (foundLanes h i lanes) ∧
      (t.work.port (2 * h + i)).failed = 0 ∧ SameMemory s t ∧ SameOutside s t) ∧
  (∀ (s : State) (h i : Nat), h < 4 → i < 2 → s.work.lstate (2 * h + i) = 3 → (s.work.port (2 * h + i)).wait = [] →
    ∃ t, exec (.gylRetrainTimeout h i) s = .next t ∧ t.work.lstate (2 * h + i) = 4 ∧ (t.work.port (2 * h + i)).replay = [] ∧ SameContexts s t ∧
      SameMemory s t ∧ SameOutside s t) ∧
  (∀ (s : State) (h i : Nat), h < 4 → i < 2 → s.work.lstate (2 * h + i) = 2 →
    ∃ t, exec (.peerFatal h i) s = .next t ∧ t.hasEvent (gylPage h i) 20 ∧ FrameBut s t [] [])

/-- Where the record of a port's margin scan goes. -/
def scanAddr (s : State) (n : Nat) : Nat := match (s.work.port n).scan with | some x => x.2.1 | none => 0

/-- Flits, lanes and scans: the expected flit is taken and acknowledged, one whose CRC fails answered by a NAK; a failed lane asks for its removal, which leaves the
next lower legal width, and one that fails meanwhile waits; a margin scan is accepted and its end writes its record (R340, R341, R350, R351). -/
def Piece.FlitsAndLanes : Prop :=
  (∀ (s : State) (h i : Nat) (f : Flit), h < 4 → i < 2 → s.work.lstate (2 * h + i) = 2 → (s.work.port (2 * h + i)).replay = [] → (s.work.port (2 * h + i)).wait = [] →
    (s.work.port (2 * h + i)).naks < 16 → f.crcOk = true → f.nak = false → f.idle = false → f.seq = (s.work.port (2 * h + i)).expect →
    ∃ t, exec (.gylFlitRx h i f) s = .next t ∧ (t.work.port (2 * h + i)).expect = (f.seq + 1) % 65536 ∧ t.dev.host.out = s.dev.host.out ++ [.ack (2 * h + i) false f.seq] ∧
      t.work.ctr (portPage (2 * h + i)) 1 = s.work.ctr (portPage (2 * h + i)) 1 + 1 ∧ FrameBut s t [] [portPage (2 * h + i)]) ∧
  (∀ (s : State) (h i : Nat) (f : Flit), h < 4 → i < 2 → s.work.lstate (2 * h + i) = 2 → f.crcOk = false →
    ∃ t, exec (.gylFlitRx h i f) s = .next t ∧ t.work.port (2 * h + i) = s.work.port (2 * h + i) ∧
      t.dev.host.out = s.dev.host.out ++ [.ack (2 * h + i) true (((s.work.port (2 * h + i)).expect + 65535) % 65536)] ∧
      t.work.ctr (portPage (2 * h + i)) 2 = s.work.ctr (portPage (2 * h + i)) 2 + 1 ∧ FrameBut s t [] []) ∧
  (∀ (s : State) (h i lane : Nat), h < 4 → i < 2 → s.work.lstate (2 * h + i) = 2 → bit (s.work.lanes (2 * h + i)) lane = true → (s.work.port (2 * h + i)).failed = 0 →
    4 ≤ popcount 40 (s.work.lanes (2 * h + i) - (s.work.lanes (2 * h + i) &&& 2 ^ lane)) → s.work.runs 3 (2 * h + i) = false → s.work.runs 4 (2 * h + i) = false →
    ∃ t, exec (.gylLaneFail h i lane) s = .next t ∧ (t.work.port (2 * h + i)).failed = 2 ^ lane ∧ t.work.runs 4 (2 * h + i) = true ∧ t.work.lstate (2 * h + i) = 2 ∧
      ((s.work.port (2 * h + i)).wait = [] → PortFrame s t (2 * h + i))) ∧
  (∀ (s : State) (h i lane : Nat), h < 4 → i < 2 → s.work.lstate (2 * h + i) = 2 → bit (s.work.lanes (2 * h + i)) lane = true → (s.work.port (2 * h + i)).failed ≠ 0 →
    bit (s.work.port (2 * h + i)).failed lane = false → lane ∉ (s.work.port (2 * h + i)).later →
    ∃ t, exec (.gylLaneFail h i lane) s = .next t ∧ (t.work.port (2 * h + i)).failed = (s.work.port (2 * h + i)).failed ∧
      (t.work.port (2 * h + i)).later = (s.work.port (2 * h + i)).later ++ [lane] ∧ FrameBut s t [] []) ∧
  (∀ (s : State) (h i : Nat), h < 4 → i < 2 → s.work.lstate (2 * h + i) = 2 → (s.work.port (2 * h + i)).failed ≠ 0 → (s.work.port (2 * h + i)).later = [] →
    s.work.runs 4 (2 * h + i) = true →
    ∃ t, exec (.gylLaneRemoval h i) s = .next t ∧ t.work.lanes (2 * h + i) = legalLanes (s.work.lanes (2 * h + i) - (s.work.lanes (2 * h + i) &&& (s.work.port (2 * h + i)).failed)) ∧
      (t.work.port (2 * h + i)).failed = 0 ∧ t.work.lstate (2 * h + i) = 2 ∧ t.hasEvent (portPage (2 * h + i)) 18 ∧ t.work.runs 4 (2 * h + i) = false ∧ SameMemory s t ∧ SameOutside s t) ∧
  (∀ (s : State) (q : Issue), s.legal q scanSpec → s.arg q.page 0 = 0 → s.work.lstate (portOf q.page) = 2 → s.arg64 q.page 1 % 64 = 0 →
    s.work.t1Populated (s.arg64 q.page 1) 256 = true →
    ∃ t, exec (.gylScan q) s = .next t ∧ t.showsAccepted q.page 0xB0 none ∧
      (t.work.port (portOf q.page)).scan = some (0, s.arg64 q.page 1, s.arg q.page 3) ∧ FrameBut s t [q.page] []) ∧
  (∀ (s : State) (h i : Nat) (rec : List Byte), h < 4 → i < 2 → ((s.work.port (2 * h + i)).scan.any fun x => x.1 == 0) = true →
    (s.work.page (portPage (2 * h + i))).outst.isSome = true → rec.length = 256 → scanAddr s (2 * h + i) + 256 ≤ t1Size →
    ∃ t, exec (.gylScanEnd h i rec) s = .next t ∧ t.published (portPage (2 * h + i)) .done ∧ (∀ j, j < 256 → t.work.rd (scanAddr s (2 * h + i) + j) = rec.getD j 0) ∧
      (t.work.port (2 * h + i)).scan = none ∧ t.hasEvent (portPage (2 * h + i)) 19 ∧ SameDataBut s t (scanAddr s (2 * h + i)) 256 ∧ SamePagesBut s t [portPage (2 * h + i)] ∧ SameContexts s t ∧
      SameOutside s t)

/-- The answer to a message (R342, R344). -/
def answer (s : State) (m : Msg) (kind : Nat) (data : List Byte) : Msg :=
  { kind := kind, vc := 1, srcPkg := s.work.ownPkg, dstPkg := m.srcPkg, part := m.part, tag := m.tag, addr := 0, len := data.length, lvl := 0, status := 0
    op := 0, data := data }

/-- The port by which a message goes on, with LVL from there on; the access that a response answers. -/
def hopPort (s : State) (m : Msg) : Option (Nat × Nat) := match s.work.hop m.dstPkg m.lvl with | .port k lvl => some (k, lvl) | _ => none
def waiting (s : State) (m : Msg) : Option GylTxn := s.dev.gyl.pend.find? fun y => y.tag = m.tag

/-- Messages: one that is issued here leaves in a flit of its own on its port; a read and a write of tier 1 are carried out and answered; an atomic stores a value
the manual does not state and answers the word before (log entry 69); a response ends the access that waits, a NACK with a contained fault
(R342, R344–R346). -/
def Piece.LinkMessages : Prop :=
  (∀ (s : State) (h : Nat) (m : Msg), m ∈ s.dev.gyl.issued → s.connected → (∀ x ∈ s.dev.gyl.pend, dieOf x.page < 20) → (hopPort s m).isSome = true →
    (∀ e ∈ hopPort s m, s.work.lstate e.1 = 2 ∧ (s.work.port e.1).wait = [] ∧ (s.work.port e.1).replay.length < 16384 ∧ (s.work.port e.1).failed = 0) →
    ∃ (t : State), exec (.gylForward h 2 m) s = .next t ∧ t.dev.gyl.issued = s.dev.gyl.issued.erase m ∧
      ∀ e ∈ hopPort s m, ∃ f : Flit, t.dev.host.out = s.dev.host.out ++ [.gyl e.1 f] ∧ f.msgs = [{ m with lvl := e.2 }] ∧
        f.seq = (s.work.port e.1).next ∧ f.idle = false ∧ (t.work.port e.1).replay = (s.work.port e.1).replay ++ [f] ∧
        (t.work.port e.1).next = ((s.work.port e.1).next + 1) % 65536 ∧ FrameBut s t [] [portPage e.1]) ∧
  (∀ (s : State) (m : Msg), m.kind = 1 → m.dstPkg = s.work.ownPkg → s.connected → msgOk m = true → m.addr + m.len ≤ t1Size →
    s.work.readable m.part m.addr m.len = true → s.work.poisoned m.addr m.len = false →
    ∃ t, exec (.gylRd m) s = .next t ∧ t.dev.gyl.issued = s.dev.gyl.issued ++ [answer s m 3 (s.work.rdN m.addr m.len)] ∧ ReadFrame s t [] []) ∧
  (∀ (s : State) (m : Msg), m.kind = 2 → m.dstPkg = s.work.ownPkg → s.connected → msgOk m = true → m.data.length = m.len → remoteParts m.addr = none →
    s.work.inT1 m.part m.addr m.len = true →
    ∃ t, exec (.gylWr m) s = .next t ∧ t.dev.gyl.issued = s.dev.gyl.issued ++ [answer s m 4 []] ∧
      (∀ j, j < m.len → t.work.rd (m.addr + j) = m.data.getD j 0) ∧ SameDataBut s t m.addr m.len ∧ SamePagesBut s t [] ∧ SameContexts s t ∧
      SameOutside s t) ∧
  (∀ (s : State) (m : Msg), m.kind = 7 → m.dstPkg = s.work.ownPkg → s.connected → m.addr % 8 = 0 → m.data.length = 8 → s.work.inT1 m.part m.addr 8 = true →
    s.work.poisoned m.addr 8 = false →
    ∃ t, exec (.gylAtom m) s = .next t ∧ t.dev.gyl.issued = s.dev.gyl.issued ++ [answer s m 3 (s.work.rdN m.addr 8)] ∧
      t.work.le m.addr 8 = (Config.freeValue s.dev.free).toNat ∧ SameDataBut s t m.addr 8 ∧ SamePagesBut s t [] ∧ SameContexts s t ∧ SameOutside s t) ∧
  (∀ (s : State) (m : Msg), m.kind = 3 → m.dstPkg = s.work.ownPkg → s.connected → m.status = 0 →
    ((waiting s m).any fun x => x.kind == 1 && decide (x.dst + m.data.length ≤ 2 ^ 64)) = true →
    ∃ t, exec (.gylRdrsp m) s = .next t ∧ SamePagesBut s t [] ∧ SameContexts s t ∧ SameOutside s t ∧
      ∀ x ∈ waiting s m, (∀ j, j < m.data.length → t.work.rd (x.dst + j) = m.data.getD j 0) ∧ t.dev.gyl.pend = s.dev.gyl.pend.erase x ∧
        SameDataBut s t x.dst m.data.length) ∧
  (∀ (s : State) (m : Msg), m.kind = 4 → m.dstPkg = s.work.ownPkg → (waiting s m).isSome = true →
    ∃ t, exec (.gylWrack m) s = .next t ∧ (∀ x ∈ waiting s m, t.dev.gyl.pend = s.dev.gyl.pend.erase x) ∧ FrameBut s t [] []) ∧
  (∀ (s : State) (m : Msg), m.kind = 6 → m.dstPkg = s.work.ownPkg → ((waiting s m).any fun x => (s.work.ctx x.ctx).state != .none) = true →
    ∃ t, exec (.gylNack m) s = .next t ∧ SameMemory s t ∧ SameOutside s t ∧
      ∀ x ∈ waiting s m, t.dev.gyl.pend = s.dev.gyl.pend.erase x ∧ (t.work.ctx x.ctx).state = .ending ∧ t.hasEvent x.page 3 ∧
        ∀ c, c ≠ x.ctx → (t.work.ctx c).state = (s.work.ctx c).state)

/-! ### Collectives (chapter 20) -/

/-- The program of a page, its next op, and the peer that the op names. -/
def progOf (s : State) (p : Nat) : CollProg := (s.work.coll p).prog.getD { ctx := 0, ops := [], peers := [], data := 0 }
def opOf (s : State) (p : Nat) : Nat := (progOf s p).ops.getD (progOf s p).pc 0
def peerOf (s : State) (p : Nat) : Nat := (progOf s p).peer (opPeer (opOf s p))

/-- The program of a page stands at an op of a code and its context runs. -/
def collRuns (s : State) (p code : Nat) : Prop :=
  (s.work.coll p).prog.isSome = true ∧ (progOf s p).pc < (progOf s p).ops.length ∧ opCode (opOf s p) = code ∧
    (s.work.ctx (progOf s p).ctx).state = .running ∧ (progOf s p).steps < 65536

/-- The program has gone to op `pc`. -/
def collNext (s t : State) (p pc : Nat) : Prop :=
  (t.work.coll p).prog = some { progOf s p with
    pc := pc, steps := (progOf s p).steps + 1, waitFrom := if (progOf s p).ops.length ≤ pc then some s.now.toNat else none, fence := none }

/-- A message of a page's program to a peer. -/
def collOut (s : State) (p peer tag : Nat) (isData : Bool) (data : List Byte) : OutMsg :=
  .coll peer { group := s.work.get p R.SEQ_COLLSTS_GROUP, inst := s.work.get p R.SEQ_COLLINST_INST, part := (s.work.ctx (s.pageCtx p)).part
               src := s.work.selfPeer p, isData := isData, tag := tag, data := data, rt := (s.work.ctx (s.pageCtx p)).cls == 0 }

/-- The arrivals that WAIT consumes, and the message that RECV and REDUCE take, each with what stays buffered; the peers of BCAST. -/
def arrivals (s : State) (p : Nat) : List CollMsg × List CollMsg :=
  takeMsgs (fun m => !m.isData && m.tag == 0 && m.inst == s.work.get p R.SEQ_COLLINST_INST) (opImm (opOf s p)) (s.work.coll p).buf
def nextMsg (s : State) (p : Nat) : List CollMsg × List CollMsg :=
  takeMsgs (fun m => m.isData && m.tag == 0 && m.inst == s.work.get p R.SEQ_COLLINST_INST && m.src == peerOf s p) 1 (s.work.coll p).buf
def bcastTo (s : State) (p : Nat) : List Nat := ((List.range 16).filter fun n => bit (opImm (opOf s p)) n).map (progOf s p).peer

/-- A message with as many registers as the op takes is there, and X15 is not passed. -/
def msgReady (s : State) (p : Nat) : Prop :=
  (nextMsg s p).1.map (·.data.length) = [4 * s.work.fuse p] ∧ opBase (opOf s p) + s.work.fuse p ≤ 16

/-- Lane i of the message taken. -/
def msgLane (s : State) (p i : Nat) : Nat := leNat ((((nextMsg s p).1.flatMap (·.data)).drop (4 * i)).take 4)

/-- The ops of a collective program: each has its effect and goes to the next, JUMP to its target where it is taken (R355–R357). -/
def Piece.CollectiveOps : Prop :=
  (∀ (s : State) (p : Nat), collRuns s p 1 → s.work.hasCredit p (peerOf s p) = true →
    ∃ t, exec (.collArrive p) s = .next t ∧ collNext s t p ((progOf s p).pc + 1) ∧
      t.dev.host.out = s.dev.host.out ++ [collOut s p (peerOf s p) 0 false []] ∧ (t.work.coll p).unaccepted = (s.work.coll p).unaccepted + 1 ∧
      FrameBut s t [] [p]) ∧
  (∀ (s : State) (p : Nat), collRuns s p 2 → (arrivals s p).1.length = opImm (opOf s p) →
    ∃ t, exec (.collWait p) s = .next t ∧ collNext s t p ((progOf s p).pc + 1) ∧ (t.work.coll p).buf = (arrivals s p).2 ∧
      t.dev.host.out = s.dev.host.out ++ (arrivals s p).1.map (fun m => collOut s p m.src 2 false []) ∧ FrameBut s t [] [p]) ∧
  (∀ (s : State) (p : Nat), collRuns s p 3 → s.work.hasCredit p (peerOf s p) = true →
    ∃ t, exec (.collSend p) s = .next t ∧ collNext s t p ((progOf s p).pc + 1) ∧
      t.dev.host.out = s.dev.host.out ++ [collOut s p (peerOf s p) 0 true (s.work.laneBytes p (opOf s p))] ∧ FrameBut s t [] [p]) ∧
  (∀ (s : State) (p : Nat), collRuns s p 4 → msgReady s p →
    ∃ t, exec (.collRecv p) s = .next t ∧ collNext s t p ((progOf s p).pc + 1) ∧ (t.work.coll p).buf = (nextMsg s p).2 ∧
      (∀ i, i < s.work.fuse p → t.work.x p (opBase (opOf s p) + i) = msgLane s p i) ∧
      (∀ i, i < 16 → i < opBase (opOf s p) ∨ opBase (opOf s p) + s.work.fuse p ≤ i → t.work.x p i = s.work.x p i) ∧
      t.dev.host.out = s.dev.host.out ++ [collOut s p (peerOf s p) 2 false []] ∧ FrameBut s t [] [p]) ∧
  (∀ (s : State) (p : Nat), collRuns s p 5 → msgReady s p →
    ∃ t, exec (.collReduce p) s = .next t ∧ collNext s t p ((progOf s p).pc + 1) ∧ (t.work.coll p).buf = (nextMsg s p).2 ∧
      (∀ i, i < s.work.fuse p → t.work.x p (opBase (opOf s p) + i) =
        collFn (opFn (opOf s p)) (s.work.x p (opBase (opOf s p) + i)) (msgLane s p i) % 2 ^ 32) ∧
      t.dev.host.out = s.dev.host.out ++ [collOut s p (peerOf s p) 2 false []] ∧ FrameBut s t [] [p]) ∧
  (∀ (s : State) (p : Nat), collRuns s p 6 → s.work.mirrorOwed p = false →
    (∀ q ∈ bcastTo s p, SMap.at 0 (s.work.coll p).held q + (bcastTo s p).count q ≤ 2) →
    ∃ t, exec (.collBcast p) s = .next t ∧ collNext s t p ((progOf s p).pc + 1) ∧
      t.dev.host.out = s.dev.host.out ++ (bcastTo s p).map (fun q => collOut s p q 0 true (s.work.laneBytes p (opOf s p))) ∧ FrameBut s t [] [p]) ∧
  (∀ (s : State) (p : Nat), collRuns s p 7 →
    ∃ t, exec (.collFuse p) s = .next t ∧ collNext s t p ((progOf s p).pc + 1) ∧ t.work.fuse p = opImm (opOf s p) % 16 + 1 ∧ FrameBut s t [] [p]) ∧
  (∀ (s : State) (p : Nat), collRuns s p 8 → opFlag (opOf s p) = false → (s.work.coll p).unaccepted = 0 →
    ∃ t, exec (.collFence p) s = .next t ∧ collNext s t p ((progOf s p).pc + 1) ∧ FrameBut s t [] [p]) ∧
  (∀ (s : State) (p : Nat), collRuns s p 9 →
    ∃ t, exec (.collJump p) s = .next t ∧ FrameBut s t [] [p] ∧
      collNext s t p (if opFlag (opOf s p) = true ∧ s.work.x p (opBase (opOf s p)) = 0 then (progOf s p).pc + 1 else opImm (opOf s p) % 256))

/-- What COLL_RUN names: the ops, the peer entries as they lie and with their boards translated, the number of ops, the data block. -/
def collCount (s : State) (p : Nat) : Nat := bits (s.arg p 2) 8 0
def collOps (s : State) (p : Nat) : List Nat := (List.range (collCount s p)).map fun i => s.work.le (s.arg64 p 0 + 4 * i) 4
def collRaw (s : State) (p : Nat) : List Nat := (List.range 16).map fun i => s.work.le (s.arg64 p 3 + 4 * i) 4
def collPeers (s : State) (p : Nat) : Option (List Nat) := (Work.peerCodes (s.work.ctx (s.pageCtx p)).part (collRaw s p) s.work).1

/-- A range that COLL_RUN may use: aligned, in the partition's tier 1 and not poisoned. -/
def collRange (s : State) (p a n : Nat) : Prop :=
  a % 64 = 0 ∧ s.work.inT1 (s.work.ctx (s.pageCtx p)).part a n = true ∧ s.work.poisoned a n = false

/-- COLL_RUN starts a program whose arrays lie where they must; END writes the registers back and publishes DONE; a message of the program's instance is buffered and its
acceptance answered; ABORT and TIMEOUT end the program aborted (R354, R358, R359, R362). -/
def Piece.CollectivePrograms : Prop :=
  (∀ (s : State) (q : Issue), s.legal q collRunSpec → s.connected → 1 ≤ collCount s q.page → collCount s q.page ≤ 256 →
    collRange s q.page (s.arg64 q.page 0) (4 * collCount s q.page) → collRange s q.page (s.arg64 q.page 3) 64 → collRange s q.page (s.arg64 q.page 5) 64 →
    (∀ x ∈ collRaw s q.page, bits x 30 18 = 0) →
    ((collPeers s q.page).any fun l => (collOps s q.page).all (opOk l (collCount s q.page))) = true → (s.work.coll q.page).buf = [] →
    ∃ t, exec (.collRun q) s = .next t ∧ t.showsAccepted q.page 0x3C none ∧
      (t.work.coll q.page).prog = some { ctx := s.pageCtx q.page, ops := collOps s q.page, peers := (collPeers s q.page).getD [], data := s.arg64 q.page 5 } ∧
      t.work.get q.page R.SEQ_COLLSTS_ACTIVE = 1 ∧ t.work.get q.page R.SEQ_COLLINST_INST = (s.work.get q.page R.SEQ_COLLINST_INST + 1) % 65536 ∧
      t.work.fuse q.page = 1 ∧ t.work.get q.page R.SEQ_COLLSTS_GROUP = bits (s.arg q.page 2) 31 16 ∧
      (∀ i, i < 16 → t.work.x q.page i = s.work.le (s.arg64 q.page 5 + 4 * i) 4) ∧ ReadFrame s t [q.page] [q.page]) ∧
  (∀ (s : State) (p : Nat), (s.work.coll p).prog.isSome = true → opCode (opOf s p) = 10 → (s.work.ctx (progOf s p).ctx).state = .running →
    (progOf s p).steps < 65536 → (s.work.page p).outst.isSome = true → (progOf s p).data + 64 ≤ t1Size → noMirror s →
    ∃ t, exec (.collEnd p) s = .next t ∧ t.published p .done ∧ (t.work.coll p).prog = none ∧ t.work.get p R.SEQ_COLLSTS_ACTIVE = 0 ∧ t.hasEvent p 23 ∧
      (∀ n, n < 16 → t.work.le ((progOf s p).data + 4 * n) 4 = s.work.x p n) ∧ SameDataBut s t (progOf s p).data 64 ∧ SamePagesBut s t [p] ∧
      SameRegsBut s t (p :: memPages) ∧ SameContexts s t ∧ SameOutside s t) ∧
  (∀ (s : State) (p : Nat) (m : CollMsg), s.dev.saves = [] → typeOf p = 4 → s.hasCtx p → m.tag = 0 → m.part = (s.work.ctx (s.pageCtx p)).part →
    m.inst = s.work.get p R.SEQ_COLLINST_INST → m.group = s.work.get p R.SEQ_COLLSTS_GROUP → (s.work.coll p).prog.isSome = true →
    ∃ t, exec (.collMsgReceive p m) s = .next t ∧ (t.work.coll p).buf = (s.work.coll p).buf ++ [m] ∧
      t.dev.host.out = s.dev.host.out ++ [collOut s p m.src 1 false []] ∧ FrameBut s t [] []) ∧
  (∀ (s : State) (p : Nat) (m : CollMsg), s.dev.saves = [] → typeOf p = 4 → s.hasCtx p → m.tag = 2 →
    ∃ t, exec (.collMsgReceive p m) s = .next t ∧ SMap.at 0 (t.work.coll p).held m.src = SMap.at 0 (s.work.coll p).held m.src - 1 ∧ FrameBut s t [] []) ∧
  (∀ (s : State) (p inst : Nat), s.dev.saves = [] → typeOf p = 4 → inst = s.work.get p R.SEQ_COLLINST_INST → (s.work.coll p).prog.isSome = true →
    (s.work.page p).outst.isSome = true →
    ∃ t, exec (.collAbortMsg p inst) s = .next t ∧ t.published p .done ∧ (t.work.coll p).prog = none ∧ t.work.get p R.SEQ_COLLSTS_ABORTED = 1 ∧
      t.work.get p R.SEQ_COLLSTS_REASON = 1 ∧ t.hasEvent p 24 ∧ FrameBut s t [p] [p]) ∧
  (∀ (s : State) (p : Nat), (s.work.coll p).prog.isSome = true →
    ((progOf s p).waitFrom.any fun t0 => decide (t0 + 1000 * s.work.get p R.SEQ_COLLTMO_TIMEOUT ≤ s.now.toNat)) = true →
    (s.work.ctx (progOf s p).ctx).state = .running → (s.work.page p).outst.isSome = true →
    ∃ t, exec (.collTimeout p) s = .next t ∧ t.published p .done ∧ (t.work.coll p).prog = none ∧ t.work.get p R.SEQ_COLLSTS_ABORTED = 1 ∧
      t.work.get p R.SEQ_COLLSTS_REASON = 0 ∧ t.hasEvent p 24 ∧
      (∀ x ∈ (progOf s p).peers, bit x 31 = true → collOut s p (x % 2 ^ 18) 3 false [] ∈ t.dev.host.out) ∧ FrameBut s t [p] [p])

/-- Flits, lanes and the messages of links. -/
def Obligations.FlitsAndMessages : Prop := Piece.FlitsAndLanes ∧ Piece.LinkMessages

/-- Collective operations and their programs. -/
def Obligations.Collectives : Prop := Piece.CollectiveOps ∧ Piece.CollectivePrograms

/-! ### Commit, faults and recovery (chapter 21), snapshots (chapter 22) -/

/-- Only context c changes. -/
def OnlyContext (s t : State) (c : Nat) : Prop := ∀ x, x ≠ c → { t.work.ctx x with events := [] } = { s.work.ctx x with events := [] }

/-- The commit of a context; it has not taken its stamp; nothing keeps it from its stamp (R366, R228, R166). -/
def commitOf (s : State) (c : Nat) : Commit := (s.work.ctx c).commit.getD ⟨0, 0, 0, false, none⟩
def openCommit (s : State) (c : Nat) : Prop := (s.work.ctx c).commit.isSome = true ∧ (commitOf s c).stamp = none
def mayStamp (s : State) (c : Nat) : Prop :=
  (s.work.ctx c).state = .running ∧ s.work.fatal = false ∧ openCommit s c ∧ s.work.waitFor c = 0 ∧ s.work.barrierOwed c = false ∧ s.work.lateStall c 1 = none

/-- STEP_COMMIT is accepted and waits; the mirror's records go out once nothing else is waited for; with every condition met the commit takes its stamp, or, what
it reads lying outside the context's granules, ends FAULT with the context's teardown (R366, R367, R377). -/
def Piece.StepCommits : Prop :=
  (∀ (s : State) (q : Issue), s.legal q stepCommitSpec → s.work.commitBusy (s.pageCtx q.page) = false → s.work.pfDue (s.pageCtx q.page) 255 = none →
    ∃ t, exec (.stepCommit q) s = .next t ∧ t.showsAccepted q.page 0x3E none ∧ t.work.ctx (s.pageCtx q.page) =
        { s.work.ctx (s.pageCtx q.page) with commit := some ⟨q.page, s.arg64 q.page 0, s.arg64 q.page 2, false, none⟩ } ∧
      OnlyContext s t (s.pageCtx q.page) ∧ SamePagesBut s t [q.page] ∧ SameRegsBut s t [] ∧ SameMemory s t ∧ SameOutside s t) ∧
  (∀ (s : State) (q : Issue), s.legal q stepCommitSpec → s.work.commitBusy (s.pageCtx q.page) = true →
    ∃ t, exec (.stepCommit q) s = .next t ∧ t.showsRefused q.page .busy ∧ FrameBut s t [q.page] []) ∧
  (∀ (s : State) (c : Nat), (s.work.ctx c).state = .running → openCommit s c → (commitOf s c).recordsSent = false → s.work.mirrors c = true →
    s.work.waitOther c = 0 → s.work.commitEnts c (commitOf s c) = [] →
    ∃ t, exec (.commitMirrorRecords c) s = .next t ∧
      t.work.ctx c = { s.work.ctx c with commit := some { commitOf s c with recordsSent := true } } ∧ OnlyContext s t c ∧ SamePagesBut s t [] ∧
      SameRegsBut s t [] ∧ SameMemory s t ∧ SameOutside s t) ∧
  (∀ (s : State) (c : Nat), mayStamp s c → s.work.commitBound c (commitOf s c) = false → s.work.commitPoison c (commitOf s c) = false →
    (∀ e ∈ s.work.commitEnts c (commitOf s c), (s.work.tab e.rq).reg = true → (s.work.tab e.rq).gen ≠ 2 ^ 32 - 1) →
    ∃ (t : State) (p : Publication), exec (.commitStamp c) s = .next t ∧ (t.work.ctx c).commit = some { commitOf s c with stamp := some s.now.toNat } ∧
      SMap.at none t.dev.serve.publish c = some p ∧ p.stamp = s.now.toNat ∧ p.reqs.length = (s.work.commitEnts c (commitOf s c)).length ∧
      (t.work.batch c).formed = false ∧ SameOutside s t) ∧
  (∀ (s : State) (c : Nat), mayStamp s c → s.work.commitBound c (commitOf s c) = true → (s.work.page (commitOf s c).page).outst.isSome = true →
    ∃ t, exec (.commitStamp c) s = .next t ∧ t.published (commitOf s c).page .fault ∧ (t.work.ctx c).commit = none ∧ (t.work.ctx c).state = .ending ∧
      SameOutside s t)

/-- STEP_ABANDON gives the step up: a commit that waited is gone and the step is closed. A contained fault begins the teardown of its context with its cause
recorded; the teardown's end leaves no context and shows the cause on the SPW page (R369–R371). -/
def Piece.AbandonsAndFaults : Prop :=
  (∀ (s : State) (q : Issue), s.legal q stepAbandonSpec → s.connected → s.work.commitBusy (s.pageCtx q.page) = false →
    s.work.anchorOf (s.pageCtx q.page) = none → (commitOf s (s.pageCtx q.page)).stamp = none →
    ∃ t, exec (.stepAbandon q) s = .next t ∧ (t.work.ctx (s.pageCtx q.page)).commit = none ∧ (t.work.ctx (s.pageCtx q.page)).stalls = 0 ∧
      (t.work.batch (s.pageCtx q.page)).formed = false ∧ SameOutside s t) ∧
  (∀ (s : State) (c p code det : Nat), (s.work.ctx c).state ≠ .none → (s.work.ctx c).state ≠ .ending → code < 256 →
    ∃ t, exec (.containedFault c p code det) s = .next t ∧ (t.work.ctx c).state = .ending ∧ t.hasEvent p 3 ∧
      (t.work.ctx c).fault = some (code, (blockOf p).1, (blockOf p).2, dieOf p, 0, s.now.toNat) ∧
      (code = 0xC2 → (s.work.page p).state ≠ .off → (t.work.page p).state = .fenced) ∧
      (∀ x, x ≠ c → (t.work.ctx x).state = (s.work.ctx x).state) ∧ SameMemory s t ∧ SameOutside s t) ∧
  (∀ (s : State) (c : Nat), c < 256 → (s.work.ctx c).state = .ending → SMap.at none s.dev.serve.publish c = none → s.work.winsClosing c = false →
    (s.work.ctx c).fault.isSome = true → (s.work.ctx c).endPage = 0 →
    ∃ t, exec (.teardownDone c) s = .next t ∧ (t.work.ctx c).state = .none ∧ SameOutside s t ∧
      t.work.get (spwPage false) (R.SPW_CTXFAULT_CODE.i c) = (match (s.work.ctx c).fault with | some f => f.1 % 256 | none => 0))

/-- A die is fenced: every block of it that was not OFF is FENCED, its fault is recorded, and its spare commit is due. -/
def dieFenced (s t : State) (d : Nat) : Prop :=
  t.work.fenced d = true ∧ (∀ i, i < 0x255 → typeOf (pg d i) ≠ 0 → (s.work.page (pg d i)).state ≠ .off → (t.work.page (pg d i)).state = .fenced) ∧
    t.hasEvent (pwrPage d) 16 ∧ t.dev.bnd.spareDue = s.dev.bnd.spareDue ++ [d] ∧ SameMemory s t ∧ SameOutside s t

/-- A compute die that works. -/
def dieWorks (s : State) (d : Nat) : Prop := d < 16 ∧ s.work.fenced d = false ∧ s.work.dieOn d = true

/-- The request that RQT_ADOPT takes over, the table that its record names, and the pages that the table names. -/
def adopted (s : State) (q : Issue) : Nat := (s.work.heldReqs (s.arg q.page 0)).headD 0
def adoptTab (s : State) (q : Issue) : Tab := s.work.heldTab (s.arg q.page 0) (s.arg q.page 1 % 256) (adopted s q)
def adoptPages (s : State) (q : Issue) : List PageRef :=
  (List.range (s.work.tPlanes (adoptTab s q))).flatMap fun j => ⟨s.work.tTag (adoptTab s q) j, s.work.tStage (adoptTab s q) j, s.work.tMaxk (adoptTab s q)⟩ ::
    (List.range (s.work.tRows (adoptTab s q) ((adoptTab s q).gen % 2))).map fun i => entryRef (s.work.tEntry (adoptTab s q) ((adoptTab s q).gen % 2) i j)

/-- Its regions are the partition's and have no pages yet; they keep the counts of its pages, clear of the table and of the record (R169, R378). -/
def adoptReady (s : State) (q : Issue) : Prop :=
  s.work.tRows (adoptTab s q) ((adoptTab s q).gen % 2) ≤ s.work.tRowcap (adoptTab s q) ∧
  (∀ g ∈ s.work.tTags (adoptTab s q), s.work.regValid g = true ∧ s.work.regPart g = s.arg q.page 0 ∧ s.work.regUsed g = false ∧
    apart (s.work.regFirst g) (s.work.regLow g - s.work.regFirst g) (s.work.mirrorAt (adopted s q)) 2048 ∧
    apart (s.work.regFirst g) (s.work.regLow g - s.work.regFirst g) (adoptTab s q).addr
      (128 + 16 * s.work.tRowcap (adoptTab s q) * s.work.tPlanes (adoptTab s q))) ∧
  ∀ r ∈ adoptPages s q, r.tag ∈ s.work.tTags (adoptTab s q) ∧ s.work.refPlace r + 2 ≤ s.work.regLow r.tag

/-- Core voltage out of range, 110 °C, an uncontained unit error, a VCORE_C rail out of range: each fences the die; the spare commit leaves none of its resources bound;
any other rail out of range, or a package error, is package-fatal; RQT_ADOPT takes over the held requests of a partition with their tables (R373–R375,
R378, R422). -/
def Obligations.DieAndPackageFaults : Prop :=
  (∀ (s : State) (d : Nat), dieWorks s d → ∃ t, exec (.vcoreOutOfRange d) s = .next t ∧ dieFenced s t d) ∧
  (∀ (s : State) (d u : Nat), dieWorks s d → ∃ t, exec (.dieFatalUncError d u) s = .next t ∧ dieFenced s t d) ∧
  (∀ (s : State) (d : Nat), dieWorks s d → ∃ t, exec (.railOutOfRange d) s = .next t ∧ dieFenced s t d) ∧
  (∀ (s : State) (d temp : Nat), dieWorks s d → s.work.rtmOn d = false → toSigned 12 temp ≥ 440 →
    ∃ t, exec (.dieOvertemp d temp) s = .next t ∧ dieFenced s t d) ∧
  (∀ (s : State) (d : Nat), d < 16 → s.dev.bnd.spareDue.head? = some d → s.work.fenced d = true → (∀ c, (s.work.ctx c).state ≠ .ending) →
    (∀ e ∈ dieRes d, ∀ i ∈ e.2, (∀ p ∈ resPages e.1 i, (s.work.page p).state = .fenced) ∧ ∀ p ∈ s.work.owner e.1 i, p < 64) →
    ∃ t, exec (.spareCommit d) s = .next t ∧ t.dev.bnd.spareDue = s.dev.bnd.spareDue.drop 1 ∧
      (∀ e ∈ dieRes d, ∀ i ∈ e.2, t.work.owner e.1 i = none) ∧ SameOutside s t) ∧
  (∀ (s : State) (cause : Nat), s.work.fatal = false →
    ∃ t, exec (.pkgFatal cause) s = .next t ∧ t.work.fatal = true ∧ t.dev.pwr.fatalN = true ∧ t.work.get pciPage R.PCI_STS_FATAL = 1 ∧
      t.hasEvent pciPage 17 ∧ SameOutside s t) ∧
  (∀ (s : State) (rail : Nat), 16 ≤ rail → rail < 28 → s.work.ready = true → s.work.fatal = false →
    ∃ t, exec (.railOutOfRange rail) s = .next t ∧ t.work.fatal = true ∧ t.dev.pwr.fatalN = true ∧ t.work.get pciPage R.PCI_STS_FATAL = 1 ∧
      t.hasEvent pciPage 17 ∧ SameOutside s t) ∧
  (∀ (s : State) (q : Issue), s.legal q rqtAdoptSpec → s.connected → s.work.role (s.arg q.page 0) ≠ 2 → bit (s.arg q.page 1) 8 = false →
    s.work.heldReqs (s.arg q.page 0) = [adopted s q] → adoptReady s q →
    ∃ t, exec (.rqtAdopt q) s = .next t ∧ t.showsAccepted q.page 0x73 (some .done) ∧ (t.work.req (adopted s q)).held = false ∧
      (t.work.req (adopted s q)).state = s.work.le (s.work.mirrorAt (adopted s q)) 4 % 16 ∧ (t.work.req (adopted s q)).ctx = s.arg q.page 1 % 256 ∧
      (t.work.req (adopted s q)).clen = s.work.le (s.work.mirrorAt (adopted s q) + 4) 4 % 2 ^ 25 ∧ t.work.tab (adopted s q) = adoptTab s q ∧
      (∀ a, a < 2 ^ 100 → (∀ g ∈ s.work.tTags (adoptTab s q), a < s.work.regFirst g ∨ s.work.regLow g ≤ a) → t.mem.byte a = s.mem.byte a) ∧
      SamePagesBut s t [q.page] ∧ SameContexts s t ∧ SameOutside s t)

/-- A snapshot has been latched from a source at the present stamp. -/
def latched (s t : State) (src : Nat) : Prop :=
  t.work.get (snpPage 16) R.SNP_STS_FROZEN = 1 ∧ t.work.get (snpPage 16) R.SNP_STS_SOURCE = src ∧
    t.work.get (snpPage 16) R.SNP_STS_SEQNO = (s.work.get (snpPage 16) R.SNP_STS_SEQNO + 1) % 65536 ∧
    t.work.get64 (snpPage 16) R.SNP_STAMP_LO_ST_LO = s.now.toNat ∧ (t.shadow.map fun f => (f.stamp, f.source)) = some (s.now.toNat, src) ∧
    t.hasEvent (snpPage 16) 16 ∧ FrameBut s t [] [snpPage 16]

/-- The triggers latch a snapshot; a trigger while one is FROZEN is lost and counted; RELEASE thaws it; SNAPOUT's pulse ends; SNP_DUMP writes the 64 shadow bytes of each
page of each die (R384–R389). -/
def Obligations.Snapshots : Prop :=
  (∀ (s : State) (v : Word), s.reaches .pf (snpPage 16) → bit v.toNat 0 = true → bit v.toNat 1 = false →
    s.work.get (snpPage 16) R.SNP_STS_FROZEN = 0 → ∃ t, exec (.snpTrig .pf v) s = .next t ∧ latched s t 1) ∧
  (∀ (s : State), s.work.get (snpPage 16) R.SNP_CTL_TIMEEN = 1 → s.work.get64 (snpPage 16) R.SNP_MATCH_LO_MATCH_LO ≤ s.now.toNat →
    s.work.get (snpPage 16) R.SNP_STS_FROZEN = 0 →
    ∃ t, exec .snpTimeTrigger s = .next t ∧ latched s t 2 ∧ t.work.get (snpPage 16) R.SNP_CTL_TIMEEN = 0) ∧
  (∀ (s : State), s.work.get (snpPage 16) R.SNP_CTL_PINEN = 1 → s.work.get (snpPage 16) R.SNP_STS_FROZEN = 0 →
    ∃ t, exec .snapinEdge s = .next t ∧ latched s t 4) ∧
  (∀ (s : State), s.work.get (snpPage 16) R.SNP_CTL_PINEN = 1 → s.work.get (snpPage 16) R.SNP_STS_FROZEN = 1 →
    ∃ t, exec .snapinEdge s = .next t ∧ t.shadow = s.shadow ∧ t.hasEvent (snpPage 16) 17 ∧ 
      t.work.get (snpPage 16) R.SNP_STS_SEQNO = s.work.get (snpPage 16) R.SNP_STS_SEQNO ∧ FrameBut s t [] []) ∧
  (∀ (s : State) (v : Word), s.reaches .pf (snpPage 16) → bit v.toNat 0 = false → bit v.toNat 1 = true → s.work.dumping = false →
    ∃ t, exec (.snpRelease .pf v) s = .next t ∧ t.work.get (snpPage 16) R.SNP_STS_FROZEN = 0 ∧ t.shadow = s.shadow ∧ FrameBut s t [] [snpPage 16]) ∧
  (∀ (s : State), ∃ t, exec .snapoutPulseEnd s = .next t ∧ t.dev.pwr = { s.dev.pwr with snapout := false } ∧ FrameBut s t [] []) ∧
  (∀ (s : State) (q : Issue), s.legal q snpDumpSpec → s.connected → s.work.get (snpPage 16) R.SNP_STS_FROZEN = 1 → s.arg64 q.page 0 % 4096 = 0 →
    s.work.t1Populated (s.arg64 q.page 0) dumpBytes = true → s.work.boundArea (s.arg64 q.page 0) dumpBytes = false →
    (s.work.request 8 0 (q.page + 1)).1 = true →
    ∃ t, exec (.snpDump q) s = .next t ∧ t.showsAccepted q.page 0x01 (some .done) ∧
      (∀ p n, p < 20 * 2048 → n < 16 → t.work.le (s.arg64 q.page 0 + 64 * p + 4 * n) 4 = (s.work.shadowWord p n).toNat) ∧
      SameDataBut s t (s.arg64 q.page 0) dumpBytes ∧ SamePagesBut s t [q.page] ∧ SameContexts s t ∧ SameOutside s t)

/-- Step commits, abandoned steps and contained faults. -/
def Obligations.CommitsAndAbandons : Prop := Piece.StepCommits ∧ Piece.AbandonsAndFaults

/-! ### Registers and accesses (chapters 3 and 0) -/

/-- A page of a block whose specific registers all store their fields as their access codes say, and a word of it. -/
def plainWord (p n : Nat) : Prop := typeOf p ∈ [5, 6, 8, 9, 0x12, 0x13, 0x1C, 0x21] ∧ 0x50 ≤ n ∧ n < 1024 ∧ (specAt p n).isSome = true

/-- The register at a word of a page. -/
def wordSpec (p n : Nat) : RegSpec := (specAt p n).getD ⟨0, 0, 1, 0, []⟩

/-- The block state lets RWQ fields be written. -/
def quietPage (s : State) (p : Nat) : Bool := (s.work.page p).state == .idle || (s.work.page p).state == .quiesced

/-- A register write stores each field by its access code; RWQ fields of a block that is neither IDLE nor QUIESCED keep their values and the drop is reported; ARGn takes the
value written; a write of CMD issues the command its low byte names. A peer's management core writes as this package's own does, and another requester has no
access. A read of a low word latches the high word for its requester; a virtual function's write to a page not its own is only counted (R6, R36–R38, R45, R46). -/
def Obligations.RegisterAccesses : Prop :=
  (∀ (s : State) (by_ : Caller) (p n : Nat) (v : Word), plainWord p n → s.reaches by_ p → quietPage s p = true →
    ∃ t, exec (.registerWrite by_ (p * 4096 + 4 * n) v) s = .next t ∧
      t.work.reg p n = BitVec.ofNat 32 (storeFields (typeOf p) (wordSpec p n) true (s.work.reg p n).toNat v.toNat) ∧
      (∀ m, m < 1024 → m ≠ n → t.work.reg p m = s.work.reg p m) ∧ FrameBut s t [] [p]) ∧
  (∀ (s : State) (by_ : Caller) (p n : Nat) (v : Word), plainWord p n → s.reaches by_ p → quietPage s p = false →
    (wordSpec p n).flds.any (fun f => f.acc == .rwq) = true →
    ∃ t, exec (.registerWrite by_ (p * 4096 + 4 * n) v) s = .next t ∧
      t.work.reg p n = BitVec.ofNat 32 (storeFields (typeOf p) (wordSpec p n) false (s.work.reg p n).toNat v.toNat) ∧ t.hasEvent p 0 ∧ t.hasEvent p 3 ∧
      (t.work.page p).log0 = v ∧ FrameBut s t [] [p]) ∧
  (∀ (s : State) (by_ : Caller) (p k : Nat) (v : Word), k < 12 → s.reaches by_ p → (s.work.page p).args.length = 12 →
    ∃ t, exec (.registerWrite by_ (p * 4096 + 0x104 + 4 * k) v) s = .next t ∧ (t.work.page p).args = (s.work.page p).args.set k v ∧
      t.arg p k = v.toNat ∧ SamePagesBut s t [p] ∧ SameRegsBut s t [] ∧ SameContexts s t ∧ SameMemory s t ∧ SameOutside s t) ∧
  (∀ (s : State) (by_ : Caller) (p : Nat) (v : Word), typeOf p = 2 → dieOf p < 20 → v.toNat % 256 = 0x30 →
    exec (.registerWrite by_ (p * 4096 + 0x100) v) s = exec (.mcSetpair { caller := by_, page := p, hi := BitVec.ofNat 24 (v.toNat / 256) }) s) ∧
  (∀ (s : State) (off : Nat) (v : Word), exec (.peerRegAccess true true off v) s = exec (.registerWrite .kmc off v) s) ∧
  (∀ (s : State) (p n : Nat) (v : Word), typeOf p ≠ 0 → s.work.dieOn (dieOf p) = true → n < 1024 → latchLow p (4 * n) = false →
    (1 ≤ n → latchLow p (4 * n - 4) = false) →
    ∃ t, exec (.peerRegAccess true false (p * 4096 + 4 * n) v) s = .next t ∧ t.dev.bus = s.work.pageWord p n ∧ FrameBut s t [] []) ∧
  (∀ (s : State) (wr : Bool) (off : Nat) (v : Word), exec (.peerRegAccess false wr off v) s = .next s) ∧
  (∀ (s : State) (by_ : Caller) (p n : Nat), typeOf p ≠ 0 → s.work.readable_ by_ p n = true → s.work.dieOn (dieOf p) = true → n < 1023 →
    latchLow p (4 * n) = true → latchLow p (4 * n + 4) = false →
    ∃ t u, exec (.latchingLowRead by_ (p * 4096 + 4 * n)) s = .next t ∧ t.dev.bus = s.work.pageWord p n ∧
      exec (.latchingLowRead by_ (p * 4096 + 4 * n + 4)) t = .next u ∧ (s.work.readable_ by_ p (n + 1) = true → u.dev.bus = s.work.pageWord p (n + 1)) ∧
      FrameBut s t [] []) ∧
  (∀ (s : State) (vf off : Nat) (v : Word), s.work.reach (.vf vf) (off / 4096) = .denied →
    ∃ t, exec (.vfWriteDenied vf off v) s = .next t ∧ t.work.ctr pciPage 0 = s.work.ctr pciPage 0 + 1 ∧
      (∀ p, t.work.page p = s.work.page p) ∧ FrameBut s t [] [])

/-! ### Host interface and management (chapter 23) -/

/-- The endpoint answers configuration requests: the link is up, PERST# is released, and 100 ms have passed since. -/
def endpointUp (s : State) : Prop := s.work.linked = true ∧ s.dev.host.perstAt ≤ s.now.toNat

/-- Configuration requests, BAR4 accesses, the link and PERST# (R393, R395, R397, R398, R406, R424). -/
def Obligations.Endpoint : Prop :=
  (∀ (s : State) (fn : Nat) (reg : CfgReg) (wr : Bool) (v : Word), endpointUp s → s.work.ready = false →
    ∃ t, exec (.pcieConfigRequest fn reg wr v) s = .next t ∧ t.dev.host.out = s.dev.host.out ++ [.cpl 3 []] ∧ FrameBut s t [] []) ∧
  (∀ (s : State) (v : Word), endpointUp s → s.work.ready = true → v.toNat ≤ 64 →
    ∃ t, exec (.pcieConfigRequest 0 .numVf true v) s = .next t ∧ t.work.get pciPage R.PCI_NUMVF_NUMVF = v.toNat ∧
      t.dev.host.out = s.dev.host.out ++ [.cpl 0 []] ∧ FrameBut s t [] [pciPage]) ∧
  (∀ (s : State) (v : Word), endpointUp s → s.work.ready = true →
    ∃ t, exec (.pcieConfigRequest 0 .numVf false v) s = .next t ∧
      t.dev.host.out = s.dev.host.out ++ [.cpl 0 (natLE 4 (s.work.get pciPage R.PCI_NUMVF_NUMVF))] ∧ FrameBut s t [] []) ∧
  (∀ (s : State) (a : Nat) (data : List Byte), s.work.linked = true → s.work.ready = true → s.work.fatal = false →
    s.work.t1Populated a data.length = true → s.work.zeroingIn a data.length = false → s.work.poisoned a data.length = false →
    ∃ t, exec (.bar4Access 0 a false data) s = .next t ∧ t.dev.host.out = s.dev.host.out ++ [.cpl 0 (s.work.rdN a data.length)] ∧ ReadFrame s t [] []) ∧
  (∀ (s : State) (a : Nat) (data : List Byte), s.work.linked = true → s.work.ready = true → s.work.fatal = false →
    s.work.t1Populated a data.length = true → s.work.zeroingIn a data.length = false →
    ∃ t, exec (.bar4Access 0 a true data) s = .next t ∧ (∀ j, j < data.length → t.work.rd (a + j) = data.getD j 0) ∧
      SameDataBut s t a data.length ∧ SamePagesBut s t [] ∧ SameContexts s t ∧ SameOutside s t) ∧
  (∀ (s : State) (speed width : Nat) (flit : Bool), s.dev.host.perst = false → bit (s.work.get (pwrPage 16) R.PWR_DOMAINS_DON) 26 = true →
    ∃ t, exec (.pcieLinkUp speed width flit) s = .next t ∧ t.dev.host.link = true ∧ t.work.get pciPage R.PCI_STS_LINKUP = 1 ∧
      t.work.get pciPage R.PCI_STS_SPEED = speed % 8 ∧ t.work.get pciPage R.PCI_STS_WIDTH = width % 32 ∧
      t.work.get pciPage R.PCI_STS_FLIT = (if flit then 1 else 0) ∧ FrameBut s t [] [pciPage]) ∧
  (∀ (s : State), s.dev.host.link = true → s.work.ready = true → s.dev.tiers.reads = [] →
    ∃ t, exec .pcieLinkDown s = .next t ∧ t.dev.host.link = false ∧ t.work.get pciPage R.PCI_STS_LINKUP = 0 ∧ t.hasEvent pciPage 16 ∧
      FrameBut s t [] [pciPage]) ∧
  (∀ (s : State), s.dev.tiers.reads = [] →
    ∃ t, exec .refclkLoss s = .next t ∧ t.dev.time.refclk = false ∧ t.dev.host.link = false ∧
      (∀ n, n < 8 → t.work.lstate n = if s.work.lstate n = 2 then 3 else s.work.lstate n) ∧ SameMemory s t ∧ SameOutside s t) ∧
  (∀ (s : State), s.dev.tiers.reads = [] →
    ∃ t, exec .perstAssert s = .next t ∧ t.dev.host.perst = true ∧ t.dev.host.link = false ∧ t.work.get pciPage R.PCI_NUMVF_NUMVF = 0 ∧
      t.dev.host.msixEn = [] ∧ FrameBut s t [] [pciPage]) ∧
  (∀ (s : State), s.dev.host.perst = true →
    ∃ t, exec .perstRelease s = .next t ∧ t.dev.host = { s.dev.host with perst := false, perstAt := s.now.toNat + 100000000 } ∧ FrameBut s t [] []) ∧
  (∀ (s : State), s.work.ready = true → SMap.wf {} s.dev.ctxs = true →
    ∃ t, exec .pfFlr s = .next t ∧ (∀ p, p < 64 → t.work.winOn p = false) ∧
      (∀ i, i < 128 → t.work.get (xltPage 0) (R.XLT_T3MAP_LO_VALID.i i) = 0) ∧ t.dev.spw.running = false ∧
      (∀ c, (s.work.ctx c).state ≠ .none → (s.work.ctx c).part < 64 → (t.work.ctx c).state = .ending) ∧ SameOutside s t)

/-- The boot ROM is about to end: PORSTn and WRSTn are released. -/
def romRuns (s : State) : Prop := s.dev.pwr.porst = false ∧ s.dev.pwr.wrst = false ∧ bit s.dev.pwr.startup 0 = true ∧ bit s.dev.pwr.startup 2 = false

/-- The image that KMC_STAGE names, as the staging finds it. -/
def imageAt (s : State) (q : Issue) : Bool × Nat × Nat := s.work.imageFound (Config.imageOf (s.work.rdN (s.arg64 q.page 0) (s.arg q.page 2 * 1024)))

/-- Boot: a slot that verifies and is not rolled back boots and brings the hubs up; with none the core waits for an image. KMC_STAGE and a sideband update stage an image in the
slot not booted; the standby takes over a core whose heartbeat is lost (R400–R403). -/
def Piece.ManagementCores : Prop :=
  (∀ (s : State) (numA numB verA verB : Nat) (okB : Bool), romRuns s → s.nv.staged = 0 → s.nv.prefB = false → s.nv.fused ≤ numA % 2 ^ 16 →
    ∃ t, exec (.kmcBootDone true okB numA numB verA verB) s = .next t ∧ t.nv.slotA = (true, numA % 2 ^ 16, verA) ∧ t.nv.fused = s.nv.fused ∧
      t.work.get (kmcPage false) R.KMC_STS_BOOT = 1 ∧ t.work.get (kmcPage false) R.KMC_STS_SLOT = 0 ∧
      t.work.get (kmcPage false) R.KMC_FWVER_FWVER = verA % 2 ^ 32 ∧ (t.work.page pciPage).state = .idle ∧
      t.dev.pwr.bringUp = (List.range 16).map (fun d => (d, 1)) ∧ bit t.dev.pwr.startup 2 = true ∧
      (∀ d, d < 16 → t.work.dieOn d = true) ∧ SameMemory s t ∧ t.now = s.now ∧ t.pending = s.pending) ∧
  (∀ (s : State) (numA numB verA verB : Nat), romRuns s →
    ∃ t, exec (.kmcBootDone false false numA numB verA verB) s = .next t ∧ t.work.get (kmcPage false) R.KMC_STS_BOOT = 2 ∧
      (t.work.page (kmcPage false)).state = .idle ∧ t.nv.fused = s.nv.fused ∧ t.dev.pwr.bringUp = s.dev.pwr.bringUp ∧ SameMemory s t) ∧
  (∀ (s : State) (q : Issue), s.legal q kmcStageSpec → s.connected → s.work.get q.page R.KMC_STS_ACTING = 1 →
    s.work.get q.page R.KMC_STS_BOOT = 1 → 1 ≤ s.arg q.page 2 → s.arg q.page 2 ≤ 32768 →
    s.work.t1Populated (s.arg64 q.page 0) (s.arg q.page 2 * 1024) = true → s.work.boundArea (s.arg64 q.page 0) (s.arg q.page 2 * 1024) = false →
    s.work.poisoned (s.arg64 q.page 0) (s.arg q.page 2 * 1024) = false → (s.work.request 9 0 (q.page + 1)).1 = true →
    ∃ t, exec (.kmcStage q) s = .next t ∧ t.showsAccepted q.page 0x10 (some (if (imageAt s q).1 then .done else .fault)) ∧ t.dev.kmc.found = imageAt s q ∧
      SamePagesBut s t [q.page] ∧ SameContexts s t ∧ SameData s t ∧ SameOutside s t) ∧
  (∀ (s : State) (num ver : Nat), bit s.dev.pwr.startup 2 = true → (s.work.request 9 0 0).1 = true → s.nv.fused ≤ num % 2 ^ 16 →
    s.work.get (kmcPage false) R.KMC_STS_SLOT = 0 →
    ∃ t, exec (.pldmFwUpdate true num ver) s = .next t ∧ t.nv = { s.nv with slotB := (true, num % 2 ^ 16, ver), staged := 2 } ∧
      t.work.get (kmcPage false) R.KMC_STS_STAGED = 1 ∧ OutMsg.sideband 5 [] ∈ t.dev.host.out ∧ SameMemory s t ∧ t.now = s.now ∧ t.pending = s.pending) ∧
  (∀ (s : State), s.work.live (kmcPage true) = true → s.work.get (kmcPage true) R.KMC_STS_BOOT = 1 →
    s.work.get (kmcPage true) R.KMC_STS_ACTING = 0 → (s.work.page (kmcPage false)).outst.isSome = true →
    ∃ t, exec .kmcHeartbeatTimeout s = .next t ∧ t.work.get (kmcPage true) R.KMC_STS_ACTING = 1 ∧ t.work.get (kmcPage false) R.KMC_STS_ACTING = 0 ∧
      t.published (kmcPage false) .fault ∧ t.hasEvent (kmcPage false) 16 ∧ t.hasEvent (kmcPage true) 16 ∧ SameMemory s t ∧ SameOutside s t)

/-- The sideband's address and answers, the sensors, the regulators' readbacks and failures (R403, R404, R414). -/
def Piece.Sideband : Prop :=
  (∀ (s : State) (a : Nat), s.dev.pwr.porst = false → ∃ t, exec (.i3cEntdaa a) s = .next t ∧ t.dev.host = { s.dev.host with i3cAddr := a % 128 } ∧
    FrameBut s t [] []) ∧
  (∀ (s : State) (cmd : Nat), s.work.get (kmcPage false) R.KMC_STS_BOOT = 1 → ∃ t, exec (.pldmRequest 2 cmd) s = .next t ∧
    t.dev.host.out = s.dev.host.out ++ [.sideband 2 (s.dev.host.sensors.flatMap fun e => [e.1, e.2])] ∧ FrameBut s t [] []) ∧
  (∀ (s : State), s.work.get (kmcPage false) R.KMC_STS_BOOT = 1 → ∃ t, exec .sensorRefresh s = .next t ∧
    (∀ d, d < 16 → SMap.at 0 t.dev.host.sensors d = s.work.get (rtmPage d) R.RTM_TEMP_TEMP) ∧
    SMap.at 0 t.dev.host.sensors 128 = s.work.get (pwrPage 16) R.PWR_PKG_PKGW ∧ FrameBut s t [] []) ∧
  (∀ (s : State) (h d mv ma : Nat), h < 4 → s.work.domainOn (16 + h) = true → avsReads h d = true → s.work.domainOn d = true →
    ∃ t, exec (.avsReadback h [(d, mv, ma)]) s = .next t ∧ SMap.at 0 t.dev.pwr.power d = mv * ma ∧
      (d < 20 → t.work.get (pwrPage d) R.PWR_POWER_POWER = min 65535 (mv * ma / 100000)) ∧
      t.work.get (pwrPage 16) R.PWR_PKG_PKGW = min 8191 t.work.pkgPower ∧ FrameBut s t [] [pwrPage d, pwrPage 16]) ∧
  (∀ (s : State) (d : Nat), d < 16 → s.work.dieOn d = true → ∃ t, exec (.avsTimeout d) s = .next t ∧ SMap.at false t.dev.pwr.frozenRail d = true ∧
    t.hasEvent (pwrPage d) 18 ∧ FrameBut s t [] [])

/-- The management cores, the sideband and the regulators. -/
def Obligations.ManagementAndSideband : Prop := Piece.ManagementCores ∧ Piece.Sideband

/-! ### Resets and start-up (chapter 24), pins (chapter 25) -/

/-- Tier 2 as its addresses lie, and its byte a. -/
def inTier2 (a : Nat) : Prop := t2Base ≤ a ∧ a < t2End

/-- A power-on reset leaves fuses, flash and what the host holds; a warm reset leaves the timebase, the registers of PD27 and, with KEEPT2, tier 2. With PORSTn released the
timebase counts from zero and PD27, PD16 and PD26 are on; WRSTn released shows CAUSE 1 (R410, R417, R418). -/
def Piece.Resets : Prop :=
  (∀ (s : State), ∃ t, exec .powerOnReset s = .next t ∧ t.dev = { free := s.dev.free, host := { out := s.dev.host.out } } ∧ t.shadow = none ∧
    (∀ a, a < 2 ^ 64 → t.mem.byte a = 0) ∧ (∀ a, 2 ^ 64 ≤ a → a < 2 ^ 80 → t.mem.byte a = s.mem.byte a) ∧ SameOutside s t) ∧
  (∀ (s : State), s.dev.pwr.porst = true →
    ∃ t, exec .porRelease s = .next t ∧ t.now = 0 ∧ t.dev.time.counting = true ∧ t.dev.pwr = { s.dev.pwr with porst := false, startup := 1 } ∧
      (∀ d, d ∈ [16, 26, 27] → t.work.dieOn d = true) ∧ (∀ d, d < 28 → d ∉ [16, 26, 27] → t.work.dieOn d = s.work.dieOn d) ∧
      SamePagesBut s t [] ∧ SameMemory s t ∧ t.nv = s.nv ∧ t.pending = s.pending) ∧
  (∀ (s : State), s.dev.pwr.porst = false →
    ∃ t, exec .warmReset s = .next t ∧ t.dev.pwr.wrst = true ∧ t.dev.pwr.startup = 0 ∧ t.dev.ctxs = [] ∧ t.dev.pages = [] ∧ t.shadow = none ∧
      t.dev.time = s.dev.time ∧ (∀ n, n < 1024 → t.work.reg tmb n = s.work.reg tmb n) ∧ (∀ n, n < 1024 → t.work.reg (snpPage 16) n = s.work.reg (snpPage 16) n) ∧
      t.work.reg (pwrPage 16) 0x56 = s.work.reg (pwrPage 16) 0x56 ∧ (∀ g, g < 8 → t.work.reg (pwrPage 16) (0x60 + g) = s.work.reg (pwrPage 16) (0x60 + g)) ∧
      (∀ d, d < 28 → t.work.dieOn d = decide (d = 27)) ∧
      (s.work.get (pwrPage 16) R.PWR_CTL_KEEPT2 = 1 → ∀ a, inTier2 a → t.mem.byte a = s.mem.byte a) ∧
      (∀ a, a < 2 ^ 64 → s.work.get (pwrPage 16) R.PWR_CTL_KEEPT2 = 0 ∨ ¬ inTier2 a → t.mem.byte a = 0) ∧
      (∀ a, 2 ^ 64 ≤ a → a < 2 ^ 80 → t.mem.byte a = s.mem.byte a) ∧ SameOutside s t) ∧
  (∀ (s : State), s.dev.pwr.wrst = true →
    ∃ t, exec .warmResetRelease s = .next t ∧ t.dev.pwr = { s.dev.pwr with wrst := false, startup := 1 } ∧
      (∀ d, d ∈ [16, 26, 27] → t.work.dieOn d = true) ∧ t.work.get (pwrPage 16) R.PWR_RSTCAUSE_CAUSE = 1 ∧ SamePagesBut s t [] ∧ SameMemory s t ∧
      SameOutside s t)

/-- A compute die that start-up brings up is IDLE, or FENCED if it fails; HBM and bulk training end, each stack and the channels of the set trained; and with all of it done
the endpoint shows READY (R148–R150, R397, R410, R411). -/
def Piece.StartUp : Prop :=
  (∀ (s : State) (d : Nat), d < 16 → SMap.at 0 s.dev.pwr.bringUp d = 1 →
    ∃ t, exec (.computeDieReady d true) s = .next t ∧ (∀ i, i < 0x255 → typeOf (pg d i) ≠ 0 → (t.work.page (pg d i)).state = .idle) ∧
      t.work.get (pwrPage d) R.PWR_STS_ON = 1 ∧ t.work.dieOn d = true ∧ SMap.at 0 t.dev.pwr.bringUp d = 0 ∧ SameOutside s t) ∧
  (∀ (s : State) (d : Nat), d < 16 → SMap.at 0 s.dev.pwr.bringUp d = 1 → s.work.fenced d = false →
    ∃ t, exec (.computeDieReady d false) s = .next t ∧ t.work.fenced d = true ∧
      (∀ i, i < 0x255 → typeOf (pg d i) ≠ 0 → (t.work.page (pg d i)).state = .fenced) ∧ t.work.get (pwrPage 16) R.PWR_RSTCAUSE_SUFAIL = 1 ∧
      SMap.at 0 t.dev.pwr.bringUp d = 0 ∧ SameOutside s t) ∧
  (∀ (s : State), bit s.dev.pwr.startup 2 = true → bit s.dev.pwr.startup 8 = false → s.work.get (kmcPage false) R.KMC_STS_BOOT = 1 →
    ∃ t, exec (.hbmTrainingEnd []) s = .next t ∧ bit t.dev.pwr.startup 8 = true ∧ t.work.dieOn 24 = true ∧
      (∀ n, n < 20 → (t.work.page (stackPage n)).state = .idle ∧ t.work.get (stackPage n) R.MEM_STS_CHSTATE = 1 ∧
        t.work.get (stackPage n) R.MEM_STS_CAPG = 48 ∧ t.work.get (stackPage n) R.MEM_STS_INSET = 1) ∧ SameMemory s t ∧ SameOutside s t) ∧
  (∀ (s : State) (n : Nat), n < 20 → bit s.dev.pwr.startup 2 = true → bit s.dev.pwr.startup 8 = false →
    s.work.get (kmcPage false) R.KMC_STS_BOOT = 1 →
    ∃ t, exec (.hbmTrainingEnd [n]) s = .next t ∧ bit t.dev.pwr.startup 8 = true ∧ (t.work.page (stackPage n)).state = .fenced ∧
      t.work.get (stackPage n) R.MEM_STS_CHSTATE = 2 ∧ t.work.get (pwrPage 16) R.PWR_RSTCAUSE_SUFAIL = 1 ∧
      (∀ m, m < 20 → m ≠ n → t.work.get (stackPage m) R.MEM_STS_INSET = if m / 5 = n / 5 then 0 else 1) ∧ SameMemory s t ∧ SameOutside s t) ∧
  (∀ (s : State) (caps : List Nat), bit s.dev.pwr.startup 8 = true → bit s.dev.pwr.startup 11 = false →
    ∃ t, exec (.bulkTrainingEnd caps) s = .next t ∧ bit t.dev.pwr.startup 11 = true ∧
      (∀ ch, ch < 16 → t.work.get (chanPage ch) R.MEM_STS_SETCODE = chooseSet caps ∧ (t.work.page (chanPage ch)).state = .idle ∧
        (ch ∈ setChans (chooseSet caps) → t.work.get (chanPage ch) R.MEM_STS_CHSTATE = 1 ∧ t.work.get (chanPage ch) R.MEM_STS_INSET = 1 ∧
          t.work.get (chanPage ch) R.MEM_STS_CAPG = caps.getD ch 0)) ∧ SameMemory s t ∧ SameOutside s t) ∧
  (∀ (s : State), s.work.ready = false → s.work.fatal = false → bit s.dev.pwr.startup 11 = true → s.dev.pwr.bringUp = [] →
    ∃ t, exec .deviceReady s = .next t ∧ t.work.ready = true ∧ t.dev.host.out = s.dev.host.out ++ [.drs] ∧ FrameBut s t [] [pciPage])

/-- No block of a die is bound. -/
def dieUnbound (s : State) (d : Nat) : Prop := ∀ e ∈ dieRes d, ∀ i ∈ e.2, s.work.owner e.1 i = none

/-- The die's command is accepted and brings it up: its blocks come up at COMPUTE_DIE_READY. -/
def bringsUp (t : State) (p code d : Nat) : Prop :=
  t.showsAccepted p code none ∧ t.work.dieOn d = decide (code = 0x21) ∧ SMap.at 0 t.dev.pwr.bringUp d = p + 1 ∧ t.work.runs 7 d = true

/-- The die that PWR_DOMAIN or PWR_DIERESET names. -/
def askedDie (s : State) (q : Issue) : Nat := s.arg q.page 0 % 32

/-- A cool die whose rail may move, with a request above 600 mV that no other die's exceeds; and what the cap lowers it to. -/
def highest (s : State) (d : Nat) : Prop :=
  d < 16 ∧ s.work.dieOn d = true ∧ SMap.at 0 s.dev.pwr.bringUp d = 0 ∧ SMap.at false s.dev.pwr.frozenRail d = false ∧
    toSigned 12 (s.work.get (rtmPage d) R.RTM_TEMP_TEMP) < 400 ∧ 600 < s.work.get (pwrPage d) R.PWR_STS_VREQ ∧
    ∀ e, e < 16 → s.work.dieOn e = true → s.work.get (pwrPage e) R.PWR_STS_VREQ ≤ s.work.get (pwrPage d) R.PWR_STS_VREQ
def loweredTo (s : State) (d : Nat) : Nat :=
  min (s.work.get (pwrPage d) R.PWR_VSET_VSET) (max 600 (s.work.get (pwrPage d) R.PWR_STS_VREQ - 10))

/-- PWR_DOMAIN and PWR_DIERESET: a die without bindings is switched off at once, its blocks OFF; one switched on or reset comes up once calibration is admitted
(R413, R419). Above LIMIT the die with the highest request goes down by 10 mV, never below 600 mV; a settled rail moves the floor's
voltage (R21, R414–R416). -/
def Piece.PowerCommands : Prop :=
  (∀ (s : State) (q : Issue), s.legal q pwrDomainSpec → s.arg q.page 0 < 16 → s.work.dieOn (askedDie s q) = true →
    s.work.dieAll (askedDie s q) [.off, .idle, .fenced] = true → dieUnbound s (askedDie s q) →
    ∃ t, exec (.pwrDomain q) s = .next t ∧ t.showsAccepted q.page 0x21 (some .done) ∧ t.work.dieOn (askedDie s q) = false ∧ t.work.get (pwrPage (askedDie s q)) R.PWR_STS_ON = 0 ∧
      (∀ i, i < 0x255 → typeOf (pg (askedDie s q) i) ≠ 0 → (t.work.page (pg (askedDie s q) i)).state = .off) ∧ SameContexts s t ∧ SameOutside s t) ∧
  (∀ (s : State) (q : Issue), s.legal q pwrDomainSpec → s.arg q.page 0 = askedDie s q + 256 → askedDie s q < 16 → s.work.dieOn (askedDie s q) = false →
    (s.work.request 7 (askedDie s q) (q.page + 1)).1 = true →
    ∃ t, exec (.pwrDomain q) s = .next t ∧ bringsUp t q.page 0x21 (askedDie s q) ∧ SamePagesBut s t [q.page] ∧ SameContexts s t ∧ SameMemory s t ∧ SameOutside s t) ∧
  (∀ (s : State) (q : Issue), s.legal q pwrDomainSpec → s.arg q.page 0 < 16 → s.work.dieAll (askedDie s q) [.off, .idle, .fenced] = false →
    ∃ t, exec (.pwrDomain q) s = .next t ∧ t.showsRefused q.page .busy ∧ FrameBut s t [q.page] []) ∧
  (∀ (s : State) (q : Issue), s.legal q pwrDieresetSpec → askedDie s q / 4 = dieOf q.page - 16 → s.work.dieAll (askedDie s q) [.fenced, .idle] = true →
    (s.work.request 7 (askedDie s q) (q.page + 1)).1 = true →
    ∃ t, exec (.pwrDiereset q) s = .next t ∧ bringsUp t q.page 0x22 (askedDie s q) ∧ t.work.fenced (askedDie s q) = false ∧ SameContexts s t ∧ SameOutside s t) ∧
  (∀ (s : State), s.work.live (pwrPage 16) = true → (s.work.page (pwrPage 16)).state ≠ .off →
    ∃ t, exec .capPeriod s = .next t ∧ SamePagesBut s t [] ∧ SameContexts s t ∧ SameMemory s t ∧ SameOutside s t ∧
      ∀ d, s.work.get (pwrPage 16) R.PWR_PKG_LIMIT < s.work.pkgPower → highest s d →
        t.work.get (pwrPage d) R.PWR_STS_VREQ = loweredTo s d ∧ t.work.ctr (pwrPage d) 0 = s.work.ctr (pwrPage d) 0 + 1) ∧
  (∀ (s : State) (d mv : Nat), d < 16 → s.work.dieOn d = true → mv ≤ s.work.get (pwrPage d) R.PWR_STS_VREQ → s.work.settledMv d < mv →
    ∃ t, exec (.railSettled d mv) s = .next t ∧ t.work.settledMv d = mv ∧ SamePagesBut s t [] ∧ SameContexts s t ∧ SameMemory s t ∧ SameOutside s t)

/-- PWR_IOCFG stores what its group allows; an input takes a level held as long as its filter passes, and ignores one held less than it rejects (R28, R427). -/
def Piece.Pins : Prop :=
  (∀ (s : State) (by_ : Caller) (g : Nat) (v : Word), g < 8 → s.reaches by_ (pwrPage 16) →
    ∃ t, exec (.pwrIocfgWrite by_ (pwrPage 16 * 4096 + 0x180 + 4 * g) v) s = .next t ∧
      t.work.reg (pwrPage 16) (0x60 + g) = BitVec.ofNat 32 (iocfgValue g v.toNat) ∧
      (∀ n, n < 1024 → n ≠ 0x60 + g → t.work.reg (pwrPage 16) n = s.work.reg (pwrPage 16) n) ∧ FrameBut s t [] [pwrPage 16]) ∧
  (∀ (s : State) (pin held : Nat) (level : Bool), pin < 5 → (filterNs (s.work.get (pwrPage 16) (R.PWR_IOCFG_FILT.i pin))).2 ≤ held →
    ∃ t, exec (.pinInputEdge pin held level) s = .next t ∧ SMap.at false t.dev.pwr.pinLevel pin = level ∧ FrameBut s t [] []) ∧
  (∀ (s : State) (pin held : Nat) (level : Bool), held < (filterNs (s.work.get (pwrPage 16) (R.PWR_IOCFG_FILT.i pin))).1 →
    exec (.pinInputEdge pin held level) s = .next s)

/-- Resets and start-up. -/
def Obligations.ResetsAndStartUp : Prop := Piece.Resets ∧ Piece.StartUp

/-- Compute domains, the power cap and pins. -/
def Obligations.PowerAndPins : Prop := Piece.PowerCommands ∧ Piece.Pins

/-! ### Rules stated whole -/

/-- The counters of a link that its access itself may count, those of transfers (R14). -/
def onTheWay (p n : Nat) : Bool := typeOf p == 7 && decide (n < 2)

/-- R40. NOP answers DONE in any state but OFF, CLR_COUNTERS clears the counters of ARG0[7:0] in IDLE, BOUND and QUIESCED and answers STATE elsewhere, and any other code from
0xF0 on is UNKNOWN. -/
def Obligations.CommonCommandCodes : Prop :=
  (∀ (s : State) (q : Issue), s.reaches q.caller q.page → typeOf q.page ∈ allTypes → q.hi = 0 → s.work.mayIssue q.caller q.page = true →
    (s.work.page q.page).state ≠ .off → s.work.kmcGone q.page = false → (s.work.page q.page).outst = none →
    ∃ t, exec (.cmdNop q) s = .next t ∧ t.showsDone q.page ∧ FrameBut s t [q.page] []) ∧
  (∀ (s : State) (q : Issue), s.reaches q.caller q.page → typeOf q.page ∈ allTypes → q.hi = 0 → s.arg q.page 0 < 256 →
    s.work.mayIssue q.caller q.page = true → s.work.kmcGone q.page = false → (s.work.page q.page).outst = none →
    ∃ t, exec (.clrCounters q) s = .next t ∧
      (if (s.work.page q.page).state ∈ [.idle, .bound, .quiesced] then
        t.showsDone q.page ∧ ∀ n, n < 8 → (bit (s.arg q.page 0) n = true → t.work.ctr q.page n = 0#64) ∧
          (bit (s.arg q.page 0) n = false → onTheWay q.page n = false → t.work.ctr q.page n = s.work.ctr q.page n)
      else t.showsRefused q.page .state ∧ ∀ n, n < 8 → q.page ≠ snpPage 16 → onTheWay q.page n = false → t.work.ctr q.page n = s.work.ctr q.page n) ∧ FrameBut s t [q.page] [q.page]) ∧
  (∀ (s : State) (by_ : Caller) (p : Nat) (v : Word), s.reaches by_ p → 0xF2 ≤ v.toNat % 256 → (s.work.page p).outst = none →
    ∃ t, exec (.registerWrite by_ (p * 4096 + 0x100) v) s = .next t ∧ t.showsRefused p .unknown ∧ FrameBut s t [p] [])

/-- R405. IDCODE reads 0x2D20433B; BYPASS, IDCODE and SAMPLE are accepted always; EXTEST, EXTEST_PULSE, EXTEST_TRAIN and PRELOAD take effect only while PORSTn is asserted and act
as BYPASS otherwise. (What BYPASS and SAMPLE capture is the model's, log entry 100.) -/
def Obligations.TestPort : Prop :=
  (∀ (s : State), ∃ t, exec .tapBypass s = .next t ∧ t.dev.host.tapIr = 0 ∧ FrameBut s t [] []) ∧
  (∀ (s : State), ∃ t, exec .tapIdcode s = .next t ∧ t.dev.host = { s.dev.host with tapIr := 1, tapDr := 0x2D20433B#32 } ∧ FrameBut s t [] []) ∧
  (∀ (s : State), ∃ t, exec .tapSample s = .next t ∧ t.dev.host.tapIr = 2 ∧ FrameBut s t [] []) ∧
  (∀ (s : State), s.dev.pwr.porst = true → ∃ t, exec .tapExtest s = .next t ∧ t.dev.host.tapIr = 3 ∧ FrameBut s t [] []) ∧
  (∀ (s : State), s.dev.pwr.porst = true → ∃ t, exec .tapExtestPulse s = .next t ∧ t.dev.host.tapIr = 4 ∧ FrameBut s t [] []) ∧
  (∀ (s : State), s.dev.pwr.porst = true → ∃ t, exec .tapExtestTrain s = .next t ∧ t.dev.host.tapIr = 5 ∧ FrameBut s t [] []) ∧
  (∀ (s : State), s.dev.pwr.porst = true → ∃ t, exec .tapPreload s = .next t ∧ t.dev.host.tapIr = 6 ∧ FrameBut s t [] []) ∧
  (∀ (s : State), s.dev.pwr.porst = false →
    exec .tapExtest s = exec .tapBypass s ∧ exec .tapExtestPulse s = exec .tapBypass s ∧ exec .tapExtestTrain s = exec .tapBypass s ∧
      exec .tapPreload s = exec .tapBypass s)

/-- R415. PWR_SETLIMIT takes a limit of 2000 to 5000 W from the physical function or the KMC, refuses another value with SHAPE and another caller with OWNER, changing nothing; the
next period of the cap goes by it; LIMIT is 5000 after a power-on and a warm reset. -/
def Obligations.PowerLimit : Prop :=
  (∀ (s : State) (q : Issue), s.legal q pwrSetlimitSpec → 2000 ≤ s.arg q.page 0 → s.arg q.page 0 ≤ 5000 →
    ∃ t, exec (.pwrSetlimit q) s = .next t ∧ t.showsDone q.page ∧ t.work.get (pwrPage 16) R.PWR_PKG_LIMIT = s.arg q.page 0 ∧
      FrameBut s t [q.page] [pwrPage 16]) ∧
  (∀ (s : State) (q : Issue), s.legal q pwrSetlimitSpec → s.arg q.page 0 < 2000 ∨ 5000 < s.arg q.page 0 →
    ∃ t, exec (.pwrSetlimit q) s = .next t ∧ t.showsRefused q.page .shape ∧ t.hasEvent q.page 3 ∧ FrameBut s t [q.page] []) ∧
  (∀ (s : State) (q : Issue), s.reaches q.caller q.page → q.page = pwrPage 16 → q.hi = 0 → s.arg q.page 0 < 2 ^ 13 → privileged q.caller = false →
    ∃ t, exec (.pwrSetlimit q) s = .next t ∧ bits (t.work.page q.page).cmdSts.toNat 7 0 = Status.owner.code ∧ FrameBut s t [q.page] []) ∧
  (∀ (s : State) (q : Issue), s.legal q pwrSetlimitSpec → 2000 ≤ s.arg q.page 0 → s.arg q.page 0 ≤ 5000 →
    ∃ t u, exec (.pwrSetlimit q) s = .next t ∧ exec .capPeriod t = .next u ∧
      ∀ d, s.arg q.page 0 < s.work.pkgPower → highest s d → u.work.get (pwrPage d) R.PWR_STS_VREQ = loweredTo s d) ∧
  (∀ s : State, ∃ t, exec .powerOnReset s = .next t ∧ t.work.get (pwrPage 16) R.PWR_PKG_LIMIT = 5000) ∧
  (∀ s : State, s.dev.pwr.porst = false → ∃ t, exec .warmReset s = .next t ∧ t.work.get (pwrPage 16) R.PWR_PKG_LIMIT = 5000)

/-- R145. The stack and stack offset of a tier-1 address; consecutive 512-byte units rotate over the five stacks of their quadrant; no two addresses share a place, and every
place of the 20 stacks of 48 GiB has its address. -/
def Obligations.TierOneInterleave : Prop :=
  (∀ a, a < t1Size → stackOf a = 5 * (a / (240 * gib)) + (a - a / (240 * gib) * (240 * gib)) / 512 % 5 ∧
    stackOffset a = (a - a / (240 * gib) * (240 * gib)) / 512 / 5 * 512 + a % 512 ∧ stackOf a < 20 ∧ stackOffset a < 48 * gib) ∧
  (∀ a, (a + 512) / (240 * gib) = a / (240 * gib) → stackOf (a + 512) = 5 * (stackOf a / 5) + (stackOf a + 1) % 5) ∧
  (∀ a b, stackOf a = stackOf b → stackOffset a = stackOffset b → a = b) ∧
  (∀ n o, n < 20 → o < 48 * gib → ∃ a, a < t1Size ∧ stackOf a = n ∧ stackOffset a = o)
end

