-- ==== Sys2Proof/Laws/Maps.lean ====
section
/-!
SUPPORT. Maps.lean: the laws of sparse tables and of the byte memory: read after write, and the canonical form.
-/
namespace Sys2Proof.Machine

/-! ### Read after write -/

theorem SMap.at_drop_same {β : Type} (d : β) (m : SMap β) (i : Nat) : SMap.at d (SMap.drop m i) i = d := by
  induction m with
  | nil => rfl
  | cons e m ih =>
    by_cases h : e.1 = i
    · simpa [SMap.drop, List.filter_cons, h] using ih
    · have h' : i ≠ e.1 := fun x => h x.symm
      simpa [SMap.drop, List.filter_cons, h, SMap.at, h'] using ih

theorem SMap.at_drop_other {β : Type} (d : β) (m : SMap β) {i j : Nat} (h : j ≠ i) : SMap.at d (SMap.drop m i) j = SMap.at d m j := by
  induction m with
  | nil => rfl
  | cons e m ih =>
    by_cases hi : e.1 = i
    · have hj : j ≠ e.1 := fun x => h (x.trans hi)
      have : SMap.at d (e :: m) j = SMap.at d m j := by simp [SMap.at, hj]
      rw [this, ← ih]
      simp [SMap.drop, hi]
    · by_cases hj : j = e.1
      · simp [SMap.drop, hi, SMap.at, hj]
      · simpa [SMap.drop, List.filter_cons, hi, SMap.at, hj] using ih

theorem SMap.at_ins_same {β : Type} (d : β) (m : SMap β) (i : Nat) (x : β) : SMap.at d (SMap.ins m i x) i = x := by
  induction m with
  | nil => simp [SMap.ins, SMap.at]
  | cons e m ih =>
    simp only [SMap.ins]
    split
    · simp [SMap.at]
    · split
      · simp [SMap.at]
      · rename_i h _
        simpa [SMap.at, h] using ih

theorem SMap.at_ins_other {β : Type} (d : β) (m : SMap β) {i j : Nat} (x : β) (h : j ≠ i) :
    SMap.at d (SMap.ins m i x) j = SMap.at d m j := by
  induction m with
  | nil => simp [SMap.ins, SMap.at, h]
  | cons e m ih =>
    simp only [SMap.ins]
    split
    · rename_i he
      have hj : j ≠ e.1 := fun y => h (y.trans he.symm)
      simp [SMap.at, h, hj]
    · split
      · simp [SMap.at, h]
      · by_cases hj : j = e.1
        · simp [SMap.at, hj]
        · simpa [SMap.at, hj] using ih

/-- A key set reads as it was set. -/
@[simp] theorem SMap.at_put_same {β : Type} [DecidableEq β] (d : β) (m : SMap β) (i : Nat) (x : β) : SMap.at d (SMap.put d m i x) i = x := by
  unfold SMap.put
  split
  · rename_i h; rw [SMap.at_drop_same, h]
  · exact SMap.at_ins_same d m i x

/-- Another key reads as before. -/
theorem SMap.at_put_other {β : Type} [DecidableEq β] (d : β) (m : SMap β) {i j : Nat} (x : β) (h : j ≠ i) :
    SMap.at d (SMap.put d m i x) j = SMap.at d m j := by
  unfold SMap.put
  split
  · exact SMap.at_drop_other d m h
  · exact SMap.at_ins_other d m x h

/-- The value at a key that has been changed. -/
@[simp] theorem SMap.at_mod_same {β : Type} [DecidableEq β] (d : β) (m : SMap β) (i : Nat) (f : β → β) :
    SMap.at d (SMap.mod d m i f) i = f (SMap.at d m i) := SMap.at_put_same ..

theorem SMap.at_mod_other {β : Type} [DecidableEq β] (d : β) (m : SMap β) {i j : Nat} (f : β → β) (h : j ≠ i) :
    SMap.at d (SMap.mod d m i f) j = SMap.at d m j := SMap.at_put_other _ _ _ h

/-- A table read by `lookup` with a default is the table read by `at`. -/
theorem SMap.lookup_at {β : Type} (d : β) (m : SMap β) (i : Nat) : (m.lookup i).getD d = SMap.at d m i := by
  induction m with
  | nil => rfl
  | cons e m ih =>
    obtain ⟨k, v⟩ := e
    by_cases h : i = k
    · subst h; simp [List.lookup, SMap.at]
    · have : (i == k) = false := by simpa using h
      simpa [List.lookup, this, SMap.at, h] using ih

/-! ### The canonical form -/

theorem SMap.wfFrom_mono {β : Type} [DecidableEq β] (d : β) (m : SMap β) {a b : Nat} (h : a ≤ b) (hw : SMap.wfFrom d b m = true) :
    SMap.wfFrom d a m = true := by
  cases m with
  | nil => rfl
  | cons e m =>
    obtain ⟨k, v⟩ := e
    simp only [SMap.wfFrom, Bool.and_eq_true, decide_eq_true_eq] at hw ⊢
    exact ⟨⟨Nat.le_trans h hw.1.1, hw.1.2⟩, hw.2⟩

theorem SMap.wfFrom_drop {β : Type} [DecidableEq β] (d : β) (m : SMap β) (i : Nat) :
    ∀ lo, SMap.wfFrom d lo m = true → SMap.wfFrom d lo (SMap.drop m i) = true := by
  induction m with
  | nil => intro lo _; rfl
  | cons e m ih =>
    obtain ⟨k, v⟩ := e
    intro lo h
    simp only [SMap.wfFrom, Bool.and_eq_true, decide_eq_true_eq] at h
    by_cases hk : k = i
    · have : SMap.drop ((k, v) :: m) i = SMap.drop m i := by simp [SMap.drop, hk]
      rw [this]
      exact SMap.wfFrom_mono d _ (Nat.le_succ_of_le h.1.1) (ih _ h.2)
    · have : SMap.drop ((k, v) :: m) i = (k, v) :: SMap.drop m i := by simp [SMap.drop, hk]
      rw [this]
      simp only [SMap.wfFrom, Bool.and_eq_true, decide_eq_true_eq]
      exact ⟨h.1, ih _ h.2⟩

theorem SMap.wfFrom_ins {β : Type} [DecidableEq β] (d : β) (m : SMap β) (i : Nat) (x : β) (hx : x ≠ d) :
    ∀ lo, lo ≤ i → SMap.wfFrom d lo m = true → SMap.wfFrom d lo (SMap.ins m i x) = true := by
  induction m with
  | nil => intro lo hl _; simp [SMap.ins, SMap.wfFrom, hl, hx]
  | cons e m ih =>
    obtain ⟨k, v⟩ := e
    intro lo hl h
    simp only [SMap.wfFrom, Bool.and_eq_true, decide_eq_true_eq] at h
    simp only [SMap.ins]
    split
    · rename_i hk
      subst hk
      simp [SMap.wfFrom, hl, hx, h.2]
    · split
      · rename_i hk hlt
        simp only [SMap.wfFrom, Bool.and_eq_true, decide_eq_true_eq]
        exact ⟨⟨hl, hx⟩, ⟨Nat.succ_le_of_lt hlt, h.1.2⟩, h.2⟩
      · rename_i hk hlt
        simp only [SMap.wfFrom, Bool.and_eq_true, decide_eq_true_eq]
        exact ⟨h.1, ih _ (by omega) h.2⟩

/-- Setting a key keeps the canonical form. -/
theorem SMap.wf_put {β : Type} [DecidableEq β] (d : β) (m : SMap β) (i : Nat) (x : β) (h : SMap.wf d m = true) :
    SMap.wf d (SMap.put d m i x) = true := by
  unfold SMap.put SMap.wf at *
  split
  · exact SMap.wfFrom_drop d m i 0 h
  · rename_i hx; exact SMap.wfFrom_ins d m i x hx 0 (Nat.zero_le _) h

/-! ### The byte memory -/

/-- A byte written reads as it was written. -/
@[simp] theorem Memory.byte_write_same (m : Memory) (a : Nat) (b : Byte) : (Memory.write m a b).byte a = b := SMap.at_put_same ..

/-- Every other byte reads as before. -/
theorem Memory.byte_write_other (m : Memory) {a c : Nat} (b : Byte) (h : c ≠ a) : (Memory.write m a b).byte c = Memory.byte m c :=
  SMap.at_put_other _ _ _ h

/-- A write keeps the canonical form. -/
theorem Memory.wf_write (m : Memory) (a : Nat) (b : Byte) (h : Memory.wf m = true) : Memory.wf (Memory.write m a b) = true := SMap.wf_put _ _ _ _ h

/-- Writes one after another keep the canonical form. -/
theorem Memory.wf_writeAll (l : List (Nat × BitVec 8)) : ∀ m : Memory, Memory.wf m = true → Memory.wf (Memory.writeAll m l) = true := by
  induction l with
  | nil => intro m h; exact h
  | cons e l ih => intro m h; exact ih _ (Memory.wf_write m e.1 e.2 h)

/-- No writes change nothing. -/
@[simp] theorem Memory.writeAll_nil (m : Memory) : Memory.writeAll m [] = m := rfl

/-- A byte after writes in the order of their list: the last of them to it, else what it was. -/
theorem Memory.byte_writeAll (l : List (Nat × BitVec 8)) :
    ∀ (m : Memory) (a : Nat), (Memory.writeAll m l).byte a = (l.reverse.lookup a).getD (Memory.byte m a) := by
  induction l with
  | nil => intro m a; rfl
  | cons e l ih =>
    obtain ⟨k, v⟩ := e
    intro m a
    rw [Memory.writeAll, ih, List.reverse_cons, List.lookup_append]
    cases hl : l.reverse.lookup a with
    | some b => simp
    | none =>
      by_cases h : a = k
      · subst h; simp [List.lookup]
      · have : (a == k) = false := by simpa using h
        simp [List.lookup, this, Memory.byte_write_other _ _ h]

end Sys2Proof.Machine
end

