-- ==== Sys2Proof/Laws/State.lean ====
section
/-!
SUPPORT. Laws/State.lean: what every entry into the state and every named update of the device does to each field, true by computation. No later proof
unfolds a record update.
-/
namespace Sys2Proof.Machine

/-! ### Entering the state -/

section
variable (s : State) (f : Work → Work) (c : Instr) (l : List Instr) (n m : Nat)

@[simp] theorem State.run_dev : (s.run f).dev = (f s.work).dev := rfl
@[simp] theorem State.run_shadow : (s.run f).shadow = (f s.work).shadow := rfl
@[simp] theorem State.run_mem : (s.run f).mem = s.mem.writeAll (f s.work).wr.reverse := rfl
@[simp] theorem State.run_nv : (s.run f).nv = s.nv := rfl
@[simp] theorem State.run_now : (s.run f).now = s.now := rfl
@[simp] theorem State.run_pending : (s.run f).pending = s.pending := rfl
@[simp] theorem State.runTime_dev : (s.runTime f).dev = (f s.work).dev := rfl
@[simp] theorem State.runTime_shadow : (s.runTime f).shadow = (f s.work).shadow := rfl
@[simp] theorem State.runTime_mem : (s.runTime f).mem = s.mem.writeAll (f s.work).wr.reverse := rfl
@[simp] theorem State.runTime_nv : (s.runTime f).nv = s.nv := rfl
@[simp] theorem State.runTime_now : (s.runTime f).now = BitVec.ofNat 64 (f s.work).now := rfl
@[simp] theorem State.runTime_pending : (s.runTime f).pending = s.pending := rfl
@[simp] theorem State.runNv_dev : (s.runNv f).dev = (f s.work).dev := rfl
@[simp] theorem State.runNv_shadow : (s.runNv f).shadow = (f s.work).shadow := rfl
@[simp] theorem State.runNv_mem : (s.runNv f).mem = s.mem.writeAll (f s.work).wr.reverse := rfl
@[simp] theorem State.runNv_nv : (s.runNv f).nv = (f s.work).nv := rfl
@[simp] theorem State.runNv_now : (s.runNv f).now = s.now := rfl
@[simp] theorem State.runNv_pending : (s.runNv f).pending = s.pending := rfl
@[simp] theorem State.work_now : s.work.now = s.now.toNat := rfl
@[simp] theorem State.work_mem : s.work.mem = s.mem := rfl
@[simp] theorem State.work_nv : s.work.nv = s.nv := rfl
@[simp] theorem State.work_dev : s.work.dev = s.dev := rfl
@[simp] theorem State.work_wr : s.work.wr = [] := rfl
@[simp] theorem State.work_shadow : s.work.shadow = s.shadow := rfl
@[simp] theorem State.work_pending : State.work { s with pending := l } = s.work := rfl
@[simp] theorem State.withFetchWord_eq : s.withFetchWord n m = s := rfl
end

/-! ### Updates of the device -/

section
variable (w : Work)

@[simp] theorem Work.d_now (g : Dev → Dev) : (w.d g).now = w.now := rfl
@[simp] theorem Work.d_mem (g : Dev → Dev) : (w.d g).mem = w.mem := rfl
@[simp] theorem Work.d_nv (g : Dev → Dev) : (w.d g).nv = w.nv := rfl
@[simp] theorem Work.d_wr (g : Dev → Dev) : (w.d g).wr = w.wr := rfl
@[simp] theorem Work.d_shadow (g : Dev → Dev) : (w.d g).shadow = w.shadow := rfl
@[simp] theorem Work.d_dev (g : Dev → Dev) : (w.d g).dev = g w.dev := rfl
@[simp] theorem Work.host_now (g : HostIf → HostIf) : (w.host g).now = w.now := rfl
@[simp] theorem Work.host_mem (g : HostIf → HostIf) : (w.host g).mem = w.mem := rfl
@[simp] theorem Work.host_nv (g : HostIf → HostIf) : (w.host g).nv = w.nv := rfl
@[simp] theorem Work.host_wr (g : HostIf → HostIf) : (w.host g).wr = w.wr := rfl
@[simp] theorem Work.host_shadow (g : HostIf → HostIf) : (w.host g).shadow = w.shadow := rfl
@[simp] theorem Work.host_dev (g : HostIf → HostIf) : (w.host g).dev = { w.dev with host := g w.dev.host } := rfl
@[simp] theorem Work.pwr_now (g : PowerSt → PowerSt) : (w.pwr g).now = w.now := rfl
@[simp] theorem Work.pwr_mem (g : PowerSt → PowerSt) : (w.pwr g).mem = w.mem := rfl
@[simp] theorem Work.pwr_nv (g : PowerSt → PowerSt) : (w.pwr g).nv = w.nv := rfl
@[simp] theorem Work.pwr_wr (g : PowerSt → PowerSt) : (w.pwr g).wr = w.wr := rfl
@[simp] theorem Work.pwr_shadow (g : PowerSt → PowerSt) : (w.pwr g).shadow = w.shadow := rfl
@[simp] theorem Work.pwr_dev (g : PowerSt → PowerSt) : (w.pwr g).dev = { w.dev with pwr := g w.dev.pwr } := rfl
@[simp] theorem Work.tm_now (g : TimeSt → TimeSt) : (w.tm g).now = w.now := rfl
@[simp] theorem Work.tm_mem (g : TimeSt → TimeSt) : (w.tm g).mem = w.mem := rfl
@[simp] theorem Work.tm_nv (g : TimeSt → TimeSt) : (w.tm g).nv = w.nv := rfl
@[simp] theorem Work.tm_wr (g : TimeSt → TimeSt) : (w.tm g).wr = w.wr := rfl
@[simp] theorem Work.tm_shadow (g : TimeSt → TimeSt) : (w.tm g).shadow = w.shadow := rfl
@[simp] theorem Work.tm_dev (g : TimeSt → TimeSt) : (w.tm g).dev = { w.dev with time := g w.dev.time } := rfl
@[simp] theorem Work.spw_now (g : Speedwell → Speedwell) : (w.spw g).now = w.now := rfl
@[simp] theorem Work.spw_mem (g : Speedwell → Speedwell) : (w.spw g).mem = w.mem := rfl
@[simp] theorem Work.spw_nv (g : Speedwell → Speedwell) : (w.spw g).nv = w.nv := rfl
@[simp] theorem Work.spw_wr (g : Speedwell → Speedwell) : (w.spw g).wr = w.wr := rfl
@[simp] theorem Work.spw_shadow (g : Speedwell → Speedwell) : (w.spw g).shadow = w.shadow := rfl
@[simp] theorem Work.spw_dev (g : Speedwell → Speedwell) : (w.spw g).dev = { w.dev with spw := g w.dev.spw } := rfl
@[simp] theorem Work.bnd_now (g : Binding → Binding) : (w.bnd g).now = w.now := rfl
@[simp] theorem Work.bnd_mem (g : Binding → Binding) : (w.bnd g).mem = w.mem := rfl
@[simp] theorem Work.bnd_nv (g : Binding → Binding) : (w.bnd g).nv = w.nv := rfl
@[simp] theorem Work.bnd_wr (g : Binding → Binding) : (w.bnd g).wr = w.wr := rfl
@[simp] theorem Work.bnd_shadow (g : Binding → Binding) : (w.bnd g).shadow = w.shadow := rfl
@[simp] theorem Work.bnd_dev (g : Binding → Binding) : (w.bnd g).dev = { w.dev with bnd := g w.dev.bnd } := rfl
@[simp] theorem Work.flt_now (g : FaultSt → FaultSt) : (w.flt g).now = w.now := rfl
@[simp] theorem Work.flt_mem (g : FaultSt → FaultSt) : (w.flt g).mem = w.mem := rfl
@[simp] theorem Work.flt_nv (g : FaultSt → FaultSt) : (w.flt g).nv = w.nv := rfl
@[simp] theorem Work.flt_wr (g : FaultSt → FaultSt) : (w.flt g).wr = w.wr := rfl
@[simp] theorem Work.flt_shadow (g : FaultSt → FaultSt) : (w.flt g).shadow = w.shadow := rfl
@[simp] theorem Work.flt_dev (g : FaultSt → FaultSt) : (w.flt g).dev = { w.dev with flt := g w.dev.flt } := rfl
@[simp] theorem Work.exr_now (g : Experts → Experts) : (w.exr g).now = w.now := rfl
@[simp] theorem Work.exr_mem (g : Experts → Experts) : (w.exr g).mem = w.mem := rfl
@[simp] theorem Work.exr_nv (g : Experts → Experts) : (w.exr g).nv = w.nv := rfl
@[simp] theorem Work.exr_wr (g : Experts → Experts) : (w.exr g).wr = w.wr := rfl
@[simp] theorem Work.exr_shadow (g : Experts → Experts) : (w.exr g).shadow = w.shadow := rfl
@[simp] theorem Work.exr_dev (g : Experts → Experts) : (w.exr g).dev = { w.dev with exr := g w.dev.exr } := rfl
@[simp] theorem Work.fab_now (g : Fabric → Fabric) : (w.fab g).now = w.now := rfl
@[simp] theorem Work.fab_mem (g : Fabric → Fabric) : (w.fab g).mem = w.mem := rfl
@[simp] theorem Work.fab_nv (g : Fabric → Fabric) : (w.fab g).nv = w.nv := rfl
@[simp] theorem Work.fab_wr (g : Fabric → Fabric) : (w.fab g).wr = w.wr := rfl
@[simp] theorem Work.fab_shadow (g : Fabric → Fabric) : (w.fab g).shadow = w.shadow := rfl
@[simp] theorem Work.fab_dev (g : Fabric → Fabric) : (w.fab g).dev = { w.dev with fab := g w.dev.fab } := rfl
@[simp] theorem Work.hwk_now (g : Hawkmoth → Hawkmoth) : (w.hwk g).now = w.now := rfl
@[simp] theorem Work.hwk_mem (g : Hawkmoth → Hawkmoth) : (w.hwk g).mem = w.mem := rfl
@[simp] theorem Work.hwk_nv (g : Hawkmoth → Hawkmoth) : (w.hwk g).nv = w.nv := rfl
@[simp] theorem Work.hwk_wr (g : Hawkmoth → Hawkmoth) : (w.hwk g).wr = w.wr := rfl
@[simp] theorem Work.hwk_shadow (g : Hawkmoth → Hawkmoth) : (w.hwk g).shadow = w.shadow := rfl
@[simp] theorem Work.hwk_dev (g : Hawkmoth → Hawkmoth) : (w.hwk g).dev = { w.dev with hwk := g w.dev.hwk } := rfl
@[simp] theorem Work.gyl_now (g : Gymbiust → Gymbiust) : (w.gyl g).now = w.now := rfl
@[simp] theorem Work.gyl_mem (g : Gymbiust → Gymbiust) : (w.gyl g).mem = w.mem := rfl
@[simp] theorem Work.gyl_nv (g : Gymbiust → Gymbiust) : (w.gyl g).nv = w.nv := rfl
@[simp] theorem Work.gyl_wr (g : Gymbiust → Gymbiust) : (w.gyl g).wr = w.wr := rfl
@[simp] theorem Work.gyl_shadow (g : Gymbiust → Gymbiust) : (w.gyl g).shadow = w.shadow := rfl
@[simp] theorem Work.gyl_dev (g : Gymbiust → Gymbiust) : (w.gyl g).dev = { w.dev with gyl := g w.dev.gyl } := rfl
@[simp] theorem Work.pool_now (g : Pool → Pool) : (w.pool g).now = w.now := rfl
@[simp] theorem Work.pool_mem (g : Pool → Pool) : (w.pool g).mem = w.mem := rfl
@[simp] theorem Work.pool_nv (g : Pool → Pool) : (w.pool g).nv = w.nv := rfl
@[simp] theorem Work.pool_wr (g : Pool → Pool) : (w.pool g).wr = w.wr := rfl
@[simp] theorem Work.pool_shadow (g : Pool → Pool) : (w.pool g).shadow = w.shadow := rfl
@[simp] theorem Work.pool_dev (g : Pool → Pool) : (w.pool g).dev = { w.dev with pool := g w.dev.pool } := rfl
@[simp] theorem Work.serve_now (g : Serving → Serving) : (w.serve g).now = w.now := rfl
@[simp] theorem Work.serve_mem (g : Serving → Serving) : (w.serve g).mem = w.mem := rfl
@[simp] theorem Work.serve_nv (g : Serving → Serving) : (w.serve g).nv = w.nv := rfl
@[simp] theorem Work.serve_wr (g : Serving → Serving) : (w.serve g).wr = w.wr := rfl
@[simp] theorem Work.serve_shadow (g : Serving → Serving) : (w.serve g).shadow = w.shadow := rfl
@[simp] theorem Work.serve_dev (g : Serving → Serving) : (w.serve g).dev = { w.dev with serve := g w.dev.serve } := rfl
@[simp] theorem Work.tiers_now (g : Tiers → Tiers) : (w.tiers g).now = w.now := rfl
@[simp] theorem Work.tiers_mem (g : Tiers → Tiers) : (w.tiers g).mem = w.mem := rfl
@[simp] theorem Work.tiers_nv (g : Tiers → Tiers) : (w.tiers g).nv = w.nv := rfl
@[simp] theorem Work.tiers_wr (g : Tiers → Tiers) : (w.tiers g).wr = w.wr := rfl
@[simp] theorem Work.tiers_shadow (g : Tiers → Tiers) : (w.tiers g).shadow = w.shadow := rfl
@[simp] theorem Work.tiers_dev (g : Tiers → Tiers) : (w.tiers g).dev = { w.dev with tiers := g w.dev.tiers } := rfl
@[simp] theorem Work.mdl_now (g : Residency → Residency) : (w.mdl g).now = w.now := rfl
@[simp] theorem Work.mdl_mem (g : Residency → Residency) : (w.mdl g).mem = w.mem := rfl
@[simp] theorem Work.mdl_nv (g : Residency → Residency) : (w.mdl g).nv = w.nv := rfl
@[simp] theorem Work.mdl_wr (g : Residency → Residency) : (w.mdl g).wr = w.wr := rfl
@[simp] theorem Work.mdl_shadow (g : Residency → Residency) : (w.mdl g).shadow = w.shadow := rfl
@[simp] theorem Work.mdl_dev (g : Residency → Residency) : (w.mdl g).dev = { w.dev with mdl := g w.dev.mdl } := rfl
@[simp] theorem Work.rlt_now (g : Ringlet → Ringlet) : (w.rlt g).now = w.now := rfl
@[simp] theorem Work.rlt_mem (g : Ringlet → Ringlet) : (w.rlt g).mem = w.mem := rfl
@[simp] theorem Work.rlt_nv (g : Ringlet → Ringlet) : (w.rlt g).nv = w.nv := rfl
@[simp] theorem Work.rlt_wr (g : Ringlet → Ringlet) : (w.rlt g).wr = w.wr := rfl
@[simp] theorem Work.rlt_shadow (g : Ringlet → Ringlet) : (w.rlt g).shadow = w.shadow := rfl
@[simp] theorem Work.rlt_dev (g : Ringlet → Ringlet) : (w.rlt g).dev = { w.dev with rlt := g w.dev.rlt } := rfl
@[simp] theorem Work.modCtx_now (c : Nat) (g : Ctx → Ctx) : (w.modCtx c g).now = w.now := rfl
@[simp] theorem Work.modCtx_mem (c : Nat) (g : Ctx → Ctx) : (w.modCtx c g).mem = w.mem := rfl
@[simp] theorem Work.modCtx_nv (c : Nat) (g : Ctx → Ctx) : (w.modCtx c g).nv = w.nv := rfl
@[simp] theorem Work.modCtx_wr (c : Nat) (g : Ctx → Ctx) : (w.modCtx c g).wr = w.wr := rfl
@[simp] theorem Work.modCtx_shadow (c : Nat) (g : Ctx → Ctx) : (w.modCtx c g).shadow = w.shadow := rfl
@[simp] theorem Work.modCtx_dev (c : Nat) (g : Ctx → Ctx) : (w.modCtx c g).dev = { w.dev with ctxs := SMap.mod {} w.dev.ctxs c g } := rfl
@[simp] theorem Work.modPage_now (p : Nat) (g : Page → Page) : (w.modPage p g).now = w.now := rfl
@[simp] theorem Work.modPage_mem (p : Nat) (g : Page → Page) : (w.modPage p g).mem = w.mem := rfl
@[simp] theorem Work.modPage_nv (p : Nat) (g : Page → Page) : (w.modPage p g).nv = w.nv := rfl
@[simp] theorem Work.modPage_wr (p : Nat) (g : Page → Page) : (w.modPage p g).wr = w.wr := rfl
@[simp] theorem Work.modPage_shadow (p : Nat) (g : Page → Page) : (w.modPage p g).shadow = w.shadow := rfl
@[simp] theorem Work.modPage_dev (p : Nat) (g : Page → Page) : (w.modPage p g).dev = { w.dev with pages := SMap.mod {} w.dev.pages p g } := rfl
@[simp] theorem Work.setReg_now (p n : Nat) (v : Word) : (w.setReg p n v).now = w.now := rfl
@[simp] theorem Work.setReg_mem (p n : Nat) (v : Word) : (w.setReg p n v).mem = w.mem := rfl
@[simp] theorem Work.setReg_nv (p n : Nat) (v : Word) : (w.setReg p n v).nv = w.nv := rfl
@[simp] theorem Work.setReg_wr (p n : Nat) (v : Word) : (w.setReg p n v).wr = w.wr := rfl
@[simp] theorem Work.setReg_shadow (p n : Nat) (v : Word) : (w.setReg p n v).shadow = w.shadow := rfl
@[simp] theorem Work.setReg_dev (p n : Nat) (v : Word) : (w.setReg p n v).dev = { w.dev with regs := SMap.put (resetWord p n) w.dev.regs (p * 1024 + n) v } := rfl
@[simp] theorem Work.count_now (p n k : Nat) : (w.count p n k).now = w.now := rfl
@[simp] theorem Work.count_mem (p n k : Nat) : (w.count p n k).mem = w.mem := rfl
@[simp] theorem Work.count_nv (p n k : Nat) : (w.count p n k).nv = w.nv := rfl
@[simp] theorem Work.count_wr (p n k : Nat) : (w.count p n k).wr = w.wr := rfl
@[simp] theorem Work.count_shadow (p n k : Nat) : (w.count p n k).shadow = w.shadow := rfl
@[simp] theorem Work.count_dev (p n k : Nat) : (w.count p n k).dev = { w.dev with ctrs := SMap.mod 0 w.dev.ctrs (p * 8 + n) (· + BitVec.ofNat 64 k) } := rfl
@[simp] theorem Work.send_now (m : OutMsg) : (w.send m).now = w.now := rfl
@[simp] theorem Work.send_mem (m : OutMsg) : (w.send m).mem = w.mem := rfl
@[simp] theorem Work.send_nv (m : OutMsg) : (w.send m).nv = w.nv := rfl
@[simp] theorem Work.send_wr (m : OutMsg) : (w.send m).wr = w.wr := rfl
@[simp] theorem Work.send_shadow (m : OutMsg) : (w.send m).shadow = w.shadow := rfl
@[simp] theorem Work.send_dev (m : OutMsg) : (w.send m).dev = { w.dev with host := { w.dev.host with out := w.dev.host.out ++ [m] } } := rfl
@[simp] theorem Work.wrB_now (a : Nat) (b : Byte) : (w.wrB a b).now = w.now := rfl
@[simp] theorem Work.wrB_mem (a : Nat) (b : Byte) : (w.wrB a b).mem = w.mem := rfl
@[simp] theorem Work.wrB_nv (a : Nat) (b : Byte) : (w.wrB a b).nv = w.nv := rfl
@[simp] theorem Work.wrB_shadow (a : Nat) (b : Byte) : (w.wrB a b).shadow = w.shadow := rfl
@[simp] theorem Work.wrB_dev (a : Nat) (b : Byte) : (w.wrB a b).dev = w.dev := rfl
@[simp] theorem Work.wrB_wr (a : Nat) (b : Byte) : (w.wrB a b).wr = (a, b) :: w.wr := rfl
end

end Sys2Proof.Machine
end

