-- ==== Sys2Proof/Laws/Registers.lean ====
section
/-!
SUPPORT. Registers.lean: the laws of register fields, register words, page registers, counters, contexts and bytes of memory: read after write.
-/
namespace Sys2Proof

/-! ### Bit fields -/

theorem bits_eq (x hi lo : Nat) : bits x hi lo = x / 2 ^ lo % 2 ^ (hi + 1 - lo) := by
  simp [bits, Nat.shiftRight_eq_div_pow]

theorem bits_lt (x hi lo : Nat) : bits x hi lo < 2 ^ (hi + 1 - lo) := by
  rw [bits_eq]; exact Nat.mod_lt _ (Nat.two_pow_pos _)

/-- A field replaced: what lies below, the new field, what lies above. -/
theorem setBits_split (x hi lo v : Nat) :
    setBits x hi lo v = x % 2 ^ lo + 2 ^ lo * (v % 2 ^ (hi + 1 - lo)) + 2 ^ lo * 2 ^ (hi + 1 - lo) * (x / 2 ^ lo / 2 ^ (hi + 1 - lo)) := by
  have h1 := Nat.div_add_mod x (2 ^ lo)
  have h2 := Nat.div_add_mod (x / 2 ^ lo) (2 ^ (hi + 1 - lo))
  have hb : bits x hi lo * 2 ^ lo = 2 ^ lo * (x / 2 ^ lo % 2 ^ (hi + 1 - lo)) := by rw [bits_eq, Nat.mul_comm]
  have h3 : 2 ^ lo * (x / 2 ^ lo) = 2 ^ lo * (2 ^ (hi + 1 - lo) * (x / 2 ^ lo / 2 ^ (hi + 1 - lo))) + 2 ^ lo * (x / 2 ^ lo % 2 ^ (hi + 1 - lo)) := by
    rw [← Nat.mul_add, h2]
  have h4 : 2 ^ lo * 2 ^ (hi + 1 - lo) * (x / 2 ^ lo / 2 ^ (hi + 1 - lo)) = 2 ^ lo * (2 ^ (hi + 1 - lo) * (x / 2 ^ lo / 2 ^ (hi + 1 - lo))) :=
    Nat.mul_assoc ..
  have h5 : (v % 2 ^ (hi + 1 - lo)) * 2 ^ lo = 2 ^ lo * (v % 2 ^ (hi + 1 - lo)) := Nat.mul_comm ..
  unfold setBits
  omega

/-- A field replaced reads as it was set. -/
theorem bits_setBits_same (x hi lo v : Nat) : bits (setBits x hi lo v) hi lo = v % 2 ^ (hi + 1 - lo) := by
  rw [bits_eq, setBits_split]
  have hp := Nat.two_pow_pos lo
  have e : x % 2 ^ lo + 2 ^ lo * (v % 2 ^ (hi + 1 - lo)) + 2 ^ lo * 2 ^ (hi + 1 - lo) * (x / 2 ^ lo / 2 ^ (hi + 1 - lo)) =
      x % 2 ^ lo + 2 ^ lo * (v % 2 ^ (hi + 1 - lo) + 2 ^ (hi + 1 - lo) * (x / 2 ^ lo / 2 ^ (hi + 1 - lo))) := by
    rw [Nat.mul_add, Nat.mul_assoc, Nat.add_assoc]
  rw [e, Nat.add_mul_div_left _ _ hp, Nat.div_eq_of_lt (Nat.mod_lt _ hp), Nat.zero_add, Nat.add_mul_mod_self_left, Nat.mod_mod]

/-- A field whose value has its width. -/
theorem bits_setBits_fit {x hi lo v : Nat} (h : v < 2 ^ (hi + 1 - lo)) : bits (setBits x hi lo v) hi lo = v := by
  rw [bits_setBits_same, Nat.mod_eq_of_lt h]

theorem bits_testBit (x hi lo i : Nat) : (bits x hi lo).testBit i = (decide (i < hi + 1 - lo) && x.testBit (lo + i)) := by
  rw [bits_eq, Nat.testBit_mod_two_pow, Nat.testBit_div_two_pow, Nat.add_comm i lo]

theorem setBits_testBit (x hi lo v i : Nat) :
    (setBits x hi lo v).testBit i = if lo ≤ i ∧ i < lo + (hi + 1 - lo) then v.testBit (i - lo) else x.testBit i := by
  have hp := Nat.two_pow_pos lo
  have e : setBits x hi lo v =
      2 ^ lo * (2 ^ (hi + 1 - lo) * (x / 2 ^ lo / 2 ^ (hi + 1 - lo)) + v % 2 ^ (hi + 1 - lo)) + x % 2 ^ lo := by
    rw [setBits_split, Nat.mul_add, Nat.mul_assoc]; omega
  rw [e, Nat.testBit_two_pow_mul_add _ (Nat.mod_lt _ hp)]
  by_cases h1 : i < lo
  · rw [if_pos h1, if_neg (by omega), Nat.testBit_mod_two_pow]; simp [h1]
  · rw [if_neg h1, Nat.testBit_two_pow_mul_add _ (Nat.mod_lt _ (Nat.two_pow_pos _))]
    by_cases h2 : i - lo < hi + 1 - lo
    · rw [if_pos h2, if_pos (by omega), Nat.testBit_mod_two_pow]; simp [h2]
    · rw [if_neg h2, if_neg (by omega), Nat.testBit_div_two_pow, Nat.testBit_div_two_pow]
      congr 1; omega

/-- A field that does not overlap the one replaced. -/
theorem bits_setBits_other {x hi lo v h l : Nat} (hd : h < lo ∨ hi < l) : bits (setBits x hi lo v) h l = bits x h l := by
  apply Nat.eq_of_testBit_eq
  intro i
  rw [bits_testBit, bits_testBit, setBits_testBit]
  by_cases hi' : i < h + 1 - l
  · rw [if_neg (by omega)]
  · simp [hi']

/-- A field replaced in a 32-bit word keeps the word's width. -/
theorem setBits_lt {x hi lo v : Nat} (hx : x < 2 ^ 32) (hh : hi < 32) : setBits x hi lo v < 2 ^ 32 := by
  apply Nat.lt_pow_two_of_testBit
  intro i hi'
  rw [setBits_testBit]
  split
  · omega
  · exact Nat.testBit_lt_two_pow (Nat.lt_of_lt_of_le hx (Nat.pow_le_pow_right (by decide) hi'))

namespace Machine

/-! ### Register words -/

/-- A word set reads as it was set. -/
@[simp] theorem Work.reg_setReg_same (w : Work) (p n : Nat) (v : Word) : (w.setReg p n v).reg p n = v := by
  have h := SMap.at_put_same (resetWord p n) w.dev.regs (p * 1024 + n) v
  rw [← SMap.lookup_at] at h
  unfold Work.reg
  simp only [Work.setReg_dev]
  cases hl : List.lookup (p * 1024 + n) (SMap.put (resetWord p n) w.dev.regs (p * 1024 + n) v) with
  | none => rw [hl] at h; simpa using h
  | some x => rw [hl] at h; simpa using h

theorem SMap.lookup_put_other {β : Type} [DecidableEq β] (d : β) (m : SMap β) {i j : Nat} (x : β) (h : j ≠ i) :
    (SMap.put d m i x).lookup j = m.lookup j := by
  have key : ∀ y : β, ((SMap.put d m i x).lookup j).getD y = (m.lookup j).getD y := by
    intro y
    rw [SMap.lookup_at, SMap.lookup_at]
    unfold SMap.put
    split
    · exact SMap.at_drop_other y m h
    · exact SMap.at_ins_other y m x h
  have drop_lookup : ∀ m : SMap β, (SMap.drop m i).lookup j = m.lookup j := by
    intro m
    induction m with
    | nil => rfl
    | cons e m ih =>
      obtain ⟨k, v⟩ := e
      by_cases hk : k = i
      · have hj : (j == k) = false := by simp [hk, h]
        have e1 : SMap.drop ((k, v) :: m) i = SMap.drop m i := by simp [SMap.drop, hk]
        rw [e1, ih]
        simp [List.lookup, hj]
      · by_cases hj : j = k
        · subst hj; simp [SMap.drop, hk, List.lookup]
        · have hj' : (j == k) = false := by simpa using hj
          simpa [SMap.drop, hk, List.lookup, hj'] using ih
  have ins_lookup : ∀ m : SMap β, (SMap.ins m i x).lookup j = m.lookup j := by
    intro m
    have hi : (j == i) = false := by simpa using h
    induction m with
    | nil => simp [SMap.ins, List.lookup, hi]
    | cons e m ih =>
      obtain ⟨k, v⟩ := e
      simp only [SMap.ins]
      split
      · rename_i hk
        have hj : (j == k) = false := by rw [← hk]; exact hi
        simp [List.lookup, hi, hj]
      · split
        · simp [List.lookup, hi]
        · by_cases hj : j = k
          · subst hj; simp [List.lookup]
          · have hj' : (j == k) = false := by simpa using hj
            simpa [List.lookup, hj'] using ih
  unfold SMap.put
  split
  · exact drop_lookup m
  · exact ins_lookup m

/-- Every other word reads as before. -/
theorem Work.reg_setReg_other (w : Work) {p n p' n' : Nat} (v : Word) (h : p' * 1024 + n' ≠ p * 1024 + n) :
    (w.setReg p n v).reg p' n' = w.reg p' n' := by
  unfold Work.reg
  simp only [Work.setReg_dev]
  rw [SMap.lookup_put_other _ _ _ h]

/-! ### Register fields -/

/-- A field set reads as it was set, modulo its width. -/
theorem Work.get_set_same (w : Work) (p : Nat) (f : Fld) (v : Nat) (hf : f.hi < 32) :
    (w.set p f v).get p f = v % 2 ^ (f.hi + 1 - f.lo) := by
  unfold Work.get Work.set
  rw [Work.reg_setReg_same, BitVec.toNat_ofNat, Nat.mod_eq_of_lt (setBits_lt (w.reg p (f.off / 4)).isLt hf), bits_setBits_same]

/-- A field of another word reads as before. -/
theorem Work.get_set_word (w : Work) {p p' : Nat} {f g : Fld} (v : Nat) (h : p' * 1024 + g.off / 4 ≠ p * 1024 + f.off / 4) :
    (w.set p f v).get p' g = w.get p' g := by
  unfold Work.get Work.set
  rw [Work.reg_setReg_other _ _ h]

/-- Another field of the same word reads as before. -/
theorem Work.get_set_field (w : Work) (p : Nat) {f g : Fld} (v : Nat) (hw : g.off / 4 = f.off / 4) (hf : f.hi < 32)
    (h : g.hi < f.lo ∨ f.hi < g.lo) : (w.set p f v).get p g = w.get p g := by
  unfold Work.get Work.set
  rw [hw, Work.reg_setReg_same, BitVec.toNat_ofNat, Nat.mod_eq_of_lt (setBits_lt (w.reg p (f.off / 4)).isLt hf), bits_setBits_other h]

section
variable (w : Work) (p : Nat) (f : Fld) (v : Nat)
@[simp] theorem Work.set_now : (w.set p f v).now = w.now := rfl
@[simp] theorem Work.set_mem : (w.set p f v).mem = w.mem := rfl
@[simp] theorem Work.set_nv : (w.set p f v).nv = w.nv := rfl
@[simp] theorem Work.set_wr : (w.set p f v).wr = w.wr := rfl
@[simp] theorem Work.set_shadow : (w.set p f v).shadow = w.shadow := rfl
@[simp] theorem Work.set_page (q : Nat) : (w.set p f v).page q = w.page q := rfl
@[simp] theorem Work.set_ctx (c : Nat) : (w.set p f v).ctx c = w.ctx c := rfl
@[simp] theorem Work.set_ctr (q n : Nat) : (w.set p f v).ctr q n = w.ctr q n := rfl
end

/-! ### Page registers, counters, contexts -/

@[simp] theorem Work.page_modPage_same (w : Work) (p : Nat) (g : Page → Page) : (w.modPage p g).page p = g (w.page p) := by
  simp [Work.page]
theorem Work.page_modPage_other (w : Work) {p q : Nat} (g : Page → Page) (h : q ≠ p) : (w.modPage p g).page q = w.page q := by
  simp [Work.page, SMap.at_mod_other _ _ _ h]
@[simp] theorem Work.modPage_reg (w : Work) (p : Nat) (g : Page → Page) (q n : Nat) : (w.modPage p g).reg q n = w.reg q n := rfl
@[simp] theorem Work.modPage_get (w : Work) (p : Nat) (g : Page → Page) (q : Nat) (f : Fld) : (w.modPage p g).get q f = w.get q f := rfl
@[simp] theorem Work.modPage_ctr (w : Work) (p : Nat) (g : Page → Page) (q n : Nat) : (w.modPage p g).ctr q n = w.ctr q n := rfl
@[simp] theorem Work.modPage_ctx (w : Work) (p : Nat) (g : Page → Page) (c : Nat) : (w.modPage p g).ctx c = w.ctx c := rfl

@[simp] theorem Work.ctr_count_same (w : Work) (p n k : Nat) : (w.count p n k).ctr p n = w.ctr p n + BitVec.ofNat 64 k := by
  simp [Work.ctr]
theorem Work.ctr_count_other (w : Work) {p n q m : Nat} (k : Nat) (h : q * 8 + m ≠ p * 8 + n) : (w.count p n k).ctr q m = w.ctr q m := by
  simp [Work.ctr, SMap.at_mod_other _ _ _ h]
@[simp] theorem Work.count_reg (w : Work) (p n k q m : Nat) : (w.count p n k).reg q m = w.reg q m := rfl
@[simp] theorem Work.count_get (w : Work) (p n k q : Nat) (f : Fld) : (w.count p n k).get q f = w.get q f := rfl
@[simp] theorem Work.count_page (w : Work) (p n k q : Nat) : (w.count p n k).page q = w.page q := rfl
@[simp] theorem Work.count_ctx (w : Work) (p n k c : Nat) : (w.count p n k).ctx c = w.ctx c := rfl

@[simp] theorem Work.ctx_modCtx_same (w : Work) (c : Nat) (g : Ctx → Ctx) : (w.modCtx c g).ctx c = g (w.ctx c) := by
  simp [Work.ctx]
theorem Work.ctx_modCtx_other (w : Work) {c e : Nat} (g : Ctx → Ctx) (h : e ≠ c) : (w.modCtx c g).ctx e = w.ctx e := by
  simp [Work.ctx, SMap.at_mod_other _ _ _ h]
@[simp] theorem Work.modCtx_reg (w : Work) (c : Nat) (g : Ctx → Ctx) (q n : Nat) : (w.modCtx c g).reg q n = w.reg q n := rfl
@[simp] theorem Work.modCtx_get (w : Work) (c : Nat) (g : Ctx → Ctx) (q : Nat) (f : Fld) : (w.modCtx c g).get q f = w.get q f := rfl
@[simp] theorem Work.modCtx_page (w : Work) (c : Nat) (g : Ctx → Ctx) (q : Nat) : (w.modCtx c g).page q = w.page q := rfl
@[simp] theorem Work.modCtx_ctr (w : Work) (c : Nat) (g : Ctx → Ctx) (q n : Nat) : (w.modCtx c g).ctr q n = w.ctr q n := rfl

/-! ### Bytes of memory -/

@[simp] theorem Work.rd_wrB_same (w : Work) (a : Nat) (b : Byte) : (w.wrB a b).rd a = b := by
  simp [Work.rd]
theorem Work.rd_wrB_other (w : Work) {a c : Nat} (b : Byte) (h : c ≠ a) : (w.wrB a b).rd c = w.rd c := by
  have : (c == a) = false := by simpa using h
  simp [Work.rd, List.lookup, this]

/-- What a command leaves at an address is what its last look at it would show. -/
theorem State.run_byte (s : State) (f : Work → Work) (a : Nat) (hm : (f s.work).mem = s.mem) : (s.run f).mem.byte a = (f s.work).rd a := by
  rw [State.run_mem, Memory.byte_writeAll, List.reverse_reverse]
  unfold Work.rd
  rw [hm]
  cases (f s.work).wr.lookup a <;> rfl

/-- Bytes written over [a, a + n) leave every other byte. -/
theorem Work.rd_wrs_other (l : List Byte) : ∀ (w : Work) (a c : Nat), c < a ∨ a + l.length ≤ c → (Work.wrs a l w).rd c = w.rd c := by
  induction l with
  | nil => intro w a c _; rfl
  | cons b l ih =>
    intro w a c h
    simp only [List.length_cons] at h
    rw [Work.wrs, ih _ _ _ (by omega), Work.rd_wrB_other _ _ (by omega)]

/-- Bytes written read as they were written. -/
theorem Work.rd_wrs_same (l : List Byte) : ∀ (w : Work) (a i : Nat) (h : i < l.length), (Work.wrs a l w).rd (a + i) = l[i] := by
  induction l with
  | nil => intro w a i h; exact absurd h (Nat.not_lt_zero _)
  | cons b l ih =>
    intro w a i h
    cases i with
    | zero => rw [Work.wrs, Work.rd_wrs_other _ _ _ _ (Or.inl (by omega))]; simp
    | succ i =>
      have := ih (w.wrB a b) (a + 1) i (by simpa using h)
      rw [Work.wrs, show a + (i + 1) = a + 1 + i by omega, this]; simp

end Machine
end Sys2Proof
end

