-- ==== Sys2Proof/Laws/Signals.lean ====
section
/-!
SUPPORT. Signals.lean: everything an event, an error log or a snapshot trigger can change (R35, R36, R384, R385), said once.
-/
namespace Sys2Proof.Machine

/-- The registers of a page that no event and no error touches. -/
def Page.unsignalled (g : Page) : Page := { g with evt := 0, log0 := 0, log1 := 0, log2 := 0, log3 := 0 }
/-- What of a context no event touches. -/
def Ctx.unsignalled (x : Ctx) : Ctx := { x with events := [] }
/-- What of the host interface no event touches. -/
def HostIf.unsignalled (h : HostIf) : HostIf := { h with out := [], pendVec := [] }
/-- What of power control no event touches. -/
def PowerSt.unsignalled (q : PowerSt) : PowerSt := { q with snapout := false }
/-- What of the device no event touches. -/
def Dev.unsignalled (d : Dev) : Dev :=
  { d with pages := [], regs := [], ctrs := [], ctxs := [], free := 0, host := d.host.unsignalled, pwr := d.pwr.unsignalled }

/-- From `w` to `w'` nothing has changed but what events, error logs and snapshot triggers change: event bits gained, error logs, messages,
context events, and the SNP page of HD0. -/
structure SigOnly (w w' : Work) : Prop where
  now : w'.now = w.now
  mem : w'.mem = w.mem
  nv : w'.nv = w.nv
  wr : w'.wr = w.wr
  dev : w'.dev.unsignalled = w.dev.unsignalled
  page : ∀ p, (w'.page p).unsignalled = (w.page p).unsignalled
  evt : ∀ p, (w.page p).evt ||| (w'.page p).evt = (w'.page p).evt
  reg : ∀ p n, p ≠ snpPage 16 → n < 1024 → w'.reg p n = w.reg p n
  ctr : ∀ p n, p ≠ snpPage 16 → n < 8 → w'.ctr p n = w.ctr p n
  ctx : ∀ c, (w'.ctx c).unsignalled = (w.ctx c).unsignalled

theorem SigOnly.refl (w : Work) : SigOnly w w :=
  ⟨rfl, rfl, rfl, rfl, rfl, fun _ => rfl, fun _ => by simp, fun _ _ _ _ => rfl, fun _ _ _ _ => rfl, fun _ => rfl⟩

theorem SigOnly.trans {a b c : Work} (h : SigOnly a b) (k : SigOnly b c) : SigOnly a c where
  now := k.now.trans h.now
  mem := k.mem.trans h.mem
  nv := k.nv.trans h.nv
  wr := k.wr.trans h.wr
  dev := k.dev.trans h.dev
  page p := (k.page p).trans (h.page p)
  evt p := by rw [← k.evt p, ← h.evt p]; simp [← BitVec.or_assoc]
  reg p n hp hn := (k.reg p n hp hn).trans (h.reg p n hp hn)
  ctr p n hp hn := (k.ctr p n hp hn).trans (h.ctr p n hp hn)
  ctx c := (k.ctx c).trans (h.ctx c)

/-- A change of nothing but the host's messages, the free values, SNAPOUT or the shadow. -/
theorem SigOnly.ofDev {w w' : Work} (h1 : w'.now = w.now) (h2 : w'.mem = w.mem) (h3 : w'.nv = w.nv) (h4 : w'.wr = w.wr)
    (h5 : w'.dev.unsignalled = w.dev.unsignalled) (hp : w'.dev.pages = w.dev.pages) (hr : w'.dev.regs = w.dev.regs) (hc : w'.dev.ctrs = w.dev.ctrs)
    (hx : w'.dev.ctxs = w.dev.ctxs) : SigOnly w w' where
  now := h1
  mem := h2
  nv := h3
  wr := h4
  dev := h5
  page p := by simp only [Work.page, hp]
  evt p := by simp only [Work.page, hp]; simp
  reg p n _ _ := by simp only [Work.reg, hr]
  ctr p n _ _ := by simp only [Work.ctr, hc]
  ctx c := by simp only [Work.ctx, hx]

theorem SigOnly.send (w : Work) (m : OutMsg) : SigOnly w (w.send m) := SigOnly.ofDev rfl rfl rfl rfl rfl rfl rfl rfl rfl

theorem SigOnly.msix (w : Work) (fn vec : Nat) : SigOnly w (w.msix fn vec) := by
  unfold Work.msix
  dsimp only
  split
  · exact SigOnly.send w _
  · exact SigOnly.ofDev rfl rfl rfl rfl rfl rfl rfl rfl rfl

theorem SigOnly.fresh (w : Work) : SigOnly w w.fresh.2 := SigOnly.ofDev rfl rfl rfl rfl rfl rfl rfl rfl rfl

/-- A change of the error log and the event bits of one page. -/
theorem SigOnly.modPage (w : Work) (p : Nat) (f : Page → Page) (hk : ∀ g, (f g).unsignalled = g.unsignalled) (he : ∀ g : Page, g.evt ||| (f g).evt = (f g).evt) :
    SigOnly w (w.modPage p f) where
  now := rfl
  mem := rfl
  nv := rfl
  wr := rfl
  dev := rfl
  page q := by
    by_cases h : q = p
    · subst h; rw [Work.page_modPage_same]; exact hk _
    · rw [Work.page_modPage_other _ _ h]
  evt q := by
    by_cases h : q = p
    · subst h; rw [Work.page_modPage_same]; exact he _
    · rw [Work.page_modPage_other _ _ h]; simp
  reg _ _ _ _ := rfl
  ctr _ _ _ _ := rfl
  ctx _ := rfl

/-- A register of the SNP page of HD0 changed. -/
theorem SigOnly.setSnp (w : Work) (n : Nat) (v : Word) (hn : n < 1024) : SigOnly w (w.setReg (snpPage 16) n v) where
  now := rfl
  mem := rfl
  nv := rfl
  wr := rfl
  dev := rfl
  page _ := rfl
  evt _ := by simp [Work.page]
  reg p m hp hm := Work.reg_setReg_other _ _ (by omega)
  ctr _ _ _ _ := rfl
  ctx _ := rfl

/-- A counter of that page. -/
theorem SigOnly.countSnp (w : Work) (n k : Nat) (hn : n < 8) : SigOnly w (w.count (snpPage 16) n k) where
  now := rfl
  mem := rfl
  nv := rfl
  wr := rfl
  dev := rfl
  page _ := rfl
  evt _ := by simp
  reg _ _ _ _ := rfl
  ctr p m hp hm := Work.ctr_count_other _ _ (by omega)
  ctx _ := rfl

/-- An event added to a context. -/
theorem SigOnly.addNote (w : Work) (c : Nat) (e : Note) : SigOnly w (w.modCtx c fun x => { x with events := x.events ++ [e] }) where
  now := rfl
  mem := rfl
  nv := rfl
  wr := rfl
  dev := rfl
  page _ := rfl
  evt _ := by simp
  reg _ _ _ _ := rfl
  ctr _ _ _ _ := rfl
  ctx d := by
    by_cases h : d = c
    · subst h; rw [Work.ctx_modCtx_same]; rfl
    · rw [Work.ctx_modCtx_other _ _ h]

theorem SigOnly.setSnpField (w : Work) (f : Fld) (v : Nat) (hf : f.off < 4096) : SigOnly w (w.set (snpPage 16) f v) :=
  SigOnly.setSnp w _ _ (by omega)

theorem SigOnly.latchRegs (w : Work) (src n : Nat) : SigOnly w (w.latchRegs src n) :=
  ((((SigOnly.setSnpField w R.SNP_STS_FROZEN 1 (by decide)).trans (SigOnly.setSnpField _ R.SNP_STS_SOURCE src (by decide))).trans
    (SigOnly.setSnpField _ R.SNP_STS_SEQNO n (by decide))).trans
      ((SigOnly.setSnp _ (R.SNP_STAMP_LO_ST_LO.off / 4) _ (by decide)).trans (SigOnly.setSnp _ (R.SNP_STAMP_LO_ST_LO.off / 4 + 1) _ (by decide)))).trans
        (SigOnly.countSnp _ 0 1 (by decide))

theorem SigOnly.driveOut (w : Work) : SigOnly w w.driveOut := by
  unfold Work.driveOut
  split
  · exact SigOnly.ofDev rfl rfl rfl rfl rfl rfl rfl rfl rfl
  · exact SigOnly.refl w

theorem SigOnly.latch (w : Work) (src : Nat) : SigOnly w (w.latch src) :=
  ((SigOnly.latchRegs w src _).trans (SigOnly.driveOut _)).trans (SigOnly.ofDev rfl rfl rfl rfl rfl rfl rfl rfl rfl)

theorem SigOnly.notify (w : Work) (p b : Nat) (tag : Word) (fin : Nat) : SigOnly w (w.notify p b tag fin) := by
  unfold Work.notify
  split
  · split
    · exact SigOnly.refl w
    · exact SigOnly.addNote w _ _
  · exact SigOnly.refl w

theorem SigOnly.interruptWith {again : Sig → Work → Work} (ha : ∀ g w, SigOnly w (again g w)) (p : Nat) (w : Work) :
    SigOnly w (Machine.interruptWith again p w) := by
  have hu : SigOnly w (again (.err p (w.fresh.1.setWidth 32) 7 0x1F 0) w.fresh.2) := (SigOnly.fresh w).trans (ha _ _)
  unfold Machine.interruptWith
  dsimp only
  split
  · exact SigOnly.refl w
  · split
    · exact SigOnly.msix w _ _
    · exact hu
  · split
    · exact hu
    · exact SigOnly.msix w _ _

theorem SigOnly.deliverWith {again : Sig → Work → Work} (ha : ∀ g w, SigOnly w (again g w)) (p b : Nat) (tag : Word) (fin : Nat) (w : Work) :
    SigOnly w (Machine.deliverWith again p b tag fin w) := (SigOnly.notify w p b tag fin).trans (SigOnly.interruptWith ha p _)

theorem SigOnly.watchWith {again : Sig → Work → Work} (ha : ∀ g w, SigOnly w (again g w)) (p b : Nat) (w : Work) :
    SigOnly w (Machine.watchWith again p b w) := by
  unfold Machine.watchWith
  split
  · exact ha _ _
  · exact SigOnly.refl w

theorem SigOnly.markEvt (w : Work) (p b : Nat) : SigOnly w (w.markEvt p b) :=
  SigOnly.modPage w p _ (fun _ => rfl) (fun g => by rw [← BitVec.or_assoc, BitVec.or_self])

theorem SigOnly.eventWith {again : Sig → Work → Work} (ha : ∀ g w, SigOnly w (again g w)) (p b : Nat) (tag : Word) (fin : Nat) (w : Work) :
    SigOnly w (Machine.eventWith again p b tag fin w) := by
  have h : SigOnly w (Machine.watchWith again p b (w.markEvt p b)) := (SigOnly.markEvt w p b).trans (SigOnly.watchWith ha p b _)
  unfold Machine.eventWith
  split
  · split
    · exact SigOnly.refl w
    · exact ha _ _
  · split
    · exact h.trans (SigOnly.deliverWith ha _ _ _ _ _)
    · exact h

theorem SigOnly.sameInstant (w : Work) (src : Nat) : SigOnly w (w.sameInstant src) := by
  unfold Work.sameInstant
  split
  · split
    · exact (SigOnly.setSnpField w R.SNP_STS_SOURCE src (by decide)).trans (SigOnly.ofDev rfl rfl rfl rfl rfl rfl rfl rfl rfl)
    · exact SigOnly.refl w
  · exact SigOnly.refl w

theorem SigOnly.triggerWith {again : Sig → Work → Work} (ha : ∀ g w, SigOnly w (again g w)) (src : Nat) (w : Work) :
    SigOnly w (Machine.triggerWith again src w) := by
  unfold Machine.triggerWith
  split
  · exact ((SigOnly.sameInstant w src).trans (SigOnly.countSnp _ 1 1 (by decide))).trans (ha _ _)
  · exact (SigOnly.latch w src).trans (ha _ _)

/-- Whatever a signal brings about, it changes nothing else. -/
theorem SigOnly.signal (n : Nat) : ∀ g w, SigOnly w (Machine.signal n g w) := by
  induction n with
  | zero => intro g w; exact SigOnly.refl w
  | succ n ih =>
    intro g w
    cases g with
    | ev p b tag fin => exact SigOnly.eventWith ih p b tag fin w
    | err p detail word code cmd =>
      exact (SigOnly.modPage w p (fun g => logRegs g w.now detail word code cmd) (fun _ => rfl) (fun g => by simp [logRegs])).trans (ih _ _)
    | trig src => exact SigOnly.triggerWith ih src w

theorem SigOnly.raise (w : Work) (p b : Nat) : SigOnly w (w.raise p b) := SigOnly.signal _ _ _
theorem SigOnly.logErr (w : Work) (p : Nat) (detail : Word) (word code cmd : Nat) : SigOnly w (w.logErr p detail word code cmd) :=
  SigOnly.signal _ _ _
theorem SigOnly.trigger (w : Work) (src : Nat) : SigOnly w (w.trigger src) := SigOnly.signal _ _ _
theorem SigOnly.logOpen (w : Work) (p : Nat) (detail word : Option Nat) (code cmd : Nat) : SigOnly w (w.logOpen p detail word code cmd) :=
  (SigOnly.fresh w).trans (SigOnly.logErr _ _ _ _ _ _)
theorem SigOnly.dropWrite (w : Work) (p n : Nat) (v : Word) : SigOnly w (w.dropWrite p n v) :=
  (SigOnly.raise w p 0).trans (SigOnly.logErr _ _ _ _ _ _)
theorem SigOnly.deliver (w : Work) (p b : Nat) : SigOnly w (w.deliver p b) := SigOnly.deliverWith (SigOnly.signal _) _ _ _ _ _

/-! ### What it leaves, field by field -/

section
variable {w w' : Work} (h : SigOnly w w')
include h
theorem SigOnly.state (p : Nat) : (w'.page p).state = (w.page p).state := by
  have k := congrArg Page.state (h.page p)
  exact k
theorem SigOnly.bindLock (p : Nat) : (w'.page p).bindLock = (w.page p).bindLock := by
  have k := congrArg Page.bindLock (h.page p)
  exact k
theorem SigOnly.owner (p : Nat) : (w'.page p).owner = (w.page p).owner := by
  have k := congrArg Page.owner (h.page p)
  exact k
theorem SigOnly.args (p : Nat) : (w'.page p).args = (w.page p).args := by
  have k := congrArg Page.args (h.page p)
  exact k
theorem SigOnly.cmdSts (p : Nat) : (w'.page p).cmdSts = (w.page p).cmdSts := by
  have k := congrArg Page.cmdSts (h.page p)
  exact k
theorem SigOnly.outst (p : Nat) : (w'.page p).outst = (w.page p).outst := by
  have k := congrArg Page.outst (h.page p)
  exact k
theorem SigOnly.evten (p : Nat) : (w'.page p).evten = (w.page p).evten := by
  have k := congrArg Page.evten (h.page p)
  exact k
theorem SigOnly.get (p : Nat) (f : Fld) (hp : p ≠ snpPage 16) (hf : f.off < 4096) : w'.get p f = w.get p f := by
  unfold Work.get; rw [h.reg p (f.off / 4) hp (by omega)]
theorem SigOnly.ctxState (c : Nat) : (w'.ctx c).state = (w.ctx c).state := by
  have k := congrArg Ctx.state (h.ctx c)
  exact k
theorem SigOnly.rd (a : Nat) : w'.rd a = w.rd a := by unfold Work.rd; rw [h.wr, h.mem]
end

end Sys2Proof.Machine
end

