-- ==== Sys2Proof/Laws/Commands.lean ====
section
/-!
SUPPORT. Commands.lean: what the shared operations of a command do (R38, R39), said once: which check answers, what a reply, an acceptance, a decided
final status and a completion leave behind; that an event sets its bit (R35); and that every run keeps the memory's canonical form.
-/
namespace Sys2Proof.Machine

/-! ### The common checks -/

/-- A register access that finds a way crosses the links of that way, and then does its own part (R12). -/
theorem Work.onWay_some {w : Work} {b : Caller} {p : Nat} {l : List (Nat × Nat)} (h : w.hubWay (w.callerDie b) (dieOf p) = some l) (f : Work → Work) :
    w.onWay b p f = f (w.onLinks (some l) (Config.linkTransfers 4)) := by
  unfold Work.onWay
  rw [h]

/-- Transfers counted on a way are all that taking it does. -/
theorem Work.onLinks_cases (w : Work) (l : List (Nat × Nat)) (k : Nat) :
    w.onLinks (some l) k = w ∨ w.onLinks (some l) k = w.d fun d => { d with ctrs := xferCtrs l k d.ctrs } := by
  unfold Work.onLinks
  cases l with
  | nil => exact Or.inl rfl
  | cons => exact Or.inr rfl

/-- The common checks do not depend on the counters of the links. -/
theorem Work.verdict_onLinks (w : Work) (l : List (Nat × Nat)) (k : Nat) (q : Issue) (x : CmdSpec)
    (h : ∀ c, x.legal c (w.onLinks (some l) k) = x.legal c w) : (w.onLinks (some l) k).verdict q x = w.verdict q x := by
  obtain e | e := w.onLinks_cases l k
  · rw [e]
  · unfold Work.verdict
    simp only [h]
    rw [e]
    rfl

/-- A command that nothing turns away runs its own part, its access counted on the links it took. -/
theorem Work.command_legal {s : State} {q : Issue} {k : CmdSpec} (h : s.legal q k) (hk : k.legal = fun _ _ => true) (body : Call → Work → Work) :
    ∃ l, s.work.hubWay (s.work.callerDie q.caller) (dieOf q.page) = some l ∧
      s.work.command q k body = (s.work.onLinks (some l) (Config.linkTransfers 4)).asUnit q.page (body (s.work.call q k.code)) := by
  obtain ⟨⟨hr, hw⟩, hv⟩ := h
  obtain ⟨l, hl⟩ := Option.isSome_iff_exists.mp hw
  refine ⟨l, hl, ?_⟩
  unfold Work.command
  rw [hr]
  dsimp only
  rw [Work.onWay_some hl, Work.verdict_onLinks _ _ _ _ _ (fun c => by rw [hk]), hv]
  obtain e | e := s.work.onLinks_cases l (Config.linkTransfers 4) <;> rw [e] <;> rfl

/-- A command that a common check refuses answers that check's status and does nothing else. -/
theorem Work.command_refused {w : Work} {q : Issue} {k : CmdSpec} {st : Status} {l : List (Nat × Nat)} (hr : w.reach q.caller q.page = .ok)
    (hl : w.hubWay (w.callerDie q.caller) (dieOf q.page) = some l) (hk : k.legal = fun _ _ => true) (hv : w.verdict q k = some st)
    (body : Call → Work → Work) : w.command q k body = (w.onLinks (some l) (Config.linkTransfers 4)).reply (w.call q k.code) st := by
  unfold Work.command
  rw [hr]
  dsimp only
  rw [Work.onWay_some hl, Work.verdict_onLinks _ _ _ _ _ (fun c => by rw [hk]), hv]
  obtain e | e := w.onLinks_cases l (Config.linkTransfers 4) <;> rw [e] <;> rfl

/-- A command that finds no way is never seen by its page: its issuer's context faults (R13). -/
theorem Work.command_cut {w : Work} {q : Issue} {d i : Nat} (hr : w.reach q.caller q.page = .ok) (hc : q.caller = .seq d i)
    (hl : w.hubWay (w.callerDie q.caller) (dieOf q.page) = none) (k : CmdSpec) (body : Call → Work → Work) :
    w.command q k body = { w with cut := true }.ended (seqPage d i) := by
  unfold Work.command
  rw [hr]
  dsimp only
  unfold Work.onWay
  rw [hl, hc]

/-- A command on a page that does not answer does nothing. -/
theorem Work.command_ignored {w : Work} {q : Issue} (h : w.reach q.caller q.page = .ignored) (k : CmdSpec) (body : Call → Work → Work) :
    w.command q k body = w := by
  unfold Work.command
  rw [h]

/-- A virtual function's command on a page that is not its own is counted. -/
theorem Work.command_denied {w : Work} {q : Issue} (h : w.reach q.caller q.page = .denied) (k : CmdSpec) (body : Call → Work → Work) :
    w.command q k body = w.count pciPage 0 1 := by
  unfold Work.command
  rw [h]

/-- No check fails where none is bad. -/
theorem firstFail_eq_none : ∀ {l : List (Bool × Status)}, firstFail l = none ↔ ∀ e ∈ l, e.1 = false
  | [] => by simp [firstFail]
  | (bad, st) :: l => by
    cases bad
    · simp [firstFail, firstFail_eq_none]
    · simp [firstFail]

/-- With no bad check the effect follows. -/
theorem Work.checked_pass {c : Call} {l : List (Bool × Status)} (h : firstFail l = none) (eff : Work → Work) (w : Work) : w.checked c l eff = eff w := by
  unfold Work.checked
  rw [h]

/-- A bad check is answered, and nothing else happens. -/
theorem Work.checked_fail {c : Call} {l : List (Bool × Status)} {st : Status} (h : firstFail l = some st) (eff : Work → Work) (w : Work) :
    w.checked c l eff = w.reply c st := by
  unfold Work.checked
  rw [h]

/-! ### Replies -/

/-- What a reply writes to CMD_STS. -/
def replyWord (g : Page) (st : Status) : Word :=
  BitVec.ofNat 32 (if g.outst.isSome then setBits g.cmdSts.toNat 7 0 st.code
    else st.code + st.code * 256 + (if decide (st = .accepted) || decide (st = .pending) then 2 ^ 31 else 0))

/-- A reply changes CMD_STS of its page, and beyond that only what its log entry brings about. -/
theorem Work.reply_only (c : Call) (st : Status) (w : Work) :
    SigOnly (w.modPage c.page fun g => { g with cmdSts := replyWord (w.page c.page) st }) (w.reply c st) := by
  unfold Work.reply
  simp only
  split
  · exact SigOnly.logOpen _ _ _ _ _ _
  · exact SigOnly.refl _

/-- The status of a reply stands in CMD_STS. -/
theorem Work.reply_cmdSts (c : Call) (st : Status) (w : Work) : ((w.reply c st).page c.page).cmdSts = replyWord (w.page c.page) st := by
  rw [(Work.reply_only c st w).cmdSts, Work.page_modPage_same]

/-- A reply leaves what is outstanding. -/
theorem Work.reply_outst (c : Call) (st : Status) (w : Work) (p : Nat) : ((w.reply c st).page p).outst = (w.page p).outst := by
  rw [(Work.reply_only c st w).outst]
  by_cases h : p = c.page
  · subst h; rw [Work.page_modPage_same]
  · rw [Work.page_modPage_other _ _ h]

/-- A reply leaves every block state. -/
theorem Work.reply_state (c : Call) (st : Status) (w : Work) (p : Nat) : ((w.reply c st).page p).state = (w.page p).state := by
  rw [(Work.reply_only c st w).state]
  by_cases h : p = c.page
  · subst h; rw [Work.page_modPage_same]
  · rw [Work.page_modPage_other _ _ h]

/-- A reply leaves every argument. -/
theorem Work.reply_args (c : Call) (st : Status) (w : Work) (p : Nat) : ((w.reply c st).page p).args = (w.page p).args := by
  rw [(Work.reply_only c st w).args]
  by_cases h : p = c.page
  · subst h; rw [Work.page_modPage_same]
  · rw [Work.page_modPage_other _ _ h]

/-- A reply leaves every byte. -/
theorem Work.reply_rd (c : Call) (st : Status) (w : Work) (a : Nat) : (w.reply c st).rd a = w.rd a :=
  (Work.reply_only c st w).rd a

/-! ### Acceptance, final status, completion -/

/-- An accepted command is outstanding with its arguments and no final status. -/
theorem Work.accept_outst (c : Call) (w : Work) :
    ((w.accept c).page c.page).outst = some { code := c.code, tag := c.tag, caller := c.caller, args := c.args, stamp := w.now, final := none } := by
  unfold Work.accept
  rw [Work.page_modPage_same]

/-- Acceptance leaves what is outstanding on other pages. -/
theorem Work.accept_outst_other (c : Call) (w : Work) {p : Nat} (h : p ≠ c.page) : ((w.accept c).page p).outst = (w.page p).outst := by
  unfold Work.accept
  rw [Work.page_modPage_other _ _ h, Work.reply_outst]

/-- Acceptance leaves every block state. -/
theorem Work.accept_state (c : Call) (w : Work) (p : Nat) : ((w.accept c).page p).state = (w.page p).state := by
  unfold Work.accept
  by_cases h : p = c.page
  · subst h; rw [Work.page_modPage_same, Work.reply_state]
  · rw [Work.page_modPage_other _ _ h, Work.reply_state]

/-- Acceptance leaves every byte. -/
theorem Work.accept_rd (c : Call) (w : Work) (a : Nat) : (w.accept c).rd a = w.rd a := Work.reply_rd c .accepted w a

/-- A decided final status stands with the outstanding command. -/
theorem Work.settle_outst {p : Nat} {w : Work} {o : Outst} (h : (w.page p).outst = some o) (st : Status) :
    ((w.settle p st).page p).outst = some { o with final := some st } := by
  unfold Work.settle
  rw [Work.page_modPage_same, h]
  rfl

/-- Deciding a final status leaves other pages. -/
theorem Work.settle_page_other (p : Nat) (st : Status) (w : Work) {r : Nat} (h : r ≠ p) : (w.settle p st).page r = w.page r :=
  Work.page_modPage_other _ _ h

/-- The context's own record does not touch pages. -/
theorem Work.thaw_page (c : Nat) (w : Work) (p : Nat) : (w.thaw c).page p = w.page p := rfl

/-- A completed command is no longer outstanding. -/
theorem Work.complete_outst (p : Nat) (st : Status) (w : Work) : ((w.complete p st).page p).outst = none := by
  unfold Work.complete
  split
  · assumption
  · rename_i o _
    have key : ∀ v : Work, (v.page p).outst = none → ((signal sigDepth (.ev p 1 o.tag st.code) v).page p).outst = none := fun v hv => by
      rw [(SigOnly.signal sigDepth (.ev p 1 o.tag st.code) v).outst, hv]
    simp only
    split
    · split
      · rw [Work.thaw_page]
        split <;> apply key
        · rw [(SigOnly.logOpen _ _ _ _ _ _).outst, Work.page_modPage_same]
        · rw [Work.page_modPage_same]
      · split <;> apply key
        · rw [(SigOnly.logOpen _ _ _ _ _ _).outst, Work.page_modPage_same]
        · rw [Work.page_modPage_same]
    · split <;> apply key
      · rw [(SigOnly.logOpen _ _ _ _ _ _).outst, Work.page_modPage_same]
      · rw [Work.page_modPage_same]

/-! ### Events -/

/-- `bit` is the library's test of a bit. -/
theorem bit_testBit (x b : Nat) : bit x b = x.testBit b := by
  unfold bit
  rw [Nat.testBit_eq_decide_div_mod_eq, Nat.shiftRight_eq_div_pow]
  by_cases h : x / 2 ^ b % 2 = 1 <;> simp [h]

/-- Bits once set stay set through what signals bring about. -/
theorem SigOnly.evt_bit {w w' : Work} (h : SigOnly w w') {p b : Nat} (hb : bit (w.page p).evt.toNat b = true) : bit (w'.page p).evt.toNat b = true := by
  have e := h.evt p
  rw [← e]
  simp only [bit_testBit, BitVec.toNat_or, Nat.testBit_or] at hb ⊢
  rw [hb]
  rfl

/-- An event marked has its bit. -/
theorem Work.markEvt_bit (p b : Nat) (w : Work) (hb : b < 32) : bit ((w.markEvt p b).page p).evt.toNat b = true := by
  unfold Work.markEvt
  rw [Work.page_modPage_same]
  simp only [bit_testBit, BitVec.toNat_or, Nat.testBit_or, BitVec.toNat_ofNat, Nat.testBit_mod_two_pow, Nat.testBit_two_pow_self, hb]
  simp

/-- An event raised has its bit. -/
theorem Work.raise_bit (p b : Nat) (w : Work) (hb : b < 32) : bit ((w.raise p b).page p).evt.toNat b = true := by
  show bit ((eventWith (signal 11) p b 0 0 w).page p).evt.toNat b = true
  unfold eventWith
  split
  · rename_i h
    split
    · exact h
    · exact (SigOnly.signal 11 (.ev p 4 0 0) w).evt_bit h
  · have hm := Work.markEvt_bit p b w hb
    have hw : SigOnly (w.markEvt p b) (watchWith (signal 11) p b (w.markEvt p b)) := SigOnly.watchWith (SigOnly.signal 11) _ _ _
    split
    · exact (hw.trans (SigOnly.deliverWith (SigOnly.signal 11) _ _ _ _ _)).evt_bit hm
    · exact hw.evt_bit hm

/-! ### Runs -/

/-- Every run keeps the memory's canonical form. -/
theorem State.run_memWf (s : State) (f : Work → Work) (h : s.memWf) : (s.run f).memWf := Memory.wf_writeAll _ _ h
theorem State.runTime_memWf (s : State) (f : Work → Work) (h : s.memWf) : (s.runTime f).memWf := Memory.wf_writeAll _ _ h
theorem State.runNv_memWf (s : State) (f : Work → Work) (h : s.memWf) : (s.runNv f).memWf := Memory.wf_writeAll _ _ h

end Sys2Proof.Machine
end

