-- ==== Sys2Proof/Laws/Copies.lean ====
section
/-!
SUPPORT. Copies.lean: what copying whole lines leaves (R156, R185), and that a REPLACE after it is judged as before it (R177).
-/
namespace Sys2Proof.Machine

/-- A number reads the same where its bytes do. -/
theorem Work.le_congr (w w' : Work) : ∀ (n a : Nat), (∀ i, i < n → w'.rd (a + i) = w.rd (a + i)) → w'.le a n = w.le a n := by
  have h : ∀ (n a : Nat), (∀ i, i < n → w'.rd (a + i) = w.rd (a + i)) → w'.rdN a n = w.rdN a n := by
    intro n
    induction n with
    | zero => intro a _; rfl
    | succ n ih =>
      intro a h
      simp only [Work.rdN]
      rw [ih (a + 1) (fun i hi => by have := h (i + 1) (by omega); rwa [show a + (i + 1) = a + 1 + i by omega] at this), show w'.rd a = w.rd a from h 0 (by omega)]
  intro n a g
  simp only [Work.le, h n a g]

/-- What a change of bytes of [lo, hi) and of counters leaves; `still`: no unit's gate or die is noted. -/
structure Copied (lo hi : Nat) (w w' : Work) : Prop where
  pool : w'.dev.pool = w.dev.pool
  regs : w'.dev.regs = w.dev.regs
  rd : ∀ c, c < lo ∨ hi ≤ c → w'.rd c = w.rd c
  still : w.at_ = none ∧ w.gate = false → w'.at_ = none ∧ w'.gate = false

/-- Without a unit's die nothing is carried over the links. -/
theorem Work.tierLinks_none {w : Work} (h : w.at_ = none) (l : List Nat) (read : Bool) : w.tierLinks l read = w := by
  unfold Work.tierLinks
  rw [h]

/-- One aligned line. -/
theorem linesIn_one (a : Nat) (ha : a % 64 = 0) : linesIn a 64 = [a] := by
  have e : (a + 64 - 1) / 64 - a / 64 + 1 = 1 := by omega
  have e2 : (a / 64 + 0) * 64 = a := by omega
  unfold linesIn
  rw [if_neg (by decide), e, List.range_one, List.map_cons, List.map_nil, e2]

/-- A line without errors is found as it is. -/
theorem Work.decodeLine_clean {w : Work} {a : Nat} (h : w.rd (poisonA a) = 0) : w.decodeLine a = w := by
  unfold Work.decodeLine
  rw [h]
  rfl

/-- Reading a line without errors counts, and changes neither a register nor a byte. -/
theorem Work.readLines_clean (w : Work) (a : Nat) (ha : a % 64 = 0) (hs : w.at_ = none ∧ w.gate = false) (h : w.rd (poisonA a) = 0) :
    Copied 0 0 w (w.readLines a 64) := by
  unfold Work.readLines
  split
  · exact ⟨rfl, rfl, fun _ _ => rfl, id⟩
  · dsimp only
    rw [linesIn_one a ha, hs.2, Work.tierLinks_none hs.1]
    have h2 : (w.count (w.memPage a) 4 64).rd (poisonA a) = 0 := h
    rw [List.foldl_cons, List.foldl_nil, Work.decodeLine_clean h2]
    exact ⟨rfl, rfl, fun _ _ => rfl, id⟩

/-- Bytes written change nothing of the device. -/
theorem Work.wrs_dev : ∀ (l : List Byte) (a : Nat) (w : Work), (Work.wrs a l w).dev = w.dev ∧ (Work.wrs a l w).at_ = w.at_ ∧ (Work.wrs a l w).gate = w.gate
  | [], _, _ => ⟨rfl, rfl, rfl⟩
  | _ :: l, a, w => by rw [Work.wrs]; exact Work.wrs_dev l (a + 1) _

/-- A whole line without errors stored: its bytes, and a counter. -/
theorem Work.store_clean (w : Work) (a : Nat) (data : List Byte) (hl : data.length = 64) (ha : a % 64 = 0) (hb : a + 64 ≤ 2 ^ 64)
    (hs : w.at_ = none ∧ w.gate = false) (h : w.rd (poisonA a) = 0) : Copied a (a + 64) w (w.store a data) := by
  have hr : ∀ c, c < a ∨ a + 64 ≤ c → (Work.wrs a data w).rd c = w.rd c := fun c hc => Work.rd_wrs_other data w a c (by rw [hl]; exact hc)
  have hd := Work.wrs_dev data a w
  have hp : ((Work.wrs a data w).count ((Work.wrs a data w).memPage a) 5 64).rd (poisonA a) = 0 := by
    show (Work.wrs a data w).rd (poisonA a) = 0
    rw [hr _ (by unfold poisonA; split <;> omega), h]
  unfold Work.store
  dsimp only
  rw [hl, if_neg (by decide), linesIn_one a ha, Work.tierLinks_none (hd.2.1.trans hs.1), List.foldl_cons, List.foldl_nil,
    if_pos ⟨Nat.le_refl _, Nat.le_refl _⟩, if_pos hp]
  refine ⟨?_, ?_, hr, fun _ => ⟨hd.2.1.trans hs.1, hd.2.2.trans hs.2⟩⟩
  · show (Work.wrs a data w).dev.pool = _; rw [hd.1]
  · show (Work.wrs a data w).dev.regs = _; rw [hd.1]

/-- Lines without errors copied: bytes of the destination, and counters. -/
theorem Work.copyLines_clean : ∀ (n src dst : Nat) (w : Work), src % 64 = 0 → dst % 64 = 0 → dst + 64 * n ≤ 2 ^ 64 → w.at_ = none ∧ w.gate = false →
    (∀ i, i < n → w.rd (poisonA (src + 64 * i)) = 0 ∧ w.rd (poisonA (dst + 64 * i)) = 0) → Copied dst (dst + 64 * n) w (w.copyLines src dst n) := by
  intro n
  induction n with
  | zero => intros; exact ⟨rfl, rfl, fun _ _ => rfl, id⟩
  | succ n ih =>
    intro src dst w hs hd hb hg hp
    have h0 := hp 0 (by omega)
    simp only [Nat.mul_zero, Nat.add_zero] at h0
    have hr := Work.readLines_clean w src hs hg h0.1
    have hq : (w.readLines src 64).rd (poisonA dst) = 0 := (hr.rd _ (by omega)).trans h0.2
    have hlen : ∀ (n a : Nat), (w.rdN a n).length = n := by
      intro n; induction n with
      | zero => intro a; rfl
      | succ n ih => intro a; simp [Work.rdN, ih]
    have hst := Work.store_clean (w.readLines src 64) dst (w.rdN src 64) (hlen _ _) hd (by omega) (hr.still hg) hq
    have key : ∀ a, ((w.readLines src 64).store dst (w.rdN src 64)).rd (poisonA a) = w.rd (poisonA a) := by
      intro a
      rw [hst.rd _ (by unfold poisonA; split <;> omega), hr.rd _ (by omega)]
    have := ih (src + 64) (dst + 64) ((w.readLines src 64).store dst (w.rdN src 64)) (by omega) (by omega) (by omega) (hst.still (hr.still hg))
      (fun i hi => by
        rw [key, key]; have := hp (i + 1) (by omega)
        rwa [show src + 64 * (i + 1) = src + 64 + 64 * i by omega, show dst + 64 * (i + 1) = dst + 64 + 64 * i by omega] at this)
    have hb0 : w.poisonAt src = false := by unfold Work.poisonAt; rw [h0.1]; rfl
    have hc : w.copyLines src dst (n + 1) = Work.copyLines (src + 64) (dst + 64) n ((w.readLines src 64).store dst (w.rdN src 64)) := by
      simp only [Work.copyLines, hb0, Bool.false_eq_true, if_false]
    rw [hc]
    exact ⟨this.pool.trans (hst.pool.trans hr.pool), this.regs.trans (hst.regs.trans hr.regs),
      fun c hc => by rw [this.rd c (by omega), hst.rd c (by omega), hr.rd c (by omega)], fun _ => this.still (hst.still (hr.still hg))⟩

/-- A fold of steps that leave the pools leaves them. -/
theorem foldl_pool {α : Type} (f : Work → α → Work) (hf : ∀ w i, (f w i).dev.pool = w.dev.pool) : ∀ (l : List α) (w : Work), (l.foldl f w).dev.pool = w.dev.pool
  | [], _ => rfl
  | b :: l, w => by rw [List.foldl_cons, foldl_pool f hf l, hf]

/-- Transfers counted on links leave the pools. -/
theorem Work.onLinks_pool (w : Work) (l : Option (List (Nat × Nat))) (k : Nat) : (w.onLinks l k).dev.pool = w.dev.pool := by
  unfold Work.onLinks
  split <;> rfl

theorem Work.tierLinks_pool (w : Work) (l : List Nat) (read : Bool) : (w.tierLinks l read).dev.pool = w.dev.pool := by
  unfold Work.tierLinks
  split
  · rfl
  · refine foldl_pool _ (fun w q => ?_) _ _
    dsimp only
    split
    · rfl
    · unfold Work.carry
      split
      · rw [Work.onLinks_pool, Work.onLinks_pool]
      · rw [Work.onLinks_pool]

/-- Signals leave the pools. -/
theorem SigOnly.pool {w w' : Work} (h : SigOnly w w') : w'.dev.pool = w.dev.pool := by
  have := congrArg Dev.pool h.dev
  exact this

theorem Work.raise_pool (w : Work) (p b : Nat) : (w.raise p b).dev.pool = w.dev.pool := (SigOnly.raise w p b).pool
/-- Registers, counters and bytes are not the pools. -/
theorem Work.set_pool (w : Work) (p : Nat) (f : Fld) (v : Nat) : (w.set p f v).dev.pool = w.dev.pool := rfl
theorem Work.count_pool (w : Work) (p n k : Nat) : (w.count p n k).dev.pool = w.dev.pool := rfl
theorem Work.wrB_pool (w : Work) (a : Nat) (b : Byte) : (w.wrB a b).dev.pool = w.dev.pool := rfl

/-- What an access finds at a line leaves the pools. -/
theorem Work.decodeLine_pool (w : Work) (a : Nat) : (w.decodeLine a).dev.pool = w.dev.pool := by
  have he : ∀ u, (w.errAddr a u).dev.pool = w.dev.pool := fun u => by
    unfold Work.errAddr
    dsimp only
    rw [Work.set_pool, Work.set_pool, Work.set_pool]
  have hu : (w.uncLine a).dev.pool = w.dev.pool := by
    unfold Work.uncLine
    rw [Work.raise_pool, Work.count_pool, he]
  unfold Work.decodeLine
  split
  · rfl
  · exact hu
  · rw [Work.setPoison, Work.wrB_pool, hu]
  · unfold Work.corrLine
    dsimp only
    have hc : ∀ v : Work, v.dev.pool = w.dev.pool → (((v.errAddr a 0).count (v.memPage a) 0 1).setPoison a false).dev.pool = w.dev.pool := fun v hv => by
      rw [Work.setPoison, Work.wrB_pool, Work.count_pool, Work.errAddr]
      rw [Work.set_pool, Work.set_pool, Work.set_pool, hv]
    split
    · exact hc _ (Work.count_pool _ _ _ _)
    · exact hc _ rfl

/-- A store leaves the pools. -/
theorem Work.store_pool (w : Work) (a : Nat) (l : List Byte) : (w.store a l).dev.pool = w.dev.pool := by
  unfold Work.store
  dsimp only
  split
  · rfl
  · rw [foldl_pool]
    · rw [Work.tierLinks_pool, (Work.wrs_dev l a w).1]
    · intro w i
      split
      · split <;> rfl
      · split
        · rfl
        · rw [Work.decodeLine_pool]; rfl

/-- An edit logs at most one note. -/
theorem Work.tEdit_log (rq note a n v : Nat) (w : Work) : ((w.tEdit rq note a n v).tab rq).log.length ≤ (w.tab rq).log.length + 1 := by
  unfold Work.tEdit Work.storeLE
  have : ∀ (x : Work) (a : Nat) (l : List Byte), (x.store a l).tab rq = x.tab rq := by
    intro x a l; unfold Work.tab; rw [Work.store_pool]
  dsimp only
  rw [this]
  have : ∀ (f : Tab → Tab), (w.modTab rq f).tab rq = f (w.tab rq) := by
    intro f; unfold Work.modTab Work.tab; simp [Work.pool, Work.d]
  rw [this]
  dsimp only
  split <;> simp

/-- REPLACE of the page of a table with one plane is DONE where the table and the pools meet its checks, whatever was copied beyond the table (R177, R185). -/
theorem Work.poolReplace_done (rq row k lo hi : Nat) (P : Nat) (w0 w : Work) (h : Copied lo hi w0 w) (hr : (w0.tab rq).reg = true) (ho : (w0.tab rq).oldOpen = false)
    (hd : (w0.tab rq).dropping = false) (hl : (w0.tab rq).log = []) (ha : (w0.tab rq).addr + 128 ≤ lo)
    (hp : w0.tPlanes (w0.tab rq) = 1) (hrow : row < w0.tRows (w0.tab rq) (w0.tab rq).shadow) (hk : (w0.tRowOf (w0.tab rq) (w0.tab rq).shadow row).1 = k)
    (hc : SMap.at (0, 0) w0.dev.pool.refs (P / 4096) = (1, k))
    (hv : w0.regValid (w0.tTag (w0.tab rq) 0) = true) (hq : w0.regPart (w0.tTag (w0.tab rq) 0) = (w0.tab rq).part)
    (hlo : w0.regLow (w0.tTag (w0.tab rq) 0) ≤ P) (hhi : P < w0.regEnd (w0.tTag (w0.tab rq) 0)) (hP : P % 4096 = 0) :
    (Work.poolReplace rq ((w0.tab rq).gen + 1) row [P] w).1 = .done := by
  have ht : w.tab rq = w0.tab rq := by unfold Work.tab; rw [h.pool]
  have hg : ∀ p f, w.get p f = w0.get p f := by intro p f; unfold Work.get Work.reg; rw [h.regs]
  generalize ht0 : w0.tab rq = t at *
  have hb : t.shadow < 2 := Nat.mod_lt _ (by omega)
  have hth : ∀ off n, off + n ≤ 128 → w.th t off n = w0.th t off n := by
    intro off n ho; exact Work.le_congr _ _ _ _ fun i hi => h.rd _ (Or.inl (by omega))
  have hpl : w.tPlanes t = 1 := by unfold Work.tPlanes at *; rw [hth _ _ (by omega)]; exact hp
  have htg : w.tTag t 0 = w0.tTag t 0 := by unfold Work.tTag; rw [hth _ _ (by omega)]
  have hrs : w.tRows t t.shadow = w0.tRows t t.shadow := by unfold Work.tRows; rw [hth _ _ (by omega)]
  have hfr : w.tFr t t.shadow = w0.tFr t t.shadow := by
    funext k; unfold Work.tFr; split
    · exact hrs
    · exact hth _ _ (by omega)
  have hro : w.tRowOf t t.shadow row = w0.tRowOf t t.shadow row := by unfold Work.tRowOf; rw [hfr]
  have e1 : ∀ x, w.regValid x = w0.regValid x := by intro x; unfold Work.regValid; rw [hg]
  have e2 : ∀ x, w.regPart x = w0.regPart x := by intro x; unfold Work.regPart; rw [hg]
  have e3 : ∀ x, w.regLow x = w0.regLow x := by intro x; unfold Work.regLow Work.regFirst Work.regGrans; rw [hg, hg]
  have e4 : ∀ x, w.regEnd x = w0.regEnd x := by intro x; unfold Work.regEnd Work.regFirst Work.regGrans; rw [hg, hg]
  unfold Work.poolReplace Work.poolEdit
  simp only [ht, hr, ho, hd, hpl, htg, hrs, hro, e1, e2, e3, e4, h.pool, hc, hk, List.range_one, List.map_cons, List.map_nil, List.all_cons, List.all_nil,
    List.getD_cons_zero, List.length_cons, List.length_nil, hv, hq, hP, decide_eq_true hlo, decide_eq_true hhi]
  have : ¬ (row ≥ w0.tRows t t.shadow) := by omega
  simp [this]
  have fold : ∀ (F : Work → Nat → Work), (∀ w j, ((F w j).tab rq).log.length ≤ (w.tab rq).log.length + 1) → ∀ (l : List Nat) (w : Work),
      ((l.foldl F w).tab rq).log.length ≤ (w.tab rq).log.length + l.length := by
    intro F hF l
    induction l with
    | nil => intro w; simp
    | cons b l ih => intro w; rw [List.foldl_cons, List.length_cons]; have := ih (F w b); have := hF w b; omega
  have hm : ∀ (f : Tab → Tab), (w.modTab rq f).tab rq = f (w.tab rq) := by
    intro f; unfold Work.modTab Work.tab; simp [Work.pool, Work.d]
  rw [if_neg]
  refine Nat.not_lt.mpr (Nat.le_trans (fold _ (fun w j => Work.tEdit_log rq _ _ _ _ w) _ _) ?_)
  rw [hm, ht, List.length_range]
  simp only [hl, List.length_nil, Nat.zero_add]
  exact Nat.le_trans (Nat.le_of_eq hpl) (by omega)

end Sys2Proof.Machine
end

