-- ==== Sys2Proof/WellFormed.lean ====
section
/-!
DEFINITION. WellFormed.lean: the operands of a command lie in the ranges the manual gives them.

A meaning is total: it says what happens for operands outside these ranges too (mostly nothing). The checks say which commands the package can meet.
-/
namespace Sys2Proof.WF

/-- A caller: virtual functions are 1–64 (R393), sequencer cores 0–3 of dies 0–15 (Table 1.4). -/
def caller : Caller → Bool
  | .pf => true
  | .vf n => decide (1 ≤ n) && decide (n ≤ 64)
  | .kmc => true
  | .seq d i => decide (d < 16) && decide (i < 4)
/-- A page of the register space: 20 dies of 2048 pages (R43). -/
def page (p : Nat) : Bool := decide (p < 40960)
/-- An issue of a command. -/
def issue (q : Issue) : Bool := caller q.caller && page q.page
/-- A byte offset of the register space (R43). -/
def off (o : Nat) : Bool := decide (o < 40960 * 4096)
/-- An aligned register offset, or one of BAR2 from 2^28 on (log entry 115). -/
def wordOff (o : Nat) : Bool := (off o || (decide (2 ^ 28 ≤ o) && decide (o < 2 ^ 28 + 2048))) && o % 4 == 0
/-- A compute die (R8). -/
def die (d : Nat) : Bool := decide (d < 16)
/-- Any die of the package (R8). -/
def anyDie (d : Nat) : Bool := decide (d < 20)
/-- A hub (R8). -/
def hub (h : Nat) : Bool := decide (h < 4)
/-- A DDL instance (Table 1.3). -/
def ddl (d i : Nat) : Bool := anyDie d && (if d < 16 then decide (i < 5) else decide (i < 6))
/-- A cell site of a die (R47). -/
def site (d s : Nat) : Bool := die d && decide (s < 256)
/-- A configuration slot (R48). -/
def slot (i : Nat) : Bool := decide (i < 8)
/-- A network: vector, scalar, control (R52). -/
def net (n : Nat) : Bool := decide (n < 3)
/-- A context id (R323). -/
def ctx (c : Nat) : Bool := decide (c < 256)
/-- A partition (R316, Table 18.1). -/
def part (p : Nat) : Bool := decide (p < 64)
/-- A request index (R274). -/
def rq (r : Nat) : Bool := decide (r < 8192)
/-- A region tag (R169). -/
def tag (t : Nat) : Bool := decide (t < 16)
/-- A memory cell of a die (Table 1.4). -/
def mc (d i : Nat) : Bool := die d && decide (i < 128)
/-- A Hawkmoth engine, a Skipper, a Teasel engine (Tables 1.4, 1.5). -/
def eng (d e : Nat) : Bool := die d && decide (e < 8)
def skp (d i : Nat) : Bool := die d && decide (i < 32)
def tsl (h i : Nat) : Bool := hub h && decide (i < 8)
/-- A GYL port: hub and instance (Table 1.5). -/
def port (h i : Nat) : Bool := hub h && decide (i < 2)
/-- A lane mask of a GYL port: up to 40 lanes (R337). -/
def lanes (l : Nat) : Bool := decide (l < 2 ^ 40)
/-- A package id (XLT_PKGID, 12 bits). -/
def pkg (p : Nat) : Bool := decide (p < 2 ^ 12)
/-- A credit account (R135). -/
def acc (a : Account) : Bool := die a.die && ctx a.ctx && part a.part && mc a.tdie a.tmc && decide (a.twin < 16)
/-- A task descriptor is 64 bytes (R235). -/
def task (t : Task) : Bool := t.words.length == 16
/-- A message of a virtual channel (Table 19.5). -/
def msg (m : Msg) : Bool := decide (m.vc < 8) && part m.part && decide (m.lvl < 2) && decide (m.status < 256)
/-- A flit and its messages. -/
def flit (f : Flit) : Bool := f.msgs.all msg
/-- A collective message (R355). -/
def coll (m : CollMsg) : Bool := part m.part && decide (m.tag < 4)
/-- A model entry (R300). -/
def model (m : Nat) : Bool := decide (m < 4096)
/-- A function of the endpoint: 0 the PF, 1–64 the VFs (R393). -/
def fn (f : Nat) : Bool := decide (f ≤ 64)
/-- A voltage domain (Table 24.2). -/
def rail (r : Nat) : Bool := decide (r < 28)

end Sys2Proof.WF

namespace Sys2Proof

open WF in
/-- The operands of a command are well-formed. -/
def Instr.wf : Instr → Bool
  | .registerWrite b o _ => caller b && wordOff o
  | .latchingLowRead b o => caller b && wordOff o
  | .regAccessMisaligned b o n => caller b && off o && (o % 4 != 0 || n != 4)
  | .vfWriteDenied v o _ => caller (.vf v) && wordOff o
  | .pageEnable b p _ => caller b && page p
  | .pageDisable b p _ => caller b && page p
  | .pageQuiesce b p _ => caller b && page p
  | .pageUnquiesce b p _ => caller b && page p
  | .pageBindLock b p _ => caller b && page p
  | .pageQuiesced p => page p
  | .pageEvtClear b p _ => caller b && page p
  | .pageEvtenWrite b p _ => caller b && page p
  | .errlogClear b p _ => caller b && page p
  | .cmdCompletion p => page p
  | .cmdNop q => issue q
  | .clrCounters q => issue q
  | .ddlLaneRepair d i => ddl d i
  | .ddlLinkRemove d i => ddl d i
  | .rtmIntervalEnd d _ t mv => die d && decide (t < 4096) && decide (mv < 4096)
  | .rtmTempHigh d t => die d && decide (t < 4096)
  | .rtmCalibration d => die d
  | .tbclkLoss => true
  | .tbclkReturn => true
  | .tbclkQualified => true
  | .tbExchange _ _ _ _ => true
  | .timeMessage p _ _ _ _ => decide (p < 16)
  | .setTime q => issue q
  | .tbStepMessage p _ => decide (p < 16)
  | .transferArrive d s n o i => site d s && net n && decide (o < 16) && slot i
  | .switchForward d s n c i => site d s && net n && decide (c < 16) && slot i
  | .steerFire d s n i => site d s && decide (n < 2) && slot i
  | .microNop d s => site d s
  | .mov d s => site d s
  | .waitt d s => site d s
  | .ldbound d s => site d s
  | .mma d s => site d s
  | .mmaInit d s => site d s
  | .opbLoad d s => site d s
  | .accDrain d s => site d s
  | .accClear d s => site d s
  | .vop d s => site d s
  | .mrd d s => site d s
  | .mwr d s => site d s
  | .mrdn d s => site d s
  | .mwrn d s => site d s
  | .mrdIdx d s => site d s
  | .skipz d s => site d s
  | .foldSlotSwitch d s => site d s
  | .cellFoldWrite b o _ => caller b && wordOff o
  | .drainTaken d s i n => site d s && slot i && decide (n < 2)
  | .fenceTaken d s i n => site d s && slot i && decide (n < 2)
  | .slotDrained d s i => site d s && slot i
  | .cfgLoad q => issue q
  | .cfgLoadDone p => page p
  | .drain q => issue q
  | .drainInject p => page p
  | .epochBump q => issue q
  | .epochBumpTaken d s => site d s
  | .fenceRel q => issue q
  | .cfgClear q => issue q
  | .dldStall d c => die d && ctx c
  | .spillComplete d => die d
  | .bankRefill d s i n k => site d s && slot i && net n && decide (k < 4)
  | .lnIssue q => issue q
  | .lnIssueResume p => page p
  | .mcSetpair q => issue q
  | .mcOpenwin q => issue q
  | .mcClosewin q => issue q
  | .mcWinret q => issue q
  | .remoteWrite d c a _ => die d && ctx c && decide (a < 2 ^ 64)
  | .creditReq a _ => acc a
  | .creditGrant a _ => acc a
  | .remoteLine a _ _ => acc a
  | .winRevoke a => acc a
  | .winRevokeConfirm a _ => acc a
  | .winCloseTimeout d i w => mc d i && decide (w < 16)
  | .xltT3mapWrite b o _ => caller b && wordOff o
  | .t3Completion _ st _ => decide (st < 4)
  | .t3CompletionTimeout _ => true
  | .hbmScrub g _ _ => decide (g < 960)
  | .bulkScrub _ _ _ => true
  | .bulkChannelFail c => decide (c < 16)
  | .memTempHigh p _ => page p
  | .stackLoss s => decide (s < 20)
  | .pfArm q => issue q
  | .pfAdvance q => issue q
  | .pfDescStart p => page p
  | .pfDescComplete p _ => page p
  | .stallNote p => page p
  | .stallLimit p => page p
  | .share r _ s _ _ => decide (r.ctx < 256) && rq r.rq && rq s
  | .grow r _ _ => decide (r.ctx < 256) && rq r.rq
  | .replace r _ _ _ => decide (r.ctx < 256) && rq r.rq
  | .setpaged r _ _ => decide (r.ctx < 256) && rq r.rq
  | .dropall r _ => decide (r.ctx < 256) && rq r.rq
  | .generationRetire r => rq r
  | .pageZeroDone t _ => tag t
  | .pageCompaction r _ => rq r
  | .pplRegionSet q => issue q
  | .pplRegionClear q => issue q
  | .hwkRun q => issue q
  | .hwkJobTake d e => eng d e
  | .hwkSteal d e vd ve => eng d e && eng vd ve
  | .hwkBlock d e => eng d e
  | .hwkTaskComplete d e => eng d e
  | .hwkListDone p => page p
  | .rltForm q => issue q
  | .rltFormReply p _ _ _ _ _ _ _ => page p
  | .rltRun q => issue q
  | .rltBlockArrive p _ => page p
  | .rltFree p _ => page p
  | .rltStateArrive p _ => page p
  | .rltCommitNotice p _ => page p
  | .rltAbandon q => issue q
  | .rltAbandonMsg p => page p
  | .rltTimeout p => page p
  | .rltLeave q => issue q
  | .skpPush q => issue q
  | .skpInternalPush d i t => skp d i && task t
  | .skpSteal d i => skp d i
  | .copy d i => skp d i
  | .gather d i => skp d i
  | .scatter d i => skp d i
  | .kvScatter d i => skp d i
  | .stageFlush d i => skp d i
  | .pageSplit d i => skp d i
  | .expPack d i => skp d i
  | .expUnpack d i => skp d i
  | .reduce d i => skp d i
  | .rltMerge d i => skp d i
  | .fill d i => skp d i
  | .skpTaskComplete d i => skp d i
  | .tslRun q => issue q
  | .tslRow h i => tsl h i
  | .tslListDone p => page p
  | .exrRoute q => issue q
  | .exrRouteServe h => hub h
  | .dbSubtail b p _ => caller b && part p
  | .dbEvhead b p _ => caller b && part p
  | .dbTokhead b p _ => caller b && part p
  | .dbWincfg b p _ => caller b && part p
  | .submit p => part p
  | .cancel p => part p
  | .pause p => part p
  | .resume p => part p
  | .release p => part p
  | .ringSet p => part p
  | .rqtDump q => issue q
  | .srvForm q => issue q
  | .srvSample q => issue q
  | .tenSet q => issue q
  | .tenGet q => issue q
  | .rqtMigrate q => issue q
  | .migrateHold r s p => rq r && pkg s && part p
  | .migrateReply _ _ _ => true
  | .migratePublish _ _ => true
  | .migrateRelease r _ => rq r
  | .tokenPublish c => ctx c
  | .ldrStore q => issue q
  | .mdlQuery q => issue q
  | .mdlLoad q => issue q
  | .mdlOpen q => issue q
  | .mdlReplace q => issue q
  | .mdlInplaceLayer m _ => model m
  | .mdlRollingGroup m _ => model m
  | .mdlRetire m => model m
  | .mdlUnload q => issue q
  | .adpLoad q => issue q
  | .adpDrop q => issue q
  | .bndCommit q => issue q
  | .bndCommitStamp => true
  | .bndQuery q => issue q
  | .bndSpareWrite b o _ => caller b && wordOff o
  | .granuleZeroDone t _ => t == 1 || t == 2
  | .vfFlr v => caller (.vf v)
  | .ctxCreate q => issue q
  | .ctxStart q => issue q
  | .ctxEnd q => issue q
  | .ctxDeadline q => issue q
  | .ctxQuery q => issue q
  | .spwLoad q => issue q
  | .spwStart q => issue q
  | .spwStop q => issue q
  | .tenWeight q => issue q
  | .spwWindowStart => true
  | .spwLeadPoint => true
  | .spwTurnEnd c => ctx c
  | .contextSaved c => ctx c
  | .contextRestored c => ctx c
  | .spwHeartbeatLoss => true
  | .spwTakeover => true
  | .gylLinkEnable b h i => caller b && port h i
  | .gylLinkDisable b h i => caller b && port h i
  | .gylTrainDone h i l _ => port h i && lanes l
  | .gylTrainTimeout h i => port h i
  | .gylFecLockLoss h i => port h i
  | .gylFlitRx h i f => port h i && flit f
  | .gylAckTimeout h i => port h i
  | .gylRetrain q => issue q
  | .gylRetrainDone h i l => port h i && lanes l
  | .gylRetrainTimeout h i => port h i
  | .gylScan q => issue q
  | .gylScanEnd h i _ => port h i
  | .gylLaneFail h i l => port h i && decide (l < 40)
  | .gylLaneRemoval h i => port h i
  | .gylForward h i m => hub h && decide (i < 3) && msg m
  | .gylRd m => msg m
  | .gylWr m => msg m
  | .gylAtom m => msg m
  | .gylRdrsp m => msg m
  | .gylWrack m => msg m
  | .gylNack m => msg m
  | .peerRegAccess _ _ o _ => wordOff o
  | .peerFatal h i => port h i
  | .collRun q => issue q
  | .collArrive p => page p
  | .collWait p => page p
  | .collSend p => page p
  | .collRecv p => page p
  | .collReduce p => page p
  | .collBcast p => page p
  | .collFuse p => page p
  | .collFence p => page p
  | .collJump p => page p
  | .collEnd p => page p
  | .collMsgReceive p m => page p && coll m
  | .collAbortMsg p _ => page p
  | .collTimeout p => page p
  | .stepCommit q => issue q
  | .commitMirrorRecords c => ctx c
  | .commitStamp c => ctx c
  | .stepAbandon q => issue q
  | .containedFault c p e _ => ctx c && page p && decide (e < 256)
  | .teardownDone c => ctx c
  | .vcoreOutOfRange d => die d
  | .dieOvertemp d t => die d && decide (t < 4096)
  | .spareCommit d => die d
  | .railOutOfRange r => rail r
  | .pkgFatal _ => true
  | .rqtAdopt q => issue q
  | .campionRequest a _ => decide (1 ≤ a) && decide (a ≤ 9)
  | .campionAdmit => true
  | .cmpPendLong => true
  | .snpTrig b _ => caller b
  | .snpTimeTrigger => true
  | .snapinEdge => true
  | .snapoutPulseEnd => true
  | .snpRelease b _ => caller b
  | .snpDump q => issue q
  | .pcieConfigRequest f _ _ _ => fn f
  | .bar4Access f o _ _ => fn f && decide (o < 2 ^ 40)
  | .pcieLinkUp sp wd _ => decide (sp < 16) && decide (wd < 32)
  | .pcieLinkDown => true
  | .pfFlr => true
  | .kmcBootDone _ _ _ _ _ _ => true
  | .kmcStage q => issue q
  | .pldmFwUpdate _ _ _ => true
  | .kmcHeartbeatTimeout => true
  | .i3cEntdaa a => decide (a < 128)
  | .pldmRequest t c => decide (t < 64) && decide (c < 256)
  | .sensorRefresh => true
  | .avsReadback h _ => hub h
  | .avsTimeout d => die d
  | .tapBypass => true
  | .tapIdcode => true
  | .tapSample => true
  | .tapExtest => true
  | .tapExtestPulse => true
  | .tapExtestTrain => true
  | .tapPreload => true
  | .powerOnReset => true
  | .porRelease => true
  | .computeDieReady d _ => die d
  | .hbmTrainingEnd l => l.all fun s => decide (s < 20)
  | .bulkTrainingEnd l => l.length == 16
  | .deviceReady => true
  | .warmReset => true
  | .warmResetRelease => true
  | .pwrDomain q => issue q
  | .pwrSetlimit q => issue q
  | .pwrDiereset q => issue q
  | .capPeriod => true
  | .railSettled d mv => die d && decide (mv < 4096)
  | .pwrIocfgWrite b o _ => caller b && wordOff o
  | .pinInputEdge p _ _ => decide (p < 5)
  | .refclkLoss => true
  | .dieFatalUncError d _ => die d
  | .rltFormTimeout p => page p
  | .msixVectorUnmask f v => fn f && decide (v < 2048)
  | .perstAssert => true
  | .perstRelease => true

end Sys2Proof
end

