-- ==== Sys2Proof/Tests/Slice0.lean ====
section
/-!
SUPPORT. Slice0.lean: tests. Ill-formed commands are refused; each clause of each statement has a concrete state and operands that meet its
hypotheses together; small effects of single commands, with values worked out from the spec.
-/
open Sys2Proof Sys2Proof.Machine
set_option Elab.async false
namespace Sys2Proof.Tests

/-! ### States -/

/-- A machine in operation: every domain on, READY, nothing else; then `f`. -/
def world (f : Work → Work) : State :=
  State.reset.run fun w =>
    f (((w.pwr fun q => { q with porst := false }).set (pwrPage 16) R.PWR_DOMAINS_DON 0xFFFFFFF).set pciPage R.PCI_STS_READY 1)

/-- The timebase at a number of nanoseconds. -/
def atTime (n : Nat) (s : State) : State := { s with now := BitVec.ofNat 64 n }

/-- A page in a state. -/
def inState (p : Nat) (st : BlockState) (w : Work) : Work := w.modPage p fun g => { g with state := st }

/-- A page of partition 0 and context c in a state. -/
def owned (p c : Nat) (st : BlockState) (w : Work) : Work := w.modPage p fun g => { g with state := st, owner := ownerWord (some 0) (some c) }

/-- The arguments of a page. -/
def withArgs (p : Nat) (l : List Nat) (w : Work) : Work :=
  w.modPage p fun g => { g with args := (l.map fun n => BitVec.ofNat 32 n) ++ List.replicate (12 - l.length) 0#32 }

/-- A command outstanding on a page. -/
def outstanding (p code : Nat) (fin : Option Status) (w : Work) : Work :=
  w.modPage p fun g => { g with cmdSts := 0x80000101#32, outst := some { code := code, tag := 0, caller := .pf, args := List.replicate 12 0, stamp := 0, final := fin } }

/-- A context in a state. -/
def ctxIn (c : Nat) (st : CtxState) (w : Work) : Work := w.modCtx c fun x => { x with state := st }

/-- Issues by the physical function and by a VF. -/
def byPf (p : Nat) : Issue := { caller := .pf, page := p, hi := 0 }
def byVf (n p : Nat) : Issue := { caller := .vf n, page := p, hi := 0 }

/-- The cell at a site of die 0 runs for context 1. -/
def cellRun (site : Nat) (w : Work) : Work := owned (cellPage 0 site) 1 .running (ctxIn 1 .running w)

/-- A microinstruction: opcode, IMASK, OEN, IMM. -/
def micro (op imask oen imm : Nat) : Nat := op + imask * 2 ^ 17 + oen * 2 ^ 29 + imm * 2 ^ 54

/-- A cell of die 0 runs for context 1, its slot 0 LIVE at one microinstruction, with these queue banks; then `f`. -/
def cellWorld (site m : Nat) (banks : SMap (List Xfer)) (f : Work → Work) : State :=
  world fun w => f ((cellRun site w).modSlot (slotKey 0 site 0) fun s => { s with st := .live, mstore := SMap.put 0 [] 0 m, banks := banks })

/-- Tier-1 granule g is there and bound to partition 0. -/
def hasT1 (g : Nat) (w : Work) : Work :=
  (List.range 5).foldl (fun w i => w.set (hbcPage (g / 240) i) R.MEM_STS_INSET 1) (w.bnd fun b => { b with owner := SMap.put 0 b.owner (kT1 * 4096 + g) 1 })

/-- Context 1 of partition 0 runs with group 0 and SEQ 0 of die 0, whose page is in a state, and granule 0; then `f`. -/
def seqWorld (st : BlockState) (f : Work → Work) : State :=
  world fun w => f (hasT1 0 (owned (seqPage 0 0) 1 st (w.modCtx 1 fun x => { x with state := .running, groups := 1, seqs := 1 })))

/-- The SEQ page of that context. -/
def seq0 : Nat := seqPage 0 0

/-- A command of a SEQ page outstanding, accepted with these arguments. -/
def accepted (p code : Nat) (args : List Nat) (w : Work) : Work :=
  (withArgs p args w).modPage p fun g => { g with cmdSts := 0x80000101#32, outst := some { code := code, tag := 0, caller := .pf, args := g.args, stamp := 0, final := none } }

/-- That command. -/
def acceptedCmd (code : Nat) (args : List Nat) : Outst :=
  { code := code, tag := 0, caller := .pf, args := (args.map fun n => BitVec.ofNat 32 n) ++ List.replicate (12 - args.length) 0#32, stamp := 0, final := none }

/-- Page region 0, of partition 0, over granule 1 with TSHIFT 8 and these free pages; granules 0 to 2 are there. -/
def region0 (free : List (Nat × Nat)) (w : Work) : Work :=
  (((((hasT1 2 (hasT1 1 (hasT1 0 w))).set (pplPage 0) (R.PPL_RCFG_VALID.i 0) 1).set (pplPage 0) (R.PPL_RCFG_TSHIFT.i 0) 8).set (pplPage 0)
    (R.PPL_RGRAN_FIRST.i 0) 1).set (pplPage 0) (R.PPL_RGRAN_COUNT.i 0) 1).pool fun p => { p with regions := SMap.put {} p.regions 0 { free := free } }

/-- A page-table header of one plane at an address: pages of class 4, eight rows, region 0. -/
def header (a : Nat) (w : Work) : Work := (((w.wrLE (a + 4) 1 0x40).wrLE (a + 5) 1 0x44).wrLE (a + 6) 1 4).wrLE (a + 20) 2 8

/-- That header, and request rq registered with it. -/
def table (rq a : Nat) (t : Tab) (w : Work) : Work :=
  (header a w).pool fun p => { p with tabs := SMap.put {} p.tabs rq { t with reg := true, addr := a } }

/-- Bank b of the table at an address holds these entries, one row of class 4 each; their pages have count 1. -/
def bank (a b : Nat) (es : List Nat) (w : Work) : Work :=
  let w := (List.range 8).foldl (fun (w : Work) j => w.wrLE (a + 40 + 32 * b + 2 * j) 2 es.length) (w.wrLE (a + 36 + 32 * b) 2 es.length)
  (List.range es.length).foldl (fun (w : Work) i => w.wrLE (a + 128 + (b * 8 + i) * 8) 8 (es.getD i 0)) w

/-- A page of region 0 has a reference count. -/
def pageCount (a n : Nat) (w : Work) : Work := w.pool fun p => { p with refs := SMap.put (0, 0) p.refs (a / 4096) (n, 4) }

/-- Pages of region 0. -/
def pageA : Nat := gib + 2 ^ 20
def pageB : Nat := gib + 2 ^ 20 + 4096

/-! ### What is asked of the components of an optional tuple -/

theorem all2 {α β : Type} {o : Option (α × β)} {P : α → β → Prop} (h : ∀ y ∈ o, P y.1 y.2) : ∀ a b, o = some (a, b) → P a b := fun _ _ e => h _ e
theorem all4 {α β γ δ : Type} {o : Option (α × β × γ × δ)} {P : α → β → γ → δ → Prop} (h : ∀ y ∈ o, P y.1 y.2.1 y.2.2.1 y.2.2.2) :
    ∀ a b c d, o = some (a, b, c, d) → P a b c d := fun _ _ _ _ e => h _ e
theorem ex3 {α β γ : Type} {o : Option (α × β × γ)} {P : α → β → γ → Prop} (h : ∃ y ∈ o, P y.1 y.2.1 y.2.2) : ∃ a b c, o = some (a, b, c) ∧ P a b c :=
  let ⟨y, e, k⟩ := h
  ⟨y.1, y.2.1, y.2.2, e, k⟩

/-! ### Ill-formed commands -/

/-- One ill-formed term for each check of WellFormed. -/
theorem test_wf_caller : (Instr.registerWrite (.vf 65) 0 0).wf = false ∧ (Instr.snpTrig (.seq 16 0) 0).wf = false ∧ (Instr.snpTrig (.vf 0) 0).wf = false := by decide
theorem test_wf_page : (Instr.pageQuiesced 40960).wf = false ∧ (Instr.cmdNop { caller := .pf, page := 40960 }).wf = false := by decide
theorem test_wf_offset : (Instr.registerWrite .pf 2 0).wf = false ∧ (Instr.registerWrite .pf (40960 * 4096) 0).wf = false := by decide
theorem test_wf_misaligned : (Instr.regAccessMisaligned .pf 0 4).wf = false ∧ (Instr.regAccessMisaligned .pf 2 4).wf = true := by decide
theorem test_wf_die : (Instr.dldStall 16 0).wf = false ∧ (Instr.rtmCalibration 16).wf = false := by decide
theorem test_wf_ddl : (Instr.ddlLaneRepair 15 5).wf = false ∧ (Instr.ddlLaneRepair 16 6).wf = false ∧ (Instr.ddlLinkRemove 20 0).wf = false := by decide
theorem test_wf_code : (Instr.rtmTempHigh 0 4096).wf = false ∧ (Instr.railSettled 0 4096).wf = false := by decide
theorem test_wf_site : (Instr.mov 0 256).wf = false ∧ (Instr.slotDrained 0 0 8).wf = false ∧ (Instr.transferArrive 0 0 3 0 0).wf = false := by decide
theorem test_wf_ctx : (Instr.teardownDone 256).wf = false ∧ (Instr.containedFault 0 0 256 0).wf = false := by decide
theorem test_wf_part : (Instr.submit 64).wf = false ∧ (Instr.dbSubtail .pf 64 0).wf = false := by decide
theorem test_wf_request : (Instr.generationRetire 8192).wf = false ∧ (Instr.migrateHold 0 4096 0).wf = false := by decide
theorem test_wf_tag : (Instr.pageZeroDone 16 0).wf = false ∧ (Instr.granuleZeroDone 3 0).wf = false := by decide
theorem test_wf_account : (Instr.winRevoke ⟨0, 0, 0, 0, 0, 0, 128, 0⟩).wf = false ∧ (Instr.winRevoke ⟨0, 0, 0, 0, 0, 0, 0, 16⟩).wf = false := by decide
theorem test_wf_engines : (Instr.hwkBlock 0 8).wf = false ∧ (Instr.copy 0 32).wf = false ∧ (Instr.tslRow 4 0).wf = false ∧ (Instr.exrRouteServe 4).wf = false := by decide
theorem test_wf_task : (Instr.skpInternalPush 0 0 ⟨[]⟩).wf = false := by decide
theorem test_wf_link : (Instr.gylAckTimeout 0 2).wf = false ∧ (Instr.gylLaneFail 0 0 40).wf = false ∧ (Instr.gylRetrainDone 0 0 (2 ^ 40)).wf = false := by decide
theorem test_wf_models : (Instr.mdlRetire 4096).wf = false := by decide
theorem test_wf_endpoint : (Instr.msixVectorUnmask 65 0).wf = false ∧ (Instr.i3cEntdaa 128).wf = false ∧ (Instr.pcieLinkUp 6 32 true).wf = false := by decide
theorem test_wf_start : (Instr.hbmTrainingEnd [20]).wf = false ∧ (Instr.bulkTrainingEnd []).wf = false ∧ (Instr.railOutOfRange 28).wf = false ∧ (Instr.pinInputEdge 5 0 true).wf = false := by decide
theorem test_wf_campion : (Instr.campionRequest 0 0).wf = false ∧ (Instr.campionRequest 10 0).wf = false := by decide

/-! ### Worked values of the manual -/

/-- Chapter 2: at 0.60 V and 105 °C the guaranteed rate is 1.175 G waves/s. -/
theorem test_floor : floorAt 600 = 1175 := by decide +kernel

/-- The example of R44: BAR0 offsets of KMC_IDENT and of RTM_RATE of CD9. -/
theorem test_bar0 : kmcPage false * 4096 + 0x140 = 0x08039140 ∧ rtmPage 9 * 4096 + 0x140 = 0x04A51140 := by decide +kernel

/-- The example of R114: entries converted with codes 3 and 4. -/
theorem test_e4m3 : convElem 3 0 0x43EB0000 = (8, 0x7F, false) ∧ convElem 3 0 0x43FA0000 = (8, 0x7F, false) ∧ convElem 3 0 0x3AC49BA6 = (8, 1, false) := by decide +kernel
theorem test_e4m3_sat : convElem 4 0 0x43EB0000 = (8, 0x7E, true) ∧ convElem 4 0 0xC9742400 = (8, 0xFE, true) ∧ convElem 4 0 0x3AC49BA6 = (8, 1, false) := by
  decide +kernel

/-- The example after R112: the exact group sum 7.5 and 1.0 give 8.5. -/
theorem test_mma :
    waveEntry 5 false 0x3F800000 ((scaleE8 0x8F (e4m3.decode 0x78)) :: (scaleE8 0x8F (e4m3.decode 0x78)) :: List.replicate 30 (scaleE8 0x8F (e4m3.decode 1)))
      (e4m3.decode 0x38 :: e4m3.decode 0xB8 :: List.replicate 30 (e4m3.decode 1)) = (0x41080000, false) := by decide +kernel

/-- The example of R108: element 50 of a CNF4 block is 3 at scale 2^-3. -/
theorem test_e2m1 : e2m1.decode 5 = .fin false 3 0 ∨ toF32 (e2m1.decode 5) = 0x40400000 := by decide +kernel

/-- R405: the IDCODE. -/
theorem test_idcode : ∃ t, exec .tapIdcode State.reset = .next t ∧ t.dev.host.tapDr = 0x2D20433B#32 := ⟨_, rfl, by decide +kernel⟩

/-- R40: a code from 0xF2 on is UNKNOWN; a NOP in READY is DONE. -/
theorem test_unknown :
    ∃ t, exec (.registerWrite .pf (seq0 * 4096 + 0x100) 0xF2) (world (inState seq0 .idle)) = .next t ∧ (t.work.page seq0).cmdSts.toNat % 256 = Status.unknown.code :=
  ⟨_, rfl, by decide +kernel⟩

/-! ### Witnesses 1 -/

theorem witness_IdleStepCountsTime_1 : ∃ (s : State), s.pending = [] :=
  ⟨State.reset,
    by decide +kernel⟩

theorem witness_MemoryStaysCanonical_1 : ∃ (s : State), s.memWf :=
  ⟨State.reset,
    by unfold State.memWf; decide +kernel⟩

theorem witness_OnlyTimeCommandsMoveTime_1 : ∃ (i : Instr), movesTime i = false :=
  ⟨.powerOnReset,
    by decide +kernel⟩

theorem witness_OnlyFirmwareCommandsWriteFlash_1 : ∃ (i : Instr), writesFlash i = false :=
  ⟨.powerOnReset,
    by decide +kernel⟩

theorem witness_PageControlTransitions_1 : ∃ (s : State) (b : Caller) (p : Nat) (v : Word), s.reaches b p ∧ (s.work.page p).state = .off ∧ bit v.toNat 0 = true ∧ bit v.toNat 1 = false :=
  ⟨world id, .pf, cellPage 0 0, 1#32,
    by decide +kernel⟩

theorem witness_PageControlTransitions_2 : ∃ (s : State) (b : Caller) (p : Nat) (v : Word), s.reaches b p ∧ (s.work.page p).state = .idle ∧ bit v.toNat 0 = false ∧ bit v.toNat 1 = false :=
  ⟨world (inState (tslPage 0 0) .idle), .kmc, tslPage 0 0, 0#32,
    by decide +kernel⟩

theorem witness_PageControlTransitions_3 : ∃ (s : State) (b : Caller) (p : Nat) (v : Word), s.reaches b p ∧ (s.work.page p).state = .running ∧ bit v.toNat 0 = true ∧ bit v.toNat 1 = true :=
  ⟨world (owned (mcPage 0 0) 1 .running), .vf 1, mcPage 0 0, 3#32,
    by decide +kernel⟩

theorem witness_PageControlTransitions_4 : ∃ (s : State) (b : Caller) (p : Nat) (v : Word), s.reaches b p ∧ (s.work.page p).state = .quiesced ∧ bit v.toNat 0 = true ∧ bit v.toNat 1 = false :=
  ⟨world (owned (mcPage 0 0) 1 .quiesced), .pf, mcPage 0 0, 1#32,
    by decide +kernel⟩

theorem witness_PageControlTransitions_5 : ∃ (s : State) (b : Caller) (p : Nat) (v : Word), s.reaches b p ∧ bit v.toNat 0 = (s.work.page p).state.enableBit ∧ bit v.toNat 1 = (s.work.page p).state.quiesceBit :=
  ⟨world (inState (mcPage 0 0) .idle), .pf, mcPage 0 0, 5#32,
    by decide +kernel⟩

theorem witness_PageControlTransitions_6 : ∃ (s : State) (p : Nat), (s.work.page p).state = .quiescing ∧ ((typeOf p = 5 → (s.work.eng (engKey (dieOf p) (blockOf p).2)).cur = none)) ∧ s.work.tlist p = none :=
  ⟨world (owned (mcPage 0 0) 1 .quiescing), mcPage 0 0,
    by decide +kernel⟩

theorem witness_UnlistedTransitionIsDropped_1 : ∃ (s : State) (b : Caller) (p : Nat) (v : Word), s.reaches b p ∧ ctlTarget (s.work.page p).state (bit v.toNat 0) (bit v.toNat 1) = none :=
  ⟨world (owned (mcPage 0 0) 1 .running), .pf, mcPage 0 0, 0#32,
    by decide +kernel⟩

theorem witness_EventAndLogWrites_1 : ∃ (s : State) (b : Caller) (p : Nat), s.reaches b p :=
  ⟨world fun w => w.modPage tmb fun g => { g with evt := 0x10005#32 }, .pf, tmb,
    by decide +kernel⟩

theorem witness_EventAndLogWrites_2 : ∃ (s : State) (b : Caller) (p : Nat), s.reaches b p :=
  ⟨world id, .kmc, tmb,
    by decide +kernel⟩

theorem witness_EventAndLogWrites_3 : ∃ (s : State) (b : Caller) (p : Nat) (v : Word), s.reaches b p ∧ bit v.toNat 31 = true :=
  ⟨world fun w => w.modPage tmb fun g => { g with log1 := 0xFFFFFFFF#32 }, .pf, tmb, 0x80000000#32,
    by decide +kernel⟩

theorem witness_EventAndLogWrites_4 : ∃ (s : State) (fn : Nat), SMap.at false s.dev.host.fnMask fn = false ∧ SMap.at false s.dev.host.msixEn fn = true :=
  ⟨world fun w => w.host fun h => { h with msixEn := [(3, true)], pendVec := [(3 * 2048 + 7, true)] }, 3,
    by decide +kernel⟩

theorem witness_ErrorLogRecordsTheLatest_1 : ∃ (s : State) (b : Caller) (off : Nat) (bytes : Nat), (¬(bytes = 4 ∧ off % 4 = 0)) ∧ s.work.reach b (off / 4096) ≠ .ignored ∧ s.work.live (off / 4096) = true ∧ (s.work.hubWay (s.work.callerDie b) (dieOf (off / 4096))).isSome = true ∧ (s.work.page (off / 4096)).evten = 0#32 ∧ s.work.get (snpPage 16) R.SNP_CTL_EVTEN = 0 :=
  ⟨atTime 5000 (world fun w => w.modPage tmb fun g => { g with log1 := 0x80000000#32 }), .pf, tmb * 4096 + 0x142, 4,
    by decide +kernel⟩

theorem witness_CommonCommands_1 : ∃ (s : State) (q : Issue), s.legal q nopSpec :=
  ⟨world (inState tmb .idle), byPf tmb,
    by decide +kernel⟩

theorem witness_CommonCommands_2 : ∃ (s : State) (q : Issue), s.legal q clrSpec :=
  ⟨world fun w => withArgs tmb [0x81] (((inState tmb .idle w).count tmb 0 5).count tmb 7 6), byPf tmb,
    by decide +kernel⟩

theorem witness_CommonCommands_3 : ∃ (s : State) (p : Nat) (o : Outst) (st : Status), typeOf p = 5 ∧ (s.work.page p).outst = some o ∧ o.final = some st ∧ o.code = 0x50 ∧ (s.work.page p).ctx = none :=
  ⟨world fun w => outstanding (hwkPage 0 0) 0x50 (some .capacity) (inState (hwkPage 0 0) .running w), hwkPage 0 0, { code := 0x50, tag := 0, caller := .pf, args := List.replicate 12 0, stamp := 0, final := some .capacity }, .capacity,
    by decide +kernel⟩

theorem witness_CommonCommands_4 : ∃ (s : State) (p : Nat), ((s.work.page p).outst.bind (·.final)).isSome = true :=
  ⟨world fun w => outstanding (hwkPage 0 0) 0x50 (some .capacity) (inState (hwkPage 0 0) .running w), hwkPage 0 0,
    by decide +kernel⟩

theorem witness_RefusedCommandHasNoEffect_1 : ∃ (s : State) (q : Issue) (st : Status), s.work.reach q.caller q.page = .ok ∧ s.work.verdict q setpairSpec = some st ∧ st ≠ .busy ∧ (s.work.page q.page).outst = none :=
  ⟨world (inState (mcPage 0 0) .running), byPf (mcPage 0 0), .state,
    by decide +kernel⟩

theorem witness_RateMonitorInterval_1 : ∃ (s : State) (d : Nat) (rate : Nat) (temp : Nat) (mv : Nat), s.work.rtmOn d = true ∧ d < 16 ∧ rate < 2 ^ 16 ∧ temp < 2 ^ 12 ∧ mv < 2 ^ 12 :=
  ⟨world fun w => (inState (rtmPage 0) .idle w).set (rtmPage 0) R.RTM_CFG_THRESH 900, 0, 899, 4095, 750,
    by decide +kernel⟩

theorem witness_RateMonitorInterval_2 : ∃ (s : State) (d : Nat) (temp : Nat), s.work.rtmOn d = true ∧ temp < 2 ^ 12 :=
  ⟨world fun w => (inState (rtmPage 15) .idle w).set (rtmPage 15) R.RTM_TEMP_TEMP 399, 15, 400,
    by decide +kernel⟩

theorem witness_RateMonitorInterval_3 : ∃ (s : State) (d : Nat), s.work.rtmOn d = true ∧ s.work.runs 7 d = true :=
  ⟨world fun w => (inState (rtmPage 0) .idle w).startNow 7 0, 0,
    by decide +kernel⟩

theorem witness_TbclkLossAndReturn_1 : ∃ (s : State), s.work.get tmb R.TMB_STS_TBCLK_OK = 1 :=
  ⟨world fun w => (inState tmb .idle w).set tmb R.TMB_STS_TBCLK_OK 1,
    by decide +kernel⟩

theorem witness_TbclkLossAndReturn_2 : ∃ (s : State), s.work.get tmb R.TMB_STS_TBCLK_OK = 0 :=
  ⟨world (inState tmb .idle),
    by decide +kernel⟩

theorem witness_TbclkLossAndReturn_3 : ∃ (s : State), s.dev.time.qualifying = true :=
  ⟨world fun w => w.tm fun t => { t with edges := true, qualifying := true },
    by decide +kernel⟩

theorem witness_TimebaseMessages_1 : ∃ (s : State), s.work.upstream ≠ 0 ∧ s.dev.time.counting = true ∧ s.dev.time.lastMsg + 1000 * s.work.get tmb R.TMB_MSG_PERIOD_PERIOD ≤ s.now.toNat ∧ s.dev.time.everLocked = true ∧ s.work.get tmb R.TMB_STS_LOCKED = 1 :=
  ⟨atTime 4000000 (world fun w => ((w.tm fun t => { t with everLocked := true, counting := true }).set tmb R.TMB_CTL_UPSTREAM 1).set tmb R.TMB_STS_LOCKED 1),
    by decide +kernel⟩

theorem witness_TimebaseMessages_2 : ∃ (s : State) (port : Nat), port ≠ 0 ∧ s.work.upstream = port ∧ s.dev.time.everLocked = true :=
  ⟨atTime 4000 (world fun w => ((w.tm fun t => { t with everLocked := true }).set tmb R.TMB_CTL_UPSTREAM 2).set tmb R.TMB_STS_LOCKED 1), 2,
    by decide +kernel⟩

theorem witness_TimebaseMessages_3 : ∃ (s : State), s.work.get tmb R.TMB_CTL_MASTER = 1 :=
  ⟨world fun w => w.set tmb R.TMB_CTL_MASTER 1,
    by decide +kernel⟩

theorem witness_TimebaseMessages_4 : ∃ (s : State) (q : Issue), s.legal q setTimeSpec ∧ (s.work.page q.page).state = .idle ∧ s.work.get tmb R.TMB_CTL_UPSTREAM = 0 ∧ s.now.toNat ≤ s.arg64 q.page 0 :=
  ⟨atTime 70 (world fun w => withArgs tmb [70, 0] (inState tmb .idle w)), byPf tmb,
    by decide +kernel⟩

theorem witness_TimebaseMessages_5 : ∃ (s : State) (q : Issue), s.legal q setTimeSpec ∧ (s.work.page q.page).state = .idle ∧ s.work.get tmb R.TMB_CTL_UPSTREAM = 0 ∧ s.arg64 q.page 0 < s.now.toNat :=
  ⟨atTime 70 (world fun w => withArgs tmb [69, 0] (inState tmb .idle w)), byPf tmb,
    by decide +kernel⟩

theorem witness_TimebaseMessages_6 : ∃ (s : State) (port : Nat), port ≠ 0 ∧ s.work.upstream = port ∧ s.work.get tmb R.TMB_STS_LOCKED = 1 :=
  ⟨atTime 70 (world fun w => (w.set tmb R.TMB_CTL_UPSTREAM 8).set tmb R.TMB_STS_LOCKED 1), 8,
    by decide +kernel⟩

theorem witness_DdlRepairAndRemoval_1 : ∃ (s : State) (d : Nat) (i : Nat), linkUp s d i :=
  ⟨world fun w => w.set (ddlPage 0 2) R.DDL_STS_LSTATE 1, 0, 2,
    by unfold linkUp; decide +kernel⟩

theorem witness_DdlRepairAndRemoval_2 : ∃ (s : State) (d : Nat) (i : Nat), linkUp s d i ∧ (s.dev.flt.pendingActs.any fun a => a.act == 4 && a.scope == ddlScope d i) = false ∧ s.work.admissible (linkRemoval s d i) s.dev.flt.pendingActs = true :=
  ⟨world fun w => w.set (ddlPage 0 2) R.DDL_STS_LSTATE 2, 0, 2,
    by unfold linkUp; decide +kernel⟩

theorem witness_DdlRepairAndRemoval_3 : ∃ (s : State) (d : Nat) (i : Nat), linkUp s d i ∧ (s.dev.flt.pendingActs.any fun a => a.act == 4 && a.scope == ddlScope d i) = false ∧ s.work.admissible (linkRemoval s d i) s.dev.flt.pendingActs = false :=
  ⟨world fun w => (w.startNow 3 (ddlScope 0 2)).set (ddlPage 0 2) R.DDL_STS_LSTATE 2, 0, 2,
    by unfold linkUp; decide +kernel⟩

theorem witness_MaintenanceAdmission_1 : ∃ (s : State) (act : Nat) (scope : Nat), 1 ≤ act ∧ act ≤ 9 ∧ s.work.admissible { act := act, scope := scope, stamp := s.now.toNat, page := 0 } s.dev.flt.pendingActs = true :=
  ⟨world id, 9, 0,
    by decide +kernel⟩

theorem witness_MaintenanceAdmission_2 : ∃ (s : State) (act : Nat) (scope : Nat), 1 ≤ act ∧ act ≤ 9 ∧ s.work.admissible { act := act, scope := scope, stamp := s.now.toNat, page := 0 } s.dev.flt.pendingActs = false :=
  ⟨world (fun w => w.startNow 8 0), 1, 19,
    by decide +kernel⟩

theorem witness_MaintenanceAdmission_3 : ∃ (s : State) (a : Activity) (l : List Activity), s.dev.flt.pendingActs = a :: l ∧ s.dev.flt.running.all (fun b => !a.conflicts b) = true ∧ a.page = 0 ∧ (a.act = 1 ∨ a.act = 2 ∨ a.act = 5) :=
  ⟨world fun w => w.flt fun f => { f with pendingActs := [⟨1, 3, 0, 0⟩] }, ⟨1, 3, 0, 0⟩, [],
    by decide +kernel⟩

theorem witness_MaintenanceAdmission_4 : ∃ (s : State), (firstAdmissible s.work [] s.dev.flt.pendingActs).isSome = true :=
  ⟨world fun w => w.flt fun f => { f with pendingActs := [⟨2, 3, 0, 0⟩, ⟨1, 3, 0, 0⟩] },
    by decide +kernel⟩

theorem witness_MaintenanceAdmission_5 : ∃ (s : State), s.work.get (cmpPage 0) R.CMP_PENDWARN_PENDWARN ≠ 0 ∧ (s.dev.flt.pendingActs.any fun a => decide (s.now.toNat - a.stamp > s.work.get (cmpPage 0) R.CMP_PENDWARN_PENDWARN * 1000)) = true :=
  ⟨atTime 1001 (world fun w => (w.flt fun f => { f with pendingActs := [⟨1, 3, 0, 0⟩] }).set (cmpPage 0) R.CMP_PENDWARN_PENDWARN 1),
    by decide +kernel⟩

theorem witness_SwitchesMoveTransfers_1 : ∃ (s : State) (d : Nat) (site : Nat) (net : Nat) (src : Nat) (slot : Nat), inputWaits s d site net src slot ∧ s.connected :=
  ⟨world fun w => ((cellRun 0 w).modSite (siteKey 0 0) fun t => { t with routes := [(0, 0x50000050)] }).modSlot (slotKey 0 0 0) fun x => x.setOut 0 [⟨0, 7, 0⟩], 0, 0, 0, 5, 0,
    by unfold inputWaits; decide +kernel⟩

theorem witness_SwitchesMoveTransfers_2 : ∃ (s : State) (d : Nat) (site : Nat) (net : Nat) (src : Nat) (slot : Nat), inputWaits s d site net src slot ∧ (src = 5 ∨ src = 6) ∧ allFree s d site net src slot :=
  ⟨world fun w => ((cellRun 0 w).modSite (siteKey 0 0) fun t => { t with routes := [(0, 0x50000050)] }).modSlot (slotKey 0 0 0) fun x => x.setOut 0 [⟨0, 7, 0⟩], 0, 0, 0, 5, 0,
    by unfold allFree inputWaits; decide +kernel⟩

theorem witness_SwitchesMoveTransfers_3 : ∃ (s : State) (d : Nat) (site : Nat) (net : Nat) (src : Nat) (slot : Nat) (nd : Nat) (ns : Nat) (e : Bool), inputWaits s d site net src slot ∧ 1 ≤ src ∧ src ≤ 4 ∧ beyond d site (src - 1) = some (nd, ns, e) ∧ allFree s d site net src slot ∧ s.connected :=
  ⟨world fun w => ((cellRun 0 w).modSite (siteKey 0 0) fun t => { t with routes := [(29, 0x00020000)] }).modSite (siteKey 0 1) fun t => t.setStage (stageKey 7 1 3) [⟨0, 7, 0⟩, ⟨0, 8, 0⟩], 0, 0, 1, 2, 7, 0, 1, false,
    by unfold allFree inputWaits; decide +kernel⟩

theorem witness_SwitchesMoveTransfers_4 : ∃ (s : State) (d : Nat) (site : Nat) (net : Nat) (out : Nat) (slot : Nat), headEnters s d site net out slot :=
  ⟨world fun w => (cellRun 16 w).modSite (siteKey 0 16) fun t => t.setStage (stageKey 0 2 7) [⟨0, 0x20, 0⟩], 0, 16, 2, 7, 0,
    by unfold headEnters; decide +kernel⟩

theorem witness_SwitchesMoveTransfers_5 : ∃ (s : State) (d : Nat) (site : Nat) (net : Nat) (slot : Nat) (o : Nat), steersA s d site net slot o :=
  ⟨world fun w => (cellRun 0 w).modSite (siteKey 0 0) fun t => (({ t with routes := [(3, 0x00010000)] } : Site).setHeld (steerKey 0 1 2) [⟨0, 0x21, 0⟩]).setHeld (steerKey 0 1 0) [⟨0, 9, 0⟩], 0, 0, 1, 0, 1,
    by unfold steersA steerHead; decide +kernel⟩

theorem witness_SwitchesMoveTransfers_6 : ∃ (s : State) (d : Nat) (site : Nat) (net : Nat) (slot : Nat), s.work.cellRuns d site = true ∧ net < 2 ∧ slot < 8 ∧ s.work.purgeSteer d site slot net = s.work ∧ steerHead s d site net slot 2 (fun x => tagKnown x.tag && x.tag != 0x3F && x.tag != tagPredT && x.tag != tagPredF) :=
  ⟨world fun w => (cellRun 0 w).modSite (siteKey 0 0) fun t => t.setHeld (steerKey 0 1 2) [⟨0, 0x11, 0⟩], 0, 0, 1, 0,
    by unfold steerHead; decide +kernel⟩

theorem witness_ReadyCellFires_1 : ∃ (s : State) (d : Nat) (site : Nat) (i : Instr) (op : Nat) (p : Bool), (i, op) ∈ plainMicro d site ∧ mayFire s d site op ∧ predIs s d site p :=
  ⟨cellWorld 0 (micro 0x10 0x2 0 0) [(1, [⟨0, 1, 0⟩, ⟨0, 2, 0⟩, ⟨0, 3, 0⟩, ⟨0, 4, 0⟩, ⟨0, 5, 0⟩, ⟨0, 6, 0⟩, ⟨0, 7, 0⟩, ⟨0, 8, 0⟩])] id, 0, 0, .mma 0 0, 0x10, true,
    by unfold predIs mayFire; decide +kernel⟩

theorem witness_ReadyCellFires_2 : ∃ (s : State) (d : Nat) (site : Nat) (i : Instr) (op : Nat), (i, op) ∈ checkedMicro d site ∧ mayFire s d site op ∧ predIs s d site false :=
  ⟨cellWorld 16 (micro 0x44 0x10 0x10 0 + 2 ^ 16) [(4, [⟨0, 1, 0⟩])] id, 0, 16, .mrdIdx 0 16, 0x44,
    by unfold predIs mayFire; decide +kernel⟩

theorem witness_WaitingCellCountsOnce_1 : ∃ (s : State) (d : Nat) (site : Nat) (i : Instr) (op : Nat), (i, op) ∈ plainMicro d site ++ checkedMicro d site ∧ s.work.cellRuns d site = true ∧ s.work.purgeSlot d site (s.work.activeSlot (cellPage d site) (s.work.site (siteKey d site))) = s.work ∧ (firingAt s d site).s.runs = true ∧ mOp (firingAt s d site).m = op ∧ (firingAt s d site).isSkipz = false ∧ s.work.foldLimit (cellPage d site) (s.work.site (siteKey d site)) = 0 ∧ (firingAt s d site).inReady = false :=
  ⟨cellWorld 0 (micro 0x01 0x10 4 0) [] id, 0, 0, .mov 0 0, 1,
    by decide +kernel⟩

theorem witness_CommonMicroinstructions_1 : ∃ (s : State) (d : Nat) (site : Nat), mayFire s d site 0x00 ∧ predIs s d site true :=
  ⟨cellWorld 0 (micro 0 0xFFF 0x3F 0) ((List.range 12).map fun i => (i, [⟨0, 5, 0⟩])) id, 0, 0,
    by unfold predIs mayFire; decide +kernel⟩

theorem witness_CommonMicroinstructions_2 : ∃ (s : State) (d : Nat) (site : Nat), mayFire s d site 0x01 ∧ predIs s d site true :=
  ⟨cellWorld 0 (micro 1 0x88 0x0F 0) [(3, [⟨0, 2 ^ 1024 - 1, 0⟩]), (7, [⟨0, 12, 0⟩])] id, 0, 0,
    by unfold predIs mayFire; decide +kernel⟩

theorem witness_CommonMicroinstructions_3 : ∃ (s : State) (d : Nat) (site : Nat), mayFire s d site 0x02 ∧ predIs s d site true ∧ ((lowestIn s d site 2).any fun x => x.tag == mImm (firingAt s d site).m % 256) = true :=
  ⟨cellWorld 0 (micro 2 0x200 0 0x05) [(9, [⟨0, 5, 0⟩])] id, 0, 0,
    by unfold predIs mayFire; decide +kernel⟩

theorem witness_CommonMicroinstructions_4 : ∃ (s : State) (d : Nat) (site : Nat), mayFire s d site 0x03 ∧ predIs s d site true ∧ mCen (firingAt s d site).m = false ∧ ((lowestIn s d site 1).any fun x => decide (x.data % 2 ^ 32 ≤ ((firingAt s d site).s.ctr (mCsel (firingAt s d site).m)).maxb)) = true ∧ (firingAt s d site).s.ctrs.length = 8 :=
  ⟨cellWorld 0 (micro 3 0x20 0 0 + 7 * 256) [(5, [⟨0, 9, 0⟩])] fun w => w.modSlot (slotKey 0 0 0) fun x => { x with ctrs := (List.replicate 7 {}) ++ [{ value := 2, cfg := 9 * 256 + 8 }] }, 0, 0,
    by unfold predIs mayFire; decide +kernel⟩

theorem witness_MatrixWaves_1 : ∃ (s : State) (d : Nat) (site : Nat), mayFire s d site 0x10 ∧ predIs s d site true :=
  ⟨cellWorld 0 (micro 0x10 0x2 0 0) [(1, [⟨0, 1, 0⟩, ⟨0, 2, 0⟩, ⟨0, 3, 0⟩, ⟨0, 4, 0⟩, ⟨0, 5, 0⟩, ⟨0, 6, 0⟩, ⟨0, 7, 0⟩, ⟨0, 8, 0⟩])] id, 0, 0,
    by unfold predIs mayFire; decide +kernel⟩

theorem witness_MatrixWaves_2 : ∃ (s : State) (d : Nat) (site : Nat), mayFire s d site 0x11 ∧ predIs s d site true :=
  ⟨cellWorld 0 (micro 0x11 0x2 0 0) [(1, [⟨0, 1, 0⟩, ⟨0, 2, 0⟩, ⟨0, 3, 0⟩, ⟨0, 4, 0⟩, ⟨0, 5, 0⟩, ⟨0, 6, 0⟩, ⟨0, 7, 0⟩, ⟨0, 8, 0⟩])] id, 0, 0,
    by unfold predIs mayFire; decide +kernel⟩

theorem witness_OperandAndAccumulatorMoves_1 : ∃ (s : State) (d : Nat) (site : Nat), mayFire s d site 0x12 ∧ predIs s d site true ∧ 0 ≤ (firingAt s d site).s.addrSum ∧ (firingAt s d site).s.addrSum < 256 :=
  ⟨cellWorld 0 (micro 0x12 1 0 0) [(0, [⟨0, 2 ^ 1024 - 1, 0⟩])] fun w => w.modSlot (slotKey 0 0 0) fun x => { x with ctrs := { value := 255, stride := 1, cfg := 0x18 } :: List.replicate 7 {} }, 0, 0,
    by unfold predIs mayFire; decide +kernel⟩

theorem witness_OperandAndAccumulatorMoves_2 : ∃ (s : State) (d : Nat) (site : Nat), mayFire s d site 0x14 ∧ predIs s d site true :=
  ⟨cellWorld 0 (micro 0x14 0 0 255) [] id, 0, 0,
    by unfold predIs mayFire; decide +kernel⟩

theorem witness_OperandAndAccumulatorMoves_3 : ∃ (s : State) (d : Nat) (site : Nat), mayFire s d site 0x13 ∧ predIs s d site true ∧ mImm (firingAt s d site).m % 16 = 0 ∧ bit (mOen (firingAt s d site).m) 0 = true ∧ (firingAt s d site).s.drainRes = [] :=
  ⟨cellWorld 0 (micro 0x13 0 1 0) [] fun w => w.wrLE (accA 0 0 4) 4 0x3F800000, 0, 0,
    by unfold predIs mayFire; decide +kernel⟩

theorem witness_VectorUnit_1 : ∃ (s : State) (d : Nat) (site : Nat), mayFire s d site 0x20 ∧ predIs s d site true ∧ mInputs (firingAt s d site).m 0 ≠ [] ∧ (firingAt s d site).s.masks 2 = [] ∧ (firingAt s d site).s.masks 3 = [] ∧ (mImm (firingAt s d site).m % 32 = 0x10 ∨ mImm (firingAt s d site).m % 32 = 0x11) ∧ bit (mOen (firingAt s d site).m) 2 = true :=
  ⟨cellWorld 0 (micro 0x20 2 4 0x11) [(1, [⟨0, 0x3F800000, 0⟩, ⟨0, 0x40000000, 0⟩])] id, 0, 0,
    by unfold predIs mayFire; decide +kernel⟩

theorem witness_VectorUnit_2 : ∃ (s : State) (d : Nat) (site : Nat), mayFire s d site 0x20 ∧ predIs s d site true ∧ 2 ≤ (mInputs (firingAt s d site).m 0).length ∧ (firingAt s d site).s.masks 2 = [] ∧ (firingAt s d site).s.masks 3 = [] ∧ mImm (firingAt s d site).m % 32 < 0x10 ∧ bit (mOen (firingAt s d site).m) 0 = false :=
  ⟨cellWorld 0 (micro 0x20 3 0 0) [(0, [⟨0, 0x3F800000, 0⟩, ⟨0, 0x3F800000, 0⟩]), (1, [⟨0, 0x40000000, 0⟩, ⟨0, 7, 0⟩])] id, 0, 0,
    by unfold predIs mayFire; decide +kernel⟩

/-! ### Witnesses 2 -/

theorem witness_ScratchAccesses_1 : ∃ (s : State) (d : Nat) (site : Nat), mayFire s d site 0x40 ∧ predIs s d site true ∧ scrGood s d site 0 128 false false ∧ bit (mOen (firingAt s d site).m) 0 = true :=
  ⟨cellWorld 16 (micro 0x40 0 1 0) [] fun w => (((w.set (mcPage 0 0) (R.MC_PSIZE_SIZEL.i 0) 12288).set (mcPage 0 0) (R.MC_PATTR_ATTR.i 0) 1).wrLE (scratchA 0 0 (12287 * 128)) 4 77).modSlot (slotKey 0 16 0) fun x => { x with ctrs := { value := 12287, stride := 1, cfg := 0x18 } :: List.replicate 7 {} }, 0, 16,
    by unfold scrGood predIs mayFire; decide +kernel⟩

theorem witness_ScratchAccesses_2 : ∃ (s : State) (d : Nat) (site : Nat), mayFire s d site 0x44 ∧ predIs s d site true ∧ (lowestIn s d site 1).isSome = true ∧ scrGood s d site (scrIndex s d site) 128 false false ∧ bit (mOen (firingAt s d site).m) 0 = true :=
  ⟨cellWorld 16 (micro 0x44 0x10 1 0) [(4, [⟨0, 3, 0⟩])] fun w => ((w.set (mcPage 0 0) (R.MC_PSIZE_SIZEL.i 0) 4).set (mcPage 0 0) (R.MC_PATTR_ATTR.i 0) 1).wrLE (scratchA 0 0 384) 4 77, 0, 16,
    by unfold scrGood predIs mayFire; decide +kernel⟩

theorem witness_ScratchAccesses_3 : ∃ (s : State) (d : Nat) (site : Nat), mayFire s d site 0x41 ∧ predIs s d site true ∧ scrGood s d site 0 128 false true :=
  ⟨cellWorld 16 (micro 0x41 1 0 3) [(0, [⟨0, 2 ^ 1024 - 1, 0⟩])] fun w => ((w.set (mcPage 0 0) (R.MC_PBASE_BASEL.i 3) 12287).set (mcPage 0 0) (R.MC_PSIZE_SIZEL.i 3) 1).set (mcPage 0 0) (R.MC_PATTR_ATTR.i 3) 2, 0, 16,
    by unfold scrGood predIs mayFire; decide +kernel⟩

theorem witness_ScratchAccesses_4 : ∃ (s : State) (d : Nat) (site : Nat), mayFire s d site 0x42 ∧ predIs s d site true ∧ scrGood s d site 0 4 true false ∧ bit (mOen (firingAt s d site).m) 2 = true :=
  ⟨cellWorld 16 (micro 0x42 0 4 0) [] fun w => ((w.set (mcPage 0 0) (R.MC_PSIZE_SIZEL.i 0) 1).set (mcPage 0 0) (R.MC_PATTR_ATTR.i 0) 1).wrLE (scratchA 0 0 0) 4 77, 0, 16,
    by unfold scrGood predIs mayFire; decide +kernel⟩

theorem witness_ScratchAccesses_5 : ∃ (s : State) (d : Nat) (site : Nat), mayFire s d site 0x43 ∧ predIs s d site true ∧ scrGood s d site 0 4 true true :=
  ⟨cellWorld 16 (micro 0x43 0x10 0 0) [(4, [⟨0, 9, 0⟩])] fun w => ((w.set (mcPage 0 0) (R.MC_PSIZE_SIZEL.i 0) 1).set (mcPage 0 0) (R.MC_PATTR_ATTR.i 0) 2).modSlot (slotKey 0 16 0) fun x => { x with ctrs := { value := 31, stride := 1, cfg := 0x18 } :: List.replicate 7 {} }, 0, 16,
    by unfold scrGood predIs mayFire; decide +kernel⟩

theorem witness_ScratchAccesses_6 : ∃ (s : State) (d : Nat) (site : Nat), mayFire s d site 0x41 ∧ predIs s d site true ∧ (firingAt s d site).s.masks 1 = [] ∧ scrByte s d site 0 false true = none :=
  ⟨cellWorld 16 (micro 0x41 1 0 0) [(0, [⟨0, 9, 0⟩])] id, 0, 16,
    by unfold predIs mayFire; decide +kernel⟩

theorem witness_SkipsAndFolds_1 : ∃ (s : State) (d : Nat) (site : Nat), s.work.cellRuns d site = true ∧ (firingAt s d site).s.runs = true ∧ (firingAt s d site).isSkipz = true ∧ s.work.foldLimit (cellPage d site) (s.work.site (siteKey d site)) = 0 :=
  ⟨cellWorld 0 (micro 0 0 0 0 + 4 * 2 ^ 45 + 7 * 2 ^ 48) [] id, 0, 0,
    by decide +kernel⟩

theorem witness_SkipsAndFolds_2 : ∃ (s : State) (d : Nat) (site : Nat), s.work.cellRuns d site = true ∧ (List.range 8).foldl (fun w n => w.purgeSlot d site n) s.work = s.work ∧ entryEnds s d site ∧ (nextEntry s d site).isSome = true ∧ nextEntry s d site ≠ some (s.work.site (siteKey d site)).foldPos :=
  ⟨cellWorld 0 (micro 0 0 0 0) [] fun w => ((w.set (cellPage 0 0) R.CELL_FOLD_NENT 2).set (cellPage 0 0) (R.CELL_FOLDENT_SLOT.i 0) 3).set (cellPage 0 0) (R.CELL_FOLDENT_SLOT.i 1) 0, 0, 0,
    by unfold entryEnds; decide +kernel⟩

theorem witness_ConfigurationLoads_1 : ∃ (s : State) (q : Issue) (st : Status), s.legal q (cfgSpec 0x10 fun c => c.arg 2 < 512 && c.arg 1 < 2 ^ 16) ∧ s.work.cfgBusy (s.pageCtx q.page) = false ∧ loadFails (s.work.call q 0x10) (s.pageCtx q.page) s.work = some st ∧ s.connected :=
  ⟨seqWorld .bound (withArgs seq0 [1, 0, 1]), byPf seq0, .bound,
    by decide +kernel⟩

set_option maxRecDepth 20000 in
theorem witness_ConfigurationLoads_2 : ∃ (s : State) (q : Issue), s.legal q (cfgSpec 0x10 fun c => c.arg 2 < 512 && c.arg 1 < 2 ^ 16) ∧ s.work.cfgBusy (s.pageCtx q.page) = false ∧ loadFails (s.work.call q 0x10) (s.pageCtx q.page) s.work = none ∧ s.connected :=
  ⟨seqWorld .running fun w => withArgs seq0 [0, 0, 1] (((((((((w.wrLE 0 4 0x49435744).wrLE 4 2 1).wrLE 7 1 1).wrLE 8 4 832).wrLE 12 2 1).wrLE 16 4 64).wrLE 20 4 0xe95d33bb).wrLE 68 2 1).wrLE 72 4 128), byPf seq0,
    by decide +kernel⟩

theorem witness_ConfigurationLoads_3 : ∃ (s : State) (p : Nat), s.hasCtx p ∧ s.outstanding p 0x10 ∧ (s.work.cfg (s.pageCtx p)).cfgPage = p + 1 ∧ ((s.work.page p).state = .bound ∨ (s.work.page p).state = .running) :=
  ⟨seqWorld .bound fun w => accepted seq0 0x10 [] (w.modCfg 1 fun g => { g with cfgPage := seq0 + 1, newMap := [0, 16], newDrains := [(0, 1, 0, 2)], loadMask := 2 }), seq0,
    by unfold State.hasCtx State.outstanding; decide +kernel⟩

theorem witness_Drains_1 : ∃ (s : State) (q : Issue), s.legal q (cfgSpec 0x11 fun c => c.arg 0 < 256) ∧ s.work.cfgBusy (s.pageCtx q.page) = false ∧ ((s.work.cfg (s.pageCtx q.page)).drains.filter fun e => bit (s.arg q.page 0) e.2.1) = [] :=
  ⟨seqWorld .running fun w => withArgs seq0 [0xFE] ((cellRun 0 w).modSlot (slotKey 0 0 1) fun x => { x with st := .live, drainIn := 1 }), byPf seq0,
    by decide +kernel⟩

theorem witness_Drains_2 : ∃ (s : State) (q : Issue) (d : Nat) (slot : Nat) (site : Nat) (inp : Nat), s.legal q (cfgSpec 0x11 fun c => c.arg 0 < 256) ∧ s.work.cfgBusy (s.pageCtx q.page) = false ∧ ((s.work.cfg (s.pageCtx q.page)).drains.filter fun e => bit (s.arg q.page 0) e.2.1) = [(d, slot, site, inp)] ∧ s.work.siteCtx d site = some (s.pageCtx q.page) ∧ s.room d site slot inp :=
  ⟨seqWorld .running fun w => withArgs seq0 [1] ((cellRun 0 (w.modCfg 1 fun g => { g with drains := [(0, 0, 0, 3), (0, 1, 0, 3)] })).modSlot (slotKey 0 0 0) fun x => { x with st := .live, drainIn := 8 }), byPf seq0, 0, 0, 0, 3,
    by unfold State.room; decide +kernel⟩

theorem witness_Drains_3 : ∃ (s : State) (p : Nat), s.hasCtx p ∧ s.outstanding p 0x11 ∧ (s.work.ctx (s.pageCtx p)).state = .running ∧ (∀ e ∈ (s.work.cfg (s.pageCtx p)).inject, s.work.siteCtx e.1 e.2.2.1 = some (s.pageCtx p) ∧ s.room e.1 e.2.2.1 e.2.1 e.2.2.2) ∧ ((s.work.cfg (s.pageCtx p)).inject.map fun e => slotKey e.1 e.2.2.1 e.2.1).Nodup :=
  ⟨seqWorld .running fun w => accepted seq0 0x11 [1] (cellRun 0 (w.modCfg 1 fun g => { g with drainPage := seq0 + 1, inject := [(0, 0, 0, 3)] })), seq0,
    by unfold State.hasCtx State.outstanding State.room; decide +kernel⟩

theorem witness_Drains_4 : ∃ (s : State) (d : Nat) (site : Nat) (slot : Nat) (inp : Nat), s.work.cellRuns d site = true ∧ inp < 4 ∧ slot < 8 ∧ s.work.purgeSlot d site slot = s.work ∧ (s.work.systemHead d site slot inp tagDrain).isSome = true ∧ ((s.work.slot (slotKey d site slot)).st = .live ∨ (s.work.slot (slotKey d site slot)).st = .draining) ∧ bit (s.work.slot (slotKey d site slot)).drainIn inp = true :=
  ⟨world fun w => (cellRun 0 w).modSlot (slotKey 0 0 7) fun x => { x with st := .live, drainIn := 8, banks := [(11, [⟨0, 0x30, 0⟩])] }, 0, 0, 7, 3,
    by decide +kernel⟩

theorem witness_Drains_5 : ∃ (s : State) (d : Nat) (site : Nat) (slot : Nat), s.work.cellRuns d site = true ∧ slot < 8 ∧ s.work.purgeSlot d site slot = s.work ∧ (s.work.slot (slotKey d site slot)).st = .draining ∧ (s.work.slot (slotKey d site slot)).drainSeen &&& (s.work.slot (slotKey d site slot)).drainIn = (s.work.slot (slotKey d site slot)).drainIn ∧ (s.work.slot (slotKey d site slot)).banks = [] ∧ (s.work.slot (slotKey d site slot)).spill = [] ∧ ((∀ o, o < 2 → (s.work.slot (slotKey d site slot)).out (4 + o) = [])) :=
  ⟨world fun w => (cellRun 0 w).modSlot (slotKey 0 0 7) fun x => { x with st := .draining, drainIn := 8, drainSeen := 8, drainOut := 2 }, 0, 0, 7,
    by decide +kernel⟩

theorem witness_FencesAndClears_1 : ∃ (s : State) (d : Nat) (site : Nat) (slot : Nat) (inp : Nat), s.work.cellRuns d site = true ∧ inp < 4 ∧ slot < 8 ∧ s.work.purgeSlot d site slot = s.work ∧ (s.work.systemHead d site slot inp tagFence).isSome = true ∧ ((s.work.slot (slotKey d site slot)).st = .live ∨ (s.work.slot (slotKey d site slot)).st = .draining) :=
  ⟨world fun w => (cellRun 0 w).modSlot (slotKey 0 0 7) fun x => { x with st := .live, banks := [(8, [⟨0, 0x31, 0⟩])] }, 0, 0, 7, 0,
    by decide +kernel⟩

theorem witness_FencesAndClears_2 : ∃ (s : State) (q : Issue), s.legal q (cfgSpec 0x13 fun _ => true) ∧ s.work.cfgBusy (s.pageCtx q.page) = false :=
  ⟨seqWorld .running fun w => (cellRun 0 w).modSlot (slotKey 0 0 7) fun x => { x with st := .live, hold := true }, byPf seq0,
    by decide +kernel⟩

theorem witness_FencesAndClears_3 : ∃ (s : State) (q : Issue), s.legal q (cfgSpec 0x14 fun c => c.arg 0 < 256) ∧ s.work.cfgBusy (s.pageCtx q.page) = false ∧ (∀ k ∈ s.work.ctxSlots (s.pageCtx q.page) (s.arg q.page 0), (s.work.slot k).st ≠ .live ∧ (s.work.slot k).st ≠ .draining) :=
  ⟨seqWorld .running fun w => withArgs seq0 [0x80] ((cellRun 0 w).modSlot (slotKey 0 0 7) fun x => { x with st := .halted }), byPf seq0,
    by decide +kernel⟩

theorem witness_EpochBumps_1 : ∃ (s : State) (q : Issue), s.legal q (cfgSpec 0x12 fun c => c.arg 0 < 512) ∧ s.work.cfgBusy (s.pageCtx q.page) = false ∧ s.arg q.page 0 % 256 ≠ ((s.work.ctx (s.pageCtx q.page)).epoch.toNat + 1) % 256 :=
  ⟨seqWorld .running fun w => withArgs seq0 [0] (w.modCtx 1 fun x => { x with epoch := 0 }), byPf seq0,
    by decide +kernel⟩

theorem witness_EpochBumps_2 : ∃ (s : State) (q : Issue), s.legal q (cfgSpec 0x12 fun c => c.arg 0 < 512) ∧ s.work.cfgBusy (s.pageCtx q.page) = false ∧ s.arg q.page 0 % 256 = ((s.work.ctx (s.pageCtx q.page)).epoch.toNat + 1) % 256 ∧ ((∀ k ∈ s.work.ctxSlots (s.pageCtx q.page) 255, (s.work.slot k).st = .staged → (s.work.slot k).imgEpoch = s.arg q.page 0 % 256)) ∧ (bit (s.arg q.page 0) 8 = true ∨ (∀ k ∈ s.work.ctxSlots (s.pageCtx q.page) 255, (s.work.slot k).st ≠ .live ∧ (s.work.slot k).st ≠ .draining)) :=
  ⟨seqWorld .running fun w => withArgs seq0 [0] ((cellRun 0 (w.modCtx 1 fun x => { x with epoch := 255 })).modSlot (slotKey 0 0 7) fun x => { x with st := .staged }), byPf seq0,
    by decide +kernel⟩

theorem witness_EpochBumps_3 : ∃ (s : State) (d : Nat) (site : Nat), (s.work.siteCtx d site).isSome = true ∧ (bumpOf s d site).bumpTo ≠ 0 ∧ d < 16 ∧ site < 256 ∧ (s.work.site (siteKey d site)).epoch ≠ (bumpOf s d site).bumpTo - 1 ∧ ((s.work.page (cellPage d site)).state = .running ∨ (s.work.page (cellPage d site)).state = .bound) :=
  ⟨seqWorld .running fun w => accepted seq0 0x12 [1] (((cellRun 0 (w.modCfg 1 fun g => { g with bumpTo := 2, cfgPage := seq0 + 1 })).modCtx 1 fun x => { x with groups := 1 }).modSlot (slotKey 0 0 7) fun x => { x with st := .staged, imgEpoch := 1 }), 0, 0,
    by decide +kernel⟩

theorem witness_DeadlockResolution_1 : ∃ (s : State) (d : Nat) (c : Nat), d < 16 ∧ (s.work.page (dldPage d)).state ≠ .off ∧ s.work.dldFrozen c = false ∧ s.work.dldBusy d c = true ∧ SMap.at 0 s.dev.fab.lastHs (d * 256 + c) + max (s.work.get (dldPage d) R.DLD_WINDOW_WINDOW) (s.work.get (dldPage d) R.DLD_MINWIN_MINWIN) ≤ s.now.toNat ∧ cycleBanks (s.work.waitEdges c) ≠ [] ∧ SMap.at 0 s.dev.fab.stalls (d * 256 + c) + 1 ≤ s.work.get (dldPage d) R.DLD_LIMIT_LIMIT ∧ ((∀ e, e < 16 → s.work.spillAfter e c (((cycleBanks (s.work.waitEdges c)).filter fun b => b / 32768 == e).take 64) ≤ s.work.spillRoom c)) :=
  ⟨atTime (10 ^ 9) (seqWorld .running fun w => inState (dldPage 0) .idle ((((cellRun 0 w).modCtx 1 fun x => { x with spillSz := 64 }).modSite (siteKey 0 0) fun t => { t.setStage (stageKey 0 1 4) [⟨0, 1, 0⟩] with routes := [(1, 0x50000)] }).modSlot (slotKey 0 0 0) fun x => { x with st := .live, mstore := [(0, micro 1 0x10 4 0)], banks := [(4, List.replicate 16 ⟨0, 1, 0⟩)], outs := [(2, [⟨0, 2, 0⟩])] })), 0, 1,
    by decide +kernel⟩

theorem witness_DeadlockResolution_2 : ∃ (s : State) (d : Nat) (c : Nat), d < 16 ∧ (s.work.page (dldPage d)).state ≠ .off ∧ s.work.dldFrozen c = false ∧ s.work.dldBusy d c = true ∧ SMap.at 0 s.dev.fab.lastHs (d * 256 + c) + max (s.work.get (dldPage d) R.DLD_WINDOW_WINDOW) (s.work.get (dldPage d) R.DLD_MINWIN_MINWIN) ≤ s.now.toNat ∧ cycleBanks (s.work.waitEdges c) = [] :=
  ⟨atTime (10 ^ 9) (seqWorld .running fun w => inState (dldPage 0) .idle ((cellRun 0 w).modSlot (slotKey 0 0 0) fun x => { x with st := .live, mstore := [(0, micro 1 0x30 4 0)], banks := [(4, [⟨0, 1, 0⟩])] })), 0, 1,
    by decide +kernel⟩

theorem witness_DeadlockResolution_3 : ∃ (s : State) (d : Nat), SMap.at [] s.dev.fab.spilling d ≠ [] ∧ (SMap.at [] s.dev.fab.spilling d).Nodup ∧ (∀ b ∈ SMap.at [] s.dev.fab.spilling d, s.work.linkRuns d (b / 128 % 256) = true) :=
  ⟨world fun w => ((cellRun 0 w).modSlot (slotKey 0 0 0) fun x => { x with st := .live, banks := [(4, [⟨0, 1, 0⟩])], spill := [(4, [⟨0, 2, 0⟩])] }).fab fun f => { f with spilling := [(0, [4])] }, 0,
    by decide +kernel⟩

theorem witness_DeadlockResolution_4 : ∃ (s : State) (d : Nat) (site : Nat) (slot : Nat) (net : Nat) (inp : Nat), slot < 8 ∧ net < 3 ∧ inp < 4 ∧ s.work.linkRuns d site = true ∧ (s.work.slot (slotKey d site slot)).spilled (net * 4 + inp) ≠ [] ∧ ((s.work.slot (slotKey d site slot)).bank (net * 4 + inp)).length < bankCap net ∧ bankKey (slotKey d site slot) (net * 4 + inp) ∉ SMap.at [] s.dev.fab.spilling d :=
  ⟨world fun w => (cellRun 0 w).modSlot (slotKey 0 0 0) fun x => { x with st := .live, banks := [(4, List.replicate 15 ⟨0, 1, 0⟩)], spill := [(4, [⟨0, 2, 0⟩])] }, 0, 0, 0, 1, 0,
    by decide +kernel⟩

theorem witness_FoldScheduleWrites_1 : ∃ (s : State) (b : Caller) (p : Nat), (typeOf p = 1 ∨ typeOf p = 2) ∧ s.reaches b p ∧ ((s.work.page p).state = .idle ∨ (s.work.page p).state = .quiesced) :=
  ⟨world (inState (ccPage 0 0) .idle), .pf, ccPage 0 0,
    by decide +kernel⟩

theorem witness_FoldScheduleWrites_2 : ∃ (s : State) (b : Caller) (p : Nat) (n : Nat), (typeOf p = 1 ∨ typeOf p = 2) ∧ s.reaches b p ∧ n < 8 ∧ ((s.work.page p).state = .idle ∨ (s.work.page p).state = .quiesced) :=
  ⟨world (owned (mcPage 0 0) 1 .quiesced), .vf 1, mcPage 0 0, 7,
    by decide +kernel⟩

theorem witness_FoldScheduleWrites_3 : ∃ (s : State) (b : Caller) (p : Nat), (typeOf p = 1 ∨ typeOf p = 2) ∧ s.reaches b p ∧ (s.work.page p).state = .running :=
  ⟨world (owned (mcPage 0 0) 1 .running), .pf, mcPage 0 0,
    by decide +kernel⟩

theorem witness_LoopNestIssue_1 : ∃ (s : State) (q : Issue) (st : Status), s.legal q lnSpec ∧ nestFails (s.work.call q 0x20) (s.pageCtx q.page) s.work = some st ∧ s.connected :=
  ⟨seqWorld .running fun w => withArgs seq0 [64] w, byPf seq0, .bound,
    by decide +kernel⟩

theorem witness_LoopNestIssue_2 : ∃ (s : State) (q : Issue), s.legal q lnSpec ∧ nestFails (s.work.call q 0x20) (s.pageCtx q.page) s.work = none ∧ nestMayGo s (s.pageCtx q.page) (issuedNest s q) ∧ s.connected :=
  ⟨seqWorld .running fun w => withArgs seq0 [0, 0, 1, 0, 0, 0, 0, 0, 128, 0, 0, 128] ((((((cellRun 16 w).wrLE 0 20 (1 + 2 ^ 8 + 2 ^ 11 + 16 * 2 ^ 96)).wrLE 20 4 1).modCfg 1 fun g => { g with dieMap := [0], gos := [⟨0, 16, 0, 0, 0, false, 0⟩] }).set (mcPage 0 0) (R.MC_PSIZE_SIZEL.i 0) 1).set (mcPage 0 0) (R.MC_PATTR_ATTR.i 0) 2), byPf seq0,
    by unfold nestMayGo State.room; decide +kernel⟩

theorem witness_LoopNestIssue_3 : ∃ (s : State) (p : Nat), s.hasCtx p ∧ (waitingNest s p).isSome = true ∧ (s.work.page p).outst.isSome = true ∧ ((s.work.page p).state = .bound ∨ (s.work.page p).state = .running) ∧ (∀ i ∈ waitingNest s p, nestMayGo s (s.pageCtx p) i) :=
  ⟨seqWorld .running fun w => accepted seq0 0x20 [] ((((cellRun 16 w).modCfg 1 fun g => { g with dieMap := [0], gos := [⟨0, 16, 0, 0, 1, false, 0⟩], nests := [⟨seq0, 0, 16, 0, 0, 0, 0, List.replicate 15 3, [(slotKey 0 16 0, 0, ⟨1, 0, true, 0, 0⟩)], true, false, true, 5⟩] }).set (mcPage 0 0) (R.MC_PSIZE_SIZEL.i 0) 1).set (mcPage 0 0) (R.MC_PATTR_ATTR.i 0) 2), seq0,
    by unfold nestMayGo State.hasCtx State.room; decide +kernel⟩

theorem witness_PairAndWindowCommands_1 : ∃ (s : State) (q : Issue), s.legal q setpairSpec ∧ firstFail (setpairChecks (s.work.call q 0x30) s.work) = none :=
  ⟨world fun w => withArgs (mcPage 0 0) [3, 12287, 1, 3] (owned (mcPage 0 0) 1 .bound w), byPf (mcPage 0 0),
    by decide +kernel⟩

theorem witness_PairAndWindowCommands_2 : ∃ (s : State) (q : Issue), s.legal q openwinSpec ∧ firstFail (openwinChecks (s.work.call q 0x31) s.work) = none :=
  ⟨world fun w => withArgs (mcPage 0 0) [0xF, 384 * 2 ^ 16, 0, 1] (((owned (mcPage 0 0) 1 .bound w).set (mcPage 0 0) (R.MC_PSIZE_SIZEL.i 0) 12288).set (mcPage 0 0) (R.MC_PATTR_ATTR.i 0) 10), byPf (mcPage 0 0),
    by decide +kernel⟩

theorem witness_PairAndWindowCommands_3 : ∃ (s : State) (q : Issue), s.legal q closewinSpec ∧ s.work.winState q.page (s.arg q.page 0) = 1 ∧ (s.work.win (winKey q.page (s.arg q.page 0))).accts = [] :=
  ⟨world fun w => withArgs (mcPage 0 0) [15] ((owned (mcPage 0 0) 1 .bound w).set (mcPage 0 0) (R.MC_WCFG_WSTATE.i 15) 1), byPf (mcPage 0 0),
    by decide +kernel⟩

theorem witness_PairAndWindowCommands_4 : ∃ (s : State) (q : Issue), s.legal q closewinSpec ∧ s.work.winState q.page (s.arg q.page 0) = 1 ∧ (s.work.win (winKey q.page (s.arg q.page 0))).accts ≠ [] :=
  ⟨world fun w => withArgs (mcPage 0 0) [0] (((owned (mcPage 0 0) 1 .bound w).set (mcPage 0 0) (R.MC_WCFG_WSTATE.i 0) 1).modWin (winKey (mcPage 0 0) 0) fun x => { x with accts := [⟨⟨0, 1, 1, 0, 0, 0, 0, 0⟩, 2⟩] }), byPf (mcPage 0 0),
    by decide +kernel⟩

theorem witness_PairAndWindowCommands_5 : ∃ (s : State) (q : Issue), s.legal q winretSpec ∧ s.work.winState q.page (s.arg q.page 0) = 1 ∧ s.arg q.page 1 * 4096 ≤ s.work.unreturned q.page (s.arg q.page 0) ∧ (∀ a ∈ (s.work.win (winKey q.page (s.arg q.page 0))).accts, a.waiting = 0) :=
  ⟨world fun w => withArgs (mcPage 0 0) [0, 1] (((owned (mcPage 0 0) 1 .bound w).set (mcPage 0 0) (R.MC_WCFG_WSTATE.i 0) 1).set64 (mcPage 0 0) (R.MC_WARR_LO_ARR_LO.i 0) 4096), byPf (mcPage 0 0),
    by decide +kernel⟩

theorem witness_CreditedWrites_1 : ∃ (s : State) (d : Nat) (c : Nat) (addr : Nat) (data : List Byte), (remoteParts addr).isSome = true ∧ sendClear s (writeAcct s d c addr) ∧ s.work.physPkg (s.work.ctx c).part (rparts addr).1 = (some s.work.ownPkg, s.work) ∧ (∀ x ∈ s.work.sends d, x.acc ≠ writeAcct s d c addr) ∧ (s.work.sends d).length < 64 ∧ s.work.fenced d = false ∧ s.work.fenced (rparts addr).2.1 = false ∧ s.work.winState (acctPage (writeAcct s d c addr)) (writeAcct s d c addr).twin = 1 ∧ s.work.admits (acctPage (writeAcct s d c addr)) (writeAcct s d c addr).twin (writeAcct s d c addr) = true ∧ (rparts addr).2.2.2.2 + data.length ≤ s.work.get (acctPage (writeAcct s d c addr)) (R.MC_WGEOM_SIZEU.i (writeAcct s d c addr).twin) * 4096 ∧ 1 ≤ data.length ∧ data.length ≤ 128 - (rparts addr).2.2.2.2 % 128 ∧ (s.work.win (winKey (acctPage (writeAcct s d c addr)) (writeAcct s d c addr).twin)).accts.length < 16 :=
  ⟨world fun w => (((ctxIn 1 .running w).set (mcPage 1 0) (R.MC_WCFG_WSTATE.i 0) 1).set (mcPage 1 0) (R.MC_WSRC_ANYPKG.i 0) 1).set (mcPage 1 0) (R.MC_WGEOM_SIZEU.i 0) 1, 0, 1, 0x200000000000 + 2 ^ 32 + 4095, [9#8],
    by unfold sendClear; decide +kernel⟩

theorem witness_CreditedWrites_2 : ∃ (s : State) (a : Account) (n : Nat), s.dev.saves = [] ∧ s.connected ∧ a.die < 16 ∧ a.tdie < 16 ∧ a.tmc < 128 ∧ a.twin < 16 ∧ s.work.fenced a.tdie = false ∧ s.work.winState (acctPage a) a.twin = 1 ∧ s.work.admits (acctPage a) a.twin a = true ∧ 0 < n ∧ n ≤ s.work.get (acctPage a) (R.MC_WPOOL_FREE.i a.twin) / 4096 ∧ (s.work.win (winKey (acctPage a) a.twin)).accts = [] :=
  ⟨world fun w => ((w.set (mcPage 1 0) (R.MC_WCFG_WSTATE.i 0) 1).set (mcPage 1 0) (R.MC_WSRC_ANYPKG.i 0) 1).set (mcPage 1 0) (R.MC_WPOOL_FREE.i 0) 4096, ⟨0, 0, 1, 0, 0, 1, 0, 0⟩, 1,
    by decide +kernel⟩

theorem witness_CreditedWrites_3 : ∃ (s : State) (a : Account), s.dev.saves = [] ∧ s.connected ∧ a.die < 16 ∧ a.tdie < 16 ∧ a.tmc < 128 ∧ a.twin < 16 ∧ a.pkg ≠ s.work.ownPkg ∧ s.work.fenced a.tdie = false ∧ s.work.winState (acctPage a) a.twin ≠ 1 :=
  ⟨world id, ⟨1, 0, 1, 0, 0, 15, 127, 15⟩,
    by decide +kernel⟩

theorem witness_CreditedWrites_4 : ∃ (s : State) (a : Account), s.dev.saves = [] ∧ sendClear s a ∧ a.tmc < 128 ∧ a.twin < 16 ∧ a.pkg = s.work.ownPkg ∧ a.tpkg = a.pkg ∧ s.work.fenced a.tdie = false ∧ s.work.winState (acctPage a) a.twin ≠ 1 :=
  ⟨world fun w => w.modSends 0 fun _ => [⟨⟨0, 0, 1, 0, 0, 1, 0, 0⟩, 0, 0, [(0, [1#8])], 0⟩], ⟨0, 0, 1, 0, 0, 1, 0, 0⟩,
    by unfold sendClear; decide +kernel⟩

theorem witness_CreditedWrites_5 : ∃ (s : State) (a : Account) (n : Nat), sendClear s a ∧ ((sendAcct s a).any fun x => x.size != 0) = true ∧ 128 * (queuedLines s a).length ≤ ((sendAcct s a).map (·.balance)).getD 0 + n * 4096 :=
  ⟨world fun w => w.modSends 0 fun _ => [⟨⟨0, 0, 1, 0, 0, 1, 0, 0⟩, 0, 4096, [(0, [1#8])], 0⟩], ⟨0, 0, 1, 0, 0, 1, 0, 0⟩, 1,
    by unfold sendClear; decide +kernel⟩

theorem witness_CreditedWrites_6 : ∃ (s : State) (a : Account), sendClear s a ∧ (sendAcct s a).isSome = true :=
  ⟨world fun w => w.modSends 0 fun _ => [⟨⟨0, 0, 1, 0, 0, 1, 0, 0⟩, 128, 4096, [], 0⟩], ⟨0, 0, 1, 0, 0, 1, 0, 0⟩,
    by unfold sendClear; decide +kernel⟩

theorem witness_WindowArrivals_1 : ∃ (s : State) (a : Account) (off : Nat) (data : List Byte), s.dev.saves = [] ∧ a.tdie < 16 ∧ a.tmc < 128 ∧ a.twin < 16 ∧ s.work.fenced a.tdie = false ∧ ((s.work.win (winKey (acctPage a) a.twin)).accts.any fun x => x.acc = a) = true ∧ (s.work.page (acctPage a)).state = .running ∧ data.length ≤ 128 - off % 128 :=
  ⟨world fun w => (owned (mcPage 1 0) 1 .running w).modWin (winKey (mcPage 1 0) 0) fun x => { x with accts := [⟨⟨0, 0, 1, 0, 0, 1, 0, 0⟩, 0⟩] }, ⟨0, 0, 1, 0, 0, 1, 0, 0⟩, 2 ^ 21 - 2, [7#8, 8#8],
    by decide +kernel⟩

theorem witness_WindowArrivals_2 : ∃ (s : State) (a : Account), s.dev.saves = [] ∧ ((s.work.win (winKey (acctPage a) a.twin)).accts.map fun x => x.acc) = [a] ∧ s.work.winState (acctPage a) a.twin = 2 ∧ a.twin < 16 ∧ (s.work.page (acctPage a)).outst = none :=
  ⟨world fun w => ((owned (mcPage 1 0) 1 .running w).set (mcPage 1 0) (R.MC_WCFG_WSTATE.i 15) 2).modWin (winKey (mcPage 1 0) 15) fun x => { x with accts := [⟨⟨0, 0, 1, 0, 0, 1, 0, 15⟩, 0⟩] }, ⟨0, 0, 1, 0, 0, 1, 0, 15⟩,
    by decide +kernel⟩

theorem witness_WindowArrivals_3 : ∃ (s : State) (d : Nat) (m : Nat) (i : Nat), d < 16 ∧ m < 128 ∧ i < 16 ∧ s.work.winState (mcPage d m) i = 2 ∧ (s.work.page (mcPage d m)).outst = none :=
  ⟨world fun w => ((owned (mcPage 15 127) 1 .running w).set (mcPage 15 127) (R.MC_WCFG_WSTATE.i 15) 2).modWin (winKey (mcPage 15 127) 15) fun x => { x with accts := [⟨⟨0, 0, 1, 0, 0, 15, 127, 15⟩, 0⟩] }, 15, 127, 15,
    by decide +kernel⟩

theorem witness_PrefetchCommands_1 : ∃ (s : State) (q : Issue) (st : Status), s.legal q pfArmSpec ∧ pfArmFails (s.work.call q 0x28) (s.work.ctx (s.pageCtx q.page)).part s.work = some st ∧ s.connected :=
  ⟨seqWorld .running fun w => withArgs seq0 [1, 0, 2 ^ 16] w, byPf seq0, .bound,
    by decide +kernel⟩

theorem witness_PrefetchCommands_2 : ∃ (s : State) (q : Issue), s.legal q pfArmSpec ∧ (s.work.page q.page).state ≠ .running ∧ pfArmFails (s.work.call q 0x28) (s.work.ctx (s.pageCtx q.page)).part s.work = none ∧ s.connected :=
  ⟨seqWorld .bound fun w => withArgs seq0 [0, 0, 1 + 16 * 2 ^ 16] (((w.wrLE 8 8 4096).wrLE 16 4 1).wrLE 21 1 1), byPf seq0,
    by decide +kernel⟩

theorem witness_PrefetchCommands_3 : ∃ (s : State) (q : Issue), s.legal q pfArmSpec ∧ (s.work.page q.page).state = .running ∧ pfArmFails (s.work.call q 0x28) (s.work.ctx (s.pageCtx q.page)).part s.work = none ∧ s.connected :=
  ⟨seqWorld .running fun w => withArgs seq0 [0, 0, 1 + 16 * 2 ^ 16] (((w.wrLE 8 8 4096).wrLE 16 4 1).wrLE 21 1 1), byPf seq0,
    by decide +kernel⟩

theorem witness_PrefetchCommands_4 : ∃ (s : State) (q : Issue), s.legal q pfAdvanceSpec ∧ s.arg q.page 0 ≠ 255 ∧ s.arg q.page 0 ≤ s.work.phase (s.pageCtx q.page) :=
  ⟨seqWorld .running fun w => withArgs seq0 [0] w, byPf seq0,
    by decide +kernel⟩

theorem witness_PrefetchCommands_5 : ∃ (s : State) (q : Issue), s.legal q pfAdvanceSpec ∧ s.arg q.page 0 < 255 ∧ s.work.phase (s.pageCtx q.page) < s.arg q.page 0 ∧ s.work.maintHold (s.pageCtx q.page) (s.arg q.page 0) = false ∧ s.work.pfDue (s.pageCtx q.page) (s.arg q.page 0) = none :=
  ⟨seqWorld .running fun w => withArgs seq0 [254] w, byPf seq0,
    by decide +kernel⟩

theorem witness_PrefetchEngine_1 : ∃ (s : State) (p : Nat), (s.work.pfRuns p).isSome = true ∧ ringSound (s.work.ring p) ∧ (pfNext s p).isSome = true ∧ ((s.work.ring p).runs.filter fun e => ((s.work.ring p).st e).st = 1).length < (s.work.ring p).inflight ∧ (∀ x ∈ pfNext s p, pfMayStart s p x) :=
  ⟨seqWorld .running fun w => w.modRing seq0 fun r => { r with descs := [⟨0, false, 4096, 0, 0, 64, 0, 1, false, 0⟩], cur := [{}], next := [{}] }, seq0,
    by unfold pfMayStart ringSound; decide +kernel⟩

theorem witness_PrefetchEngine_2 : ∃ (s : State) (p : Nat) (i : Nat), (s.work.pfRuns p).isSome = true ∧ dieOf p < 16 ∧ ringSound (s.work.ring p) ∧ (pfFlying s p i).isSome = true ∧ (∀ x ∈ pfFlying s p i, pfMayEnd s p x) ∧ noneLate s (s.pageCtx p) ∧ s.connected :=
  ⟨seqWorld .running fun w => (w.wrLE 0 4 5).modRing seq0 fun r => { r with descs := [⟨0, false, 64, 0, 0, 64, 0, 1, false, 0⟩], cur := [{ st := 1 }], next := [{}] }, seq0, 0,
    by unfold pfMayEnd noneLate ringSound; decide +kernel⟩

theorem witness_PrefetchEngine_3 : ∃ (s : State) (g : Nat), (readFor s g).isSome = true ∧ ((∀ h d, readFor s g = some (h, d) → (s.work.page h.page).ctx.isSome = true ∧ ringSound (s.work.ring h.page) ∧ d.scratch = false ∧ d.dst + d.len ≤ t1Size ∧ (gotOf s h).got + 64 = d.len)) :=
  ⟨seqWorld .running fun w => ((w.modRing seq0 fun r => { r with descs := [⟨t3Base, false, 0, 0, 0, 128, 0, 1, false, 0⟩], cur := [{ st := 1, got := 64 }], next := [{}] })).tiers fun t => { t with reads := [(5, some ⟨seq0, 0, false, 0, false⟩)] }, 5,
    by decide +kernel,
    all2 (by unfold ringSound; decide +kernel)⟩

theorem witness_PrefetchEngine_4 : ∃ (s : State) (g : Nat) (st : Nat), ((hostRead s g).any fun h => h.unit && decide (h.addr < 2 ^ 64)) = true ∧ st < 2 :=
  ⟨world fun w => w.tiers fun t => { t with reads := [(5, some ⟨seq0, t3Base, false, 0x1000, true⟩)], lines := [(seq0, [(t3Base, 0)])] }, 5, 1,
    by decide +kernel⟩

theorem witness_PrefetchEngine_5 : ∃ (s : State) (g : Nat), (hostRead s g).isSome = true ∧ ((∀ h ∈ hostRead s g, h.unit = false → h.idx < (s.work.ring h.page).cur.length ∧ h.idx < (s.work.ring h.page).next.length ∧ noneLate s (s.pageCtx h.page))) :=
  ⟨world fun w => ((w.modRing seq0 fun r => { r with descs := [⟨t3Base, false, 0, 0, 0, 128, 0, 1, false, 0⟩], cur := [{ st := 1, got := 64 }], next := [{}] })).tiers fun t => { t with reads := [(5, some ⟨seq0, 0, false, 0, false⟩)] }, 5,
    by unfold noneLate; decide +kernel⟩

theorem witness_StallLimits_1 : ∃ (s : State) (p : Nat), s.work.get p R.SEQ_STALLNOTE_NOTE ≠ 0 ∧ ((∃ x ∈ s.work.stallsOf p, x.noted = false ∧ x.start + 1000 * s.work.get p R.SEQ_STALLNOTE_NOTE ≤ s.now.toNat)) :=
  ⟨atTime 1000 (seqWorld .running fun w => (w.set seq0 R.SEQ_STALLNOTE_NOTE 1).setStalls seq0 [⟨0, 0, 0, 3, 0, false⟩]), seq0,
    by decide +kernel⟩

theorem witness_StallLimits_2 : ∃ (s : State) (p : Nat), ((∃ x ∈ s.work.stallsOf p, x.start + 1000 * s.work.get p R.SEQ_STALLLIM_LIMIT ≤ s.now.toNat)) ∧ s.hasCtx p ∧ (s.work.ctx (s.pageCtx p)).state = .running :=
  ⟨atTime (10 ^ 12) (seqWorld .running fun w => w.setStalls seq0 [⟨0, 0, 0, 3, 511, false⟩]), seq0,
    by unfold State.hasCtx; decide +kernel⟩

theorem witness_MemoryHealth_1 : ∃ (s : State) (b : Caller) (i : Nat), i < 128 ∧ s.reaches b (xltPage 0) ∧ s.work.get (xltPage 0) (R.XLT_T3MAP_LO_VALID.i i) = 0 :=
  ⟨world id, .pf, 127,
    by decide +kernel⟩

theorem witness_MemoryHealth_2 : ∃ (s : State) (b : Caller) (i : Nat) (v : Word), i < 128 ∧ s.reaches b (xltPage 0) ∧ s.work.get (xltPage 0) (R.XLT_T3MAP_LO_VALID.i i) = 1 ∧ bit v.toNat 0 = true :=
  ⟨world fun w => w.set (xltPage 0) (R.XLT_T3MAP_LO_VALID.i 0) 1, .kmc, 0, 1#32,
    by decide +kernel⟩

theorem witness_MemoryHealth_3 : ∃ (s : State) (g : Nat), (s.dev.flt.running.find? fun a => a.act == 1 && a.scope / 5 == g / 240).isSome = true ∧ s.work.t1Present g = true ∧ s.work.zeroing false g = false :=
  ⟨world fun w => (hasT1 0 w).startNow 1 4, 0,
    by decide +kernel⟩

theorem witness_MemoryHealth_4 : ∃ (s : State) (g : Nat), (s.dev.flt.running.find? fun a => a.act == 2).isSome = true ∧ g < s.work.t2Cap ∧ g < 2 ^ 14 ∧ s.work.zeroing true g = false :=
  ⟨world fun w => ((w.set (chanPage 3) R.MEM_STS_INSET 1).set (chanPage 3) R.MEM_STS_CAPG 64).startNow 2 0, 63,
    by decide +kernel⟩

theorem witness_MemoryHealth_5 : ∃ (s : State) (ch : Nat), ch < 16 ∧ s.work.get (chanPage ch) R.MEM_STS_CHSTATE = 1 :=
  ⟨world fun w => w.set (chanPage 15) R.MEM_STS_CHSTATE 1, 15,
    by decide +kernel⟩

theorem witness_MemoryHealth_6 : ∃ (s : State) (p : Nat) (n : Nat), (typeOf p = 0x10 ∨ typeOf p = 0x11) ∧ s.work.live p = true ∧ n < 2 ^ 12 :=
  ⟨world fun w => w.set (stackPage 19) R.MEM_TEMP_TEMP 379, stackPage 19, 380,
    by decide +kernel⟩

theorem witness_MemoryHealth_7 : ∃ (s : State) (k : Nat), k < 20 ∧ s.work.ready = true ∧ s.work.get (stackPage k) R.MEM_STS_CHSTATE = 1 :=
  ⟨world fun w => w.set (stackPage 19) R.MEM_STS_CHSTATE 1, 19,
    by decide +kernel⟩

/-! ### Witnesses 3 -/

theorem witness_PoolOperations_1 : ∃ (s : State) (x : TableOf) (g : Nat) (n : Nat), ownTable s x ∧ tabSound s x.rq ∧ poolApart s x.rq ∧ (s.work.poolGrow x.rq g n).1 = .done :=
  ⟨world fun w => table 0 0x1000 {} (region0 [(pageA, 4)] w), ⟨0, 0⟩, 1, 16,
    by unfold ownTable poolApart tabSound; decide +kernel⟩

theorem witness_PoolOperations_2 : ∃ (s : State) (x : TableOf) (g : Nat) (src : Nat) (r0 : Nat) (r1 : Nat), ownTable s x ∧ tabSound s x.rq ∧ tabSound s src ∧ shareApart s x.rq src r0 r1 ∧ (s.work.poolShare x.rq g src r0 r1).1 = .done :=
  ⟨world fun w => table 1 0x2000 {} (bank 0x1000 0 [entryWord ⟨0, pageA, 4⟩ false false] (table 0 0x1000 {} (pageCount pageA 1 (region0 [] w)))), ⟨0, 1⟩, 1, 0, 0, 0,
    by unfold ownTable shareApart clearOf tabSound; decide +kernel⟩

theorem witness_PoolOperations_3 : ∃ (s : State) (x : TableOf) (g : Nat) (row : Nat) (pages : List Nat), ownTable s x ∧ tabSound s x.rq ∧ (s.work.poolReplace x.rq g row pages).1 = .done :=
  ⟨world fun w => bank 0x1000 1 [entryWord ⟨0, pageA, 4⟩ false false] (table 0 0x1000 {} (pageCount pageB 1 (pageCount pageA 1 (region0 [] w)))), ⟨0, 0⟩, 1, 0, [pageB],
    by unfold ownTable tabSound; decide +kernel⟩

theorem witness_PoolOperations_4 : ∃ (s : State) (x : TableOf) (g : Nat) (n : Nat), ownTable s x ∧ tabSound s x.rq ∧ (s.work.poolSetpaged x.rq g n).1 = .done :=
  ⟨world fun w => (table 0 0x1000 {} (region0 [] w)).modReq 0 fun r => { r with clen := 10 }, ⟨0, 0⟩, 1, 10,
    by unfold ownTable tabSound; decide +kernel⟩

theorem witness_PoolOperations_5 : ∃ (s : State) (x : TableOf) (g : Nat), ownTable s x ∧ (s.work.poolDropall x.rq g).1 = .done :=
  ⟨world fun w => bank 0x1000 1 [entryWord ⟨0, pageA, 4⟩ false false] (table 0 0x1000 { split := [⟨0, pageB, 4⟩] } (region0 [] w)), ⟨0, 0⟩, 1,
    by unfold ownTable; decide +kernel⟩

theorem witness_EditsNameTheNextGeneration_1 : ∃ (s : State) (rq : Nat) (g : Nat), (s.work.tab rq).reg = true ∧ g ≠ (s.work.tab rq).gen + 1 :=
  ⟨world fun w => table 0 0x1000 {} (region0 [] w), 0, 2,
    by decide +kernel⟩

theorem witness_EditsNameTheNextGeneration_2 : ∃ (s : State) (x : TableOf) (g : Nat) (n : Nat) (src : Nat) (r0 : Nat) (r1 : Nat) (row : Nat) (pages : List Nat) (i : Instr), i ∈ [.grow x g n, .setpaged x g n, .dropall x g, .share x g src r0 r1, .replace x g row pages] ∧ (s.work.tab x.rq).reg = true ∧ (g ≠ (s.work.tab x.rq).gen + 1 ∨ ¬ownTable s x) :=
  ⟨world fun w => table 0 0x1000 {} (region0 [] w), ⟨0, 0⟩, 2, 1, 0, 0, 0, 0, [], .grow ⟨0, 0⟩ 2 1,
    by unfold ownTable; decide +kernel⟩

theorem witness_GenerationsAndPages_1 : ∃ (s : State) (rq : Nat), (s.work.tab rq).canRetire = true ∧ (s.work.tab rq).oldDrop = false ∧ (s.work.tab rq).oldRel = [] ∧ (s.work.tab rq).wait = 0 ∧ (s.work.tab rq).ops = [] ∧ (s.work.req rq).releasing = false ∧ tabSound s rq ∧ (∀ i ∈ (s.work.tab rq).oldLog, i < s.work.tRowcap (s.work.tab rq)) :=
  ⟨world fun w => bank 0x1000 1 [entryWord ⟨0, pageA, 4⟩ false false] (table 0 0x1000 { gen := 1, oldOpen := true, oldLog := [0] } (region0 [] w)), 0,
    by unfold tabSound; decide +kernel⟩

theorem witness_GenerationsAndPages_2 : ∃ (s : State) (tag : Nat) (a : Nat), (zeroingAt s tag a).isSome = true ∧ s.work.firstWait tag = none ∧ (∀ x ∈ zeroingAt s tag a, a + s.work.pageBytes tag x.2 ≤ 2 ^ 64) :=
  ⟨world fun w => ((region0 [] w).pool fun p => { p with regions := SMap.put {} p.regions 0 { zeroing := [(pageA, 4)] } }).wrB (pageA + 4095) 7, 0, pageA,
    by decide +kernel⟩

/-- A table with one private row, a free page, and a compaction that runs. -/
def compacting : State :=
  world fun w => ((bank 0x1000 1 [entryWord ⟨0, pageA, 4⟩ false false] (table 0 0x1000 {} (pageCount pageA 1 (region0 [(pageB, 4)] w)))).wrLE
    0x1020 4 16).d fun d => { d with flt := { d.flt with running := [⟨5, 0, 0, 0⟩] } }

theorem allPair {α β : Type} {o : Option (α × β)} {P : α → β → Prop} (a : α) (d : β) (h : o.map (·.1) = some a) (k : P a ((o.map (·.2)).getD d)) :
    ∀ x y, o = some (x, y) → P x y := by
  intro x y e
  subst e
  cases h
  exact k

/-- What the allocation of the compaction leaves. -/
def compacted : Work := ((newPages compacting 0 0).map (·.2)).getD compacting.work

/-- The state its copying begins in. -/
def allotted : Work := compacted.modTab 0 fun t => { t with alloc := t.alloc ++ [⟨0, pageB, 4⟩] }

theorem allotted_meets : ((allotted.tab 0).reg = true ∧ (allotted.tab 0).oldOpen = false ∧ (allotted.tab 0).dropping = false ∧ (allotted.tab 0).log = [] ∧
      (allotted.tab 0).addr + 128 ≤ pageB) ∧
    (allotted.tPlanes (allotted.tab 0) = 1 ∧ 0 < allotted.tRows (allotted.tab 0) (allotted.tab 0).shadow ∧
      (allotted.tRowOf (allotted.tab 0) (allotted.tab 0).shadow 0).1 = 4 ∧ SMap.at (0, 0) allotted.dev.pool.refs (pageB / 4096) = (1, 4)) ∧
    (allotted.regValid (allotted.tTag (allotted.tab 0) 0) = true ∧ allotted.regPart (allotted.tTag (allotted.tab 0) 0) = (allotted.tab 0).part ∧
      allotted.regLow (allotted.tTag (allotted.tab 0) 0) ≤ pageB ∧ pageB < allotted.regEnd (allotted.tTag (allotted.tab 0) 0) ∧ pageB % 4096 = 0) ∧
    (allotted.at_ = none ∧ allotted.gate = false) ∧
    (∀ i, i < 64 → allotted.rd (poisonA (pageA + 64 * i)) = 0 ∧ allotted.rd (poisonA (pageB + 64 * i)) = 0) ∧ (allotted.tab 0).gen = 0 := by
  decide +kernel

theorem replaced : (Work.poolReplace 0 1 0 [pageB] (allotted.copyLines pageA pageB 64)).1 = .done := by
  obtain ⟨⟨a1, a2, a3, a4, a5⟩, ⟨b1, b2, b3, b4⟩, ⟨c1, c2, c3, c4, c5⟩, d, e, g⟩ := allotted_meets
  have h := Work.poolReplace_done 0 0 4 pageB (pageB + 64 * 64) pageB allotted _
    (Work.copyLines_clean 64 pageA pageB allotted (by decide +kernel) (by decide +kernel) (by decide +kernel) d e) a1 a2 a3 a4 a5 b1 b2 b3 b4 c1 c2 c3 c4 c5
  rw [g] at h
  exact h

theorem rowCopied_one (s : State) (rq row : Nat) (r : PageRef) (w : Work) : rowCopied s rq row [r] w =
    (w.modTab rq fun t => { t with alloc := t.alloc ++ [r] }).copyLines
      (entryAddr (((List.range (s.work.tPlanes (s.work.tab rq))).map (s.work.tEntry (s.work.tab rq) (s.work.tab rq).shadow row)).getD 0 0)) r.addr
      ((w.modTab rq fun t => { t with alloc := t.alloc ++ [r] }).pageBytes r.tag r.k / 64) := rfl

theorem copies : rowCopied compacting 0 0 [⟨0, pageB, 4⟩] compacted = allotted.copyLines pageA pageB 64 := by
  have e1 : entryAddr (((List.range (compacting.work.tPlanes (compacting.work.tab 0))).map
      (compacting.work.tEntry (compacting.work.tab 0) (compacting.work.tab 0).shadow 0)).getD 0 0) = pageA := by decide +kernel
  have e2 : allotted.pageBytes 0 4 / 64 = 64 := by decide +kernel
  have h := rowCopied_one compacting 0 0 ⟨0, pageB, 4⟩ compacted
  rw [e1] at h
  unfold allotted at e2 ⊢
  rw [h, e2]

theorem witness_GenerationsAndPages_3 : ∃ (s : State) (rq : Nat) (row : Nat), (compaction s rq).isSome = true ∧ tabSound s rq ∧ (s.work.tab rq).reg = true ∧ (s.work.tab rq).oldOpen = false ∧ row < s.work.tRows (s.work.tab rq) (s.work.tab rq).shadow ∧ ((∀ j, j < s.work.tPlanes (s.work.tab rq) → entryShared (s.work.tEntry (s.work.tab rq) (s.work.tab rq).shadow row j) = false ∧ (SMap.at (0, 0) s.dev.pool.refs (entryAddr (s.work.tEntry (s.work.tab rq) (s.work.tab rq).shadow row j) / 4096)).1 = 1)) ∧ (s.work.tRowOf (s.work.tab rq) (s.work.tab rq).shadow row).2 + 2 ^ (s.work.tRowOf (s.work.tab rq) (s.work.tab rq).shadow row).1 ≤ s.work.tPaged (s.work.tab rq) ((s.work.tab rq).gen % 2) ∧ (newPages s rq row).isSome = true ∧ ((∀ rs w, newPages s rq row = some (rs, w) → (Work.poolReplace rq ((s.work.tab rq).gen + 1) row (rs.map (·.addr)) (rowCopied s rq row rs w)).1 = .done)) :=
  ⟨compacting, 0, 0,
    by decide +kernel,
    by unfold tabSound; decide +kernel,
    by decide +kernel,
    by decide +kernel,
    by decide +kernel,
    by decide +kernel,
    by decide +kernel,
    by decide +kernel,
    (allPair [⟨0, pageB, 4⟩] compacting.work (by decide +kernel) (by
      have e : (compacting.work.tab 0).gen = 0 := by decide +kernel
      rw [e]
      exact (congrArg (fun w => (Work.poolReplace 0 1 0 [pageB] w).1) copies).trans replaced))⟩

theorem witness_PageRegions_1 : ∃ (s : State) (q : Issue), s.legal q (pplSpec 0x40 fun c => c.arg 0 < 16 && c.arg 1 < 1024 && c.arg 2 < 1024 && bits (c.arg 3) 7 5 == 0 && c.arg 3 < 512 && c.arg 4 < 64) ∧ s.work.regValid (s.arg q.page 0) = false ∧ s.arg q.page 0 / 4 = dieOf q.page - 16 ∧ 16 ≤ dieOf q.page ∧ ((∀ i, i < s.arg q.page 2 → (s.arg q.page 1 + i) / 240 = dieOf q.page - 16 ∧ s.work.owner kT1 (s.arg q.page 1 + i) = some (s.arg q.page 4) ∧ s.work.zeroing false (s.arg q.page 1 + i) = false)) ∧ ((∀ r, r < 16 → r ≠ s.arg q.page 0 → s.work.regValid r = true → overlaps (s.arg q.page 1) (s.arg q.page 2) (s.work.regFirst r / gib) (s.work.regGrans r) = false)) ∧ 8 ≤ s.arg q.page 3 % 32 ∧ s.arg q.page 3 % 32 ≤ 24 ∧ q.page = pplPage (dieOf q.page - 16) :=
  ⟨world fun w => withArgs (pplPage 1) [5, 241, 2, 0x108, 3] (((hasT1 241 (hasT1 242 w)).bnd fun b => { b with owner := SMap.put 0 (SMap.put 0 b.owner (kT1 * 4096 + 241) 4) (kT1 * 4096 + 242) 4 }).modPage (pplPage 1) fun g => { g with state := .idle }), byPf (pplPage 1),
    by decide +kernel⟩

theorem witness_PageRegions_2 : ∃ (s : State) (q : Issue), s.legal q (pplSpec 0x41 fun c => c.arg 0 < 16) ∧ s.arg q.page 0 / 4 = dieOf q.page - 16 ∧ q.page = pplPage (dieOf q.page - 16) ∧ (s.dev.pool.refs.any fun e => decide (s.work.regFirst (s.arg q.page 0) ≤ e.1 * 4096) && decide (e.1 * 4096 < s.work.regEnd (s.arg q.page 0))) = false ∧ (s.work.region (s.arg q.page 0)).zeroing = [] :=
  ⟨world fun w => withArgs (pplPage 0) [0] (inState (pplPage 0) .idle (region0 [(pageA, 4)] w)), byPf (pplPage 0),
    by decide +kernel⟩

/-! ### Witnesses 4 -/

/-- HWK page e of die d works for context 1, which runs; granules 0 to 2 are there. -/
def hwk (d e : Nat) (w : Work) : Work := owned (hwkPage d e) 1 .running (ctxIn 1 .running (hasT1 2 (hasT1 1 (hasT1 0 w))))

/-- A job of one query row and one fresh BF16 key of a head of 64: Q at 64 KiB, keys and values after it, output at 68 KiB. -/
def job1 : Nat := 2 ^ 15 + 2 ^ 16 + 2 ^ 20 + 2 ^ 48 + 2 ^ 96 + 15 * 2 ^ 121 + 2 ^ 192 + 0x3F800000 * 2 ^ 256 + 0x10000 * 2 ^ 320 + 0x10400 * 2 ^ 384 + 0x11000 * 2 ^ 448

/-- The same with a second query group: 17 rows in two tasks. -/
def job2 : Nat := job1 + 16 * 2 ^ 192

/-- A list of one job at an address, outstanding on a page for context 1. -/
def oneList (next : Nat) (jobs : SMap HwkJobSt) (ended : Nat) : HwkList :=
  { ctx := 1, addr := 0x2000, njob := 1, mask := 1, part := 0x40000, size := 1048576, res := 0x30000, go := none, stamp := 0, gens := [], next := next
    jobs := jobs, ended := ended, mover := false }

def hasList (p : Nat) (l : HwkList) (w : Work) : Work := w.hwk fun h => { h with lists := SMap.put none h.lists p (some l) }

/-- A job without queries; a backward job of two row groups; a job of three chunks. -/
def job0 : Nat := job1 - 2 ^ 192

def jobB : Nat := job2 + 2 ^ 31

def jobC : Nat := job1 - 15 * 2 ^ 121 + 2 ^ 103

theorem witness_HawkmothLists_1 : ∃ (s : State) (q : Issue), s.legal q hwkRunSpec ∧ s.work.hlist q.page = none ∧ s.work.hwkCheck (hwkAsk s q.page) = none ∧ s.connected :=
  ⟨world fun w => withArgs (hwkPage 0 0) [0x2000, 0, 0x10001, 0x40000, 0, 17, 0x30000, 0, 0] ((hwk 0 0 w).wrLE 0x2000 128 job1), byPf (hwkPage 0 0),
    by decide +kernel⟩

theorem witness_HawkmothLists_2 : ∃ (s : State) (q : Issue) (st : Status) (n : Nat), s.legal q hwkRunSpec ∧ s.work.hlist q.page = none ∧ s.work.hwkCheck (hwkAsk s q.page) = some (st, n) ∧ s.connected :=
  ⟨world fun w => withArgs (hwkPage 0 0) [0x2000, 0, 0x10001, 0x40000, 0, 16, 0x30000, 0, 0] ((hwk 0 0 w).wrLE 0x2000 128 job1), byPf (hwkPage 0 0), .capacity, 0,
    by decide +kernel⟩

theorem witness_HawkmothLists_3 : ∃ (s : State) (d : Nat) (e : Nat), d < 16 ∧ e < 8 ∧ (s.work.worksFor (hwkPage d e)).isSome = true ∧ (s.work.eng (engKey d e)).deque = [] ∧ (s.work.eng (engKey d e)).feed = [] ∧ (jobTaken s d e).isSome = true ∧ ((∀ p l, jobTaken s d e = some (p, l) → s.work.hlist p = some l ∧ (l.place (s.work.hjob l.addr l.next).need).isSome = true ∧ (s.work.hjob l.addr l.next).ntasks ≠ 0)) :=
  ⟨world fun w => hasList (hwkPage 0 0) (oneList 0 [] 0) ((hwk 0 0 w).wrLE 0x2000 128 job2), 0, 0,
    by decide +kernel,
    by decide +kernel,
    by decide +kernel,
    by decide +kernel,
    by decide +kernel,
    by decide +kernel,
    all2 (by decide +kernel)⟩

theorem witness_HawkmothLists_4 : ∃ (s : State) (d : Nat) (e : Nat), d < 16 ∧ e < 8 ∧ (s.work.worksFor (hwkPage d e)).isSome = true ∧ (s.work.eng (engKey d e)).deque = [] ∧ (s.work.eng (engKey d e)).feed = [] ∧ (jobTaken s d e).isSome = true ∧ ((∀ p l, jobTaken s d e = some (p, l) → s.work.hlist p = some l ∧ (l.place (s.work.hjob l.addr l.next).need).isSome = true ∧ (s.work.hjob l.addr l.next).ntasks = 0)) :=
  ⟨world fun w => hasList (hwkPage 0 0) (oneList 0 [] 0) ((hwk 0 0 w).wrLE 0x2000 128 job0), 0, 0,
    by decide +kernel,
    by decide +kernel,
    by decide +kernel,
    by decide +kernel,
    by decide +kernel,
    by decide +kernel,
    all2 (by decide +kernel)⟩

theorem witness_HawkmothLists_5 : ∃ (s : State) (d : Nat) (e : Nat) (vd : Nat) (ve : Nat), d < 16 ∧ e < 8 ∧ vd < 16 ∧ ve < 8 ∧ vd / 4 = d / 4 ∧ (¬(vd = d ∧ ve = e)) ∧ (s.work.worksFor (hwkPage d e)).isSome = true ∧ (s.work.eng (engKey d e)).deque = [] ∧ (s.work.eng (engKey d e)).feed = [] ∧ (s.work.eng (engKey d e)).cur = none ∧ (s.work.page (hwkPage vd ve)).ctx = some (engCtx s d e) ∧ (s.work.eng (engKey vd ve)).deque ≠ [] ∧ (s.work.eng (engKey vd ve)).feed = [] ∧ (vd = d ∨ (∀ i, i < 8 → i ≠ e → (s.work.page (hwkPage d i)).ctx = some (engCtx s d e) → (s.work.eng (engKey d i)).deque = [])) :=
  ⟨world fun w => (hwk 4 7 (hwk 7 0 w)).modEng (engKey 7 0) fun g => { g with deque := [⟨hwkPage 7 0, 0, 0, 0⟩, ⟨hwkPage 7 0, 1, 0, 0⟩] }, 4, 7, 7, 0,
    by decide +kernel⟩

theorem witness_HawkmothBlocks_1 : ∃ (s : State) (d : Nat) (e : Nat), d < 16 ∧ e < 8 ∧ (s.work.worksFor (hwkPage d e)).isSome = true ∧ unitClear s (hwkPage d e) (engCtx s d e) ∧ ((blockWork s d e).bind fun x => x.2.2.2.nextBlock x.2.2.1 x.1.task x.1.next).isSome = true ∧ ((∀ r l j w, blockWork s d e = some (r, l, j, w) → ∀ n ∈ w.nextBlock j r.task r.next, blockRuns r l j w n)) ∧ ((∀ r l j w, s.work.curTask d e = some (r, l, j, w) → j.bwd = false)) :=
  ⟨world fun w => ((hasList (hwkPage 0 0) (oneList 1 [(0, { off := 16576, taken := true })] 0) ((hwk 0 0 w).wrLE 0x2000 128 job1)).wrLE 0x10000 2 0x3F80).modEng 0 fun g => { g with cur := some ⟨⟨hwkPage 0 0, 0, 0, 0⟩, 0, [{ o := List.replicate 64 0 }]⟩ }, 0, 0,
    by decide +kernel,
    by decide +kernel,
    by decide +kernel,
    by unfold unitClear; decide +kernel,
    by decide +kernel,
    all4 (by unfold blockRuns readyRanges; decide +kernel),
    all4 (by decide +kernel)⟩

theorem witness_HawkmothBlocks_2 : ∃ (s : State) (d : Nat) (e : Nat), d < 16 ∧ e < 8 ∧ (s.work.worksFor (hwkPage d e)).isSome = true ∧ unitClear s (hwkPage d e) (engCtx s d e) ∧ (s.work.curTask d e).isSome = true ∧ ((∀ r l j w, s.work.curTask d e = some (r, l, j, w) → j.bwd = true ∧ r.next ≠ 0 ∧ (w.nextBlock j r.task r.next).isSome = true ∧ ∀ n ∈ w.nextBlock j r.task r.next, blockRuns r l j w n)) :=
  ⟨world fun w => ((hasList (hwkPage 0 0) (oneList 1 [(0, { off := 16576, taken := true })] 0) ((hwk 0 0 w).wrLE 0x2000 128 jobB))).modEng 0 fun g => { g with cur := some ⟨⟨hwkPage 0 0, 0, 0, 0⟩, 1, []⟩ }, 0, 0,
    by decide +kernel,
    by decide +kernel,
    by decide +kernel,
    by unfold unitClear; decide +kernel,
    by decide +kernel,
    all4 (by unfold blockRuns readyRanges; decide +kernel)⟩

theorem witness_HawkmothBlocks_3 : ∃ (s : State) (d : Nat) (e : Nat), d < 16 ∧ e < 8 ∧ (s.work.worksFor (hwkPage d e)).isSome = true ∧ unitClear s (hwkPage d e) (engCtx s d e) ∧ noMirror s ∧ (s.work.curTask d e).isSome = true ∧ ((∀ r l j w, s.work.curTask d e = some (r, l, j, w) → j.bwd = false ∧ w.nextBlock j r.task r.next = none ∧ j.nch = 1 ∧ hwkRowsFree s r j ∧ (SMap.at {} l.jobs r.task.job).tasks + 1 ≠ j.ntasks)) :=
  ⟨world fun w => (hasList (hwkPage 0 0) (oneList 1 [(0, { off := 16576, taken := true })] 0) ((hwk 0 0 w).wrLE 0x2000 128 job2)).modEng 0 fun g => { g with cur := some ⟨⟨hwkPage 0 0, 0, 1, 0⟩, 1, [{ m := 0x3F800000, l := 0x40000000, o := List.replicate 64 0 }]⟩ }, 0, 0,
    by decide +kernel,
    by decide +kernel,
    by decide +kernel,
    by unfold unitClear; decide +kernel,
    by unfold noMirror; decide +kernel,
    by decide +kernel,
    all4 (by unfold hwkRowsFree; decide +kernel)⟩

theorem witness_HawkmothBlocks_4 : ∃ (s : State) (d : Nat) (e : Nat), d < 16 ∧ e < 8 ∧ (s.work.worksFor (hwkPage d e)).isSome = true ∧ unitClear s (hwkPage d e) (engCtx s d e) ∧ (s.work.curTask d e).isSome = true ∧ ((∀ r l j w, s.work.curTask d e = some (r, l, j, w) → w.nextBlock j r.task r.next = none ∧ (SMap.at {} l.jobs r.task.job).tasks + 1 ≠ j.ntasks ∧ if j.bwd then r.next ≠ 0 else j.nch ≠ 1 ∧ SMap.at 0 (SMap.at {} l.jobs r.task.job).chunks r.task.rg + 1 ≠ j.nch)) :=
  ⟨world fun w => (hasList (hwkPage 0 0) (oneList 1 [(0, { off := 16576, taken := true })] 0) ((hwk 0 0 w).wrLE 0x2000 128 jobC)).modEng 0 fun g => { g with cur := some ⟨⟨hwkPage 0 0, 0, 0, 0⟩, 64, [{ m := 0x3F800000, l := 0x40000000, o := List.replicate 64 0 }]⟩ }, 0, 0,
    by decide +kernel,
    by decide +kernel,
    by decide +kernel,
    by unfold unitClear; decide +kernel,
    by decide +kernel,
    all4 (by decide +kernel)⟩

theorem witness_HawkmothBlocks_5 : ∃ (s : State) (p : Nat), typeOf p = 5 ∧ (s.work.page p).outst.isSome = true ∧ s.work.unaccepted p = false ∧ ((s.work.hlist p).any fun l => l.allDone && !l.mover && l.go.isNone && (s.work.anchorOf l.ctx).isNone && (s.work.ctx l.ctx).state != .ending) = true :=
  ⟨world fun w => hasList (hwkPage 15 7) (oneList 1 [] 1) (outstanding (hwkPage 15 7) 0x50 none (hwk 15 7 w)), hwkPage 15 7,
    by decide +kernel⟩

/-- A list of all eight engines of a die. -/
def listOfAll : HwkList := { oneList 1 [(0, { off := 16576, taken := true })] 0 with mask := 255 }

/-- A run with full rows. -/
def fullRun : HwkRun := ⟨⟨hwkPage 0 0, 0, 1, 0⟩, 1, List.replicate 16 { m := 0x3F800000, l := 0x40000000, o := List.replicate 256 0 }⟩

theorem witness_EngineQuiesces_1 : ∃ (s : State) (p : Nat), (s.work.page p).state = .quiescing :=
  ⟨world fun w => (hasList (hwkPage 0 0) listOfAll (owned (hwkPage 0 7) 1 .quiescing w)).modEng 7 fun g => { g with cur := some fullRun }, hwkPage 0 7,
    by decide +kernel⟩

theorem witness_EngineQuiesces_2 : ∃ (s : State) (p : Nat), (s.work.page p).state = .quiescing ∧ typeOf p = 5 ∧ s.work.tlist p = none ∧ (quiesceRec s p).isSome = true ∧ ((∀ a r, quiesceRec s p = some (a, r) → r.rows.length ≤ 16 ∧ rowLen r ≤ 256 ∧ (∀ x ∈ r.rows, x.o.length = rowLen r) ∧ a + 16576 ≤ 2 ^ 64)) :=
  ⟨world fun w => (hasList (hwkPage 0 0) listOfAll (owned (hwkPage 0 7) 1 .quiescing w)).modEng 7 fun g => { g with cur := some fullRun }, hwkPage 0 7,
    by decide +kernel,
    by decide +kernel,
    by decide +kernel,
    by decide +kernel,
    all2 (by decide +kernel)⟩

/-- SEQ 0 of die 0, of context 1, with a ring group of four members. -/
def ring (st : CtxState) (rst rank : Nat) (run : Option RltRun) (w : Work) : Work :=
  ((owned seq0 1 .running (ctxIn 1 st (hasT1 0 w))).set seq0 R.SEQ_RLTSTS_RSTATE rst).modRgroup seq0 fun _ =>
    { p := 4, rank := rank, swlog := 6, nslot := 2, pred := 1, succ := 16, gid := 5, area := 0x100000, slotK := 64, run := run }

/-- The boards of the partition are open. -/
def openBoard (w : Work) : Work := w.setReg (xltPage 0) 0x100 0x10#32

theorem witness_RingFormation_1 : ∃ (s : State) (q : Issue), s.legal q rltFormSpec ∧ formOk s q.page :=
  ⟨world fun w => withArgs seq0 [4 + 2 * 2 ^ 8 + 6 * 2 ^ 16 + 2 * 2 ^ 20, 1 + 16 * 2 ^ 16, 5, 0x100000, 0, 64] (openBoard (owned seq0 1 .bound (ctxIn 1 .running (hasT1 0 w)))), byPf seq0,
    by unfold formOk; decide +kernel⟩

theorem witness_RingFormation_2 : ∃ (s : State) (p : Nat) (b : Bool) (pkg : Nat) (gid : Nat) (n : Nat) (rank : Nat) (swlog : Nat) (nslot : Nat), replyFrom s p b pkg ∧ replyAgrees (s.work.rgroup p) b gid n rank swlog nslot ∧ (if b then (s.work.rgroup p).predOk else (s.work.rgroup p).succOk) = true :=
  ⟨world fun w => (outstanding seq0 0x58 none (ring .running 0 2 none w)).modRgroup seq0 fun g => { g with predOk := true }, seq0, true, 16, 5, 4, 3, 6, 2,
    by unfold replyAgrees replyFrom State.outstanding; decide +kernel⟩

theorem witness_RingFormation_3 : ∃ (s : State) (p : Nat) (b : Bool) (pkg : Nat) (gid : Nat) (n : Nat) (rank : Nat) (swlog : Nat) (nslot : Nat), replyFrom s p b pkg ∧ replyAgrees (s.work.rgroup p) b gid n rank swlog nslot ∧ (if b then (s.work.rgroup p).predOk else (s.work.rgroup p).succOk) = false :=
  ⟨world fun w => outstanding seq0 0x58 none (ring .running 0 0 none w), seq0, false, 1, 5, 4, 3, 6, 2,
    by unfold replyAgrees replyFrom State.outstanding; decide +kernel⟩

theorem witness_RingFormation_4 : ∃ (s : State) (p : Nat) (b : Bool) (pkg : Nat) (gid : Nat) (n : Nat) (rank : Nat) (swlog : Nat) (nslot : Nat), replyFrom s p b pkg ∧ (¬replyAgrees (s.work.rgroup p) b gid n rank swlog nslot) :=
  ⟨world fun w => outstanding seq0 0x58 none (ring .running 0 2 none w), seq0, false, 1, 5, 5, 1, 6, 2,
    by unfold replyAgrees replyFrom State.outstanding; decide +kernel⟩

theorem witness_RingFormation_5 : ∃ (s : State) (p : Nat), s.outstanding p 0x58 ∧ ((s.work.page p).outst.any fun o => decide (o.stamp + s.work.rltTimeout p ≤ s.now.toNat)) = true :=
  ⟨atTime 3000 (world fun w => (outstanding seq0 0x58 none (ring .running 0 2 none w)).set seq0 R.SEQ_RLTTMO_TIMEOUT 3), seq0,
    by unfold State.outstanding; decide +kernel⟩

theorem witness_RingFormation_6 : ∃ (s : State) (q : Issue), s.legal q rltLeaveSpec :=
  ⟨world (ring .running 3 2 none), byPf seq0,
    by decide +kernel⟩

theorem witness_RingRuns_1 : ∃ (s : State) (q : Issue), s.legal q rltRunSpec ∧ (¬runOk s q.page) :=
  ⟨world (ring .running 1 2 none), byPf seq0,
    by unfold runOk; decide +kernel⟩

/-- An entry of a ring schedule: one record, a block of 256 bytes. -/
def rltEntryAt (a rec loc : Nat) (w : Work) : Work := (((w.wrLE a 6 rec).wrLE (a + 8) 1 1).wrLE (a + 16) 6 loc).wrLE (a + 12) 4 256

/-- A list record: one job, its merge list at 16 KiB. -/
def rltRecAt (a list : Nat) (w : Work) : Work := (((w.wrLE a 6 list).wrLE (a + 8) 4 0x10001).wrLE (a + 16) 6 0x4000).wrLE (a + 24) 6 0x30000

theorem witness_RingRuns_2 : ∃ (s : State) (q : Issue), s.legal q rltRunSpec ∧ runOk s q.page ∧ ringCalm s q.page ∧ (s.work.rgroup q.page).earlyState = none :=
  ⟨world fun w => withArgs seq0 [0x1000, 0, 0x10001, 0x40000, 0, 17] (((((owned (hwkPage 0 0) 1 .bound (ring .saving 1 2 none w)) |> rltRecAt 0x3000 0x2000 |> rltRecAt 0x3020 0x2080).wrLE 0x2000 128 job1).wrLE 0x2080 128 (job1 + (0x100000 - 0x10400) * 2 ^ 384)) |> rltEntryAt 0x1000 0x3000 0x10400 |> rltEntryAt 0x1020 0x3020 0 |> rltEntryAt 0x1040 0x3020 0 |> rltEntryAt 0x1060 0x3020 0), byPf seq0,
    by unfold runOk ringCalm ringRoute ringStill; decide +kernel⟩

theorem witness_RingRuns_3 : ∃ (s : State) (p : Nat) (data : List Byte), (s.work.rgroup p).p ≠ 0 ∧ ringCalm s p ∧ ((∃ r ∈ (s.work.rgroup p).run, r.recv < r.arrivals (s.work.rgroup p) ∧ r.occupied (s.work.rgroup p) (r.recv % (s.work.rgroup p).nslot) = false ∧ data.length = (s.work.rltEntry r (r.ofArrival (s.work.rgroup p) r.recv)).len ∧ landAt s p r.recv + data.length ≤ 2 ^ 64)) :=
  ⟨world fun w => (ring .saving 2 2 (some { sched := 0x1000, ncb := 1, decode := true, part := 0, psize := 0, last := 0, issue := (2, 0) }) w).wrLE 0x104c 4 64, seq0, List.replicate 64 9#8,
    by unfold ringCalm ringRoute ringStill; decide +kernel⟩

theorem witness_RingRuns_4 : ∃ (s : State) (p : Nat) (data : List Byte), (s.work.rgroup p).p ≠ 0 ∧ (s.work.rgroup p).run = none ∧ s.work.rstate p = 1 ∧ (s.work.rgroup p).early < (s.work.rgroup p).nslot ∧ data.length ≤ 1024 * (s.work.rgroup p).slotK ∧ landAt s p (s.work.rgroup p).early + data.length ≤ 2 ^ 64 :=
  ⟨world (ring .running 1 2 none), seq0, List.replicate 64 9#8,
    by decide +kernel⟩

theorem witness_RingRuns_5 : ∃ (s : State) (p : Nat) (slot : Nat), (s.work.rgroup p).p ≠ 0 ∧ ringCalm s p ∧ slot < (s.work.rgroup p).nslot ∧ ((∃ r ∈ (s.work.rgroup p).run, slot ∉ r.free)) :=
  ⟨atTime 9 (world fun w => ring .saving 2 2 (some { sched := 0x1000, ncb := 1, decode := true, part := 0, psize := 0, last := 0, free := [0] }) w), seq0, 1,
    by unfold ringCalm ringRoute ringStill; decide +kernel⟩

theorem witness_RingRuns_6 : ∃ (s : State) (p : Nat) (data : List Byte), (s.work.rgroup p).p ≠ 0 ∧ ringCalm s p ∧ ((∃ r ∈ (s.work.rgroup p).run, r.decode = true ∧ r.stateIn = false ∧ ((s.work.rgroup p).rank = 0 → r.stateOut = true) ∧ data.length = (s.work.runStates r (s.work.rgroup p).rank).foldl (fun n e => n + stateBytes e.1 e.2.1 e.2.2) 0)) :=
  ⟨world fun w => ((((((ring .saving 2 0 (some { sched := 0x1000, ncb := 1, decode := true, part := 0, psize := 0, last := 0, stateOut := true }) w).wrLE 0x1000 6 0x3000).wrLE 0x1008 1 1).wrLE 0x3000 6 0x2000).wrLE 0x3008 4 0x10001).wrLE 0x3010 6 0x4000).wrLE 0x4000 6 0x5000 |>.wrLE 0x4008 4 1 |>.wrLE 0x2000 128 job1, seq0, List.replicate 260 3#8,
    by unfold ringCalm ringRoute ringStill; decide +kernel⟩

theorem witness_RingRuns_7 : ∃ (s : State) (p : Nat), (s.work.rgroup p).p ≠ 0 ∧ (s.work.rstate p = 1 ∨ s.work.rstate p = 2) ∧ (s.work.rgroup p).rank ≠ 0 :=
  ⟨world (ring .running 1 3 none), seq0,
    by decide +kernel⟩

theorem witness_RingAbandonment_1 : ∃ (s : State) (q : Issue), s.legal q rltAbandonSpec ∧ (s.work.rstate q.page = 1 ∨ s.work.rstate q.page = 2) ∧ s.connected ∧ dieOf q.page < 16 :=
  ⟨world (ring .running 1 3 none), byPf seq0,
    by decide +kernel⟩

theorem witness_RingAbandonment_2 : ∃ (s : State) (q : Issue), s.reaches q.caller q.page ∧ typeOf q.page = 4 ∧ q.hi = 0 ∧ s.work.mayIssue q.caller q.page = true ∧ ((s.work.page q.page).state = .bound ∨ (s.work.page q.page).state = .running) ∧ ((s.work.page q.page).outst.any fun o => o.code == 0x59) = true ∧ s.work.rstate q.page = 2 ∧ s.connected ∧ dieOf q.page < 16 :=
  ⟨world fun w => outstanding seq0 0x59 none (ring .running 2 3 (some { sched := 0x1000, ncb := 1, decode := true, part := 0, psize := 0, last := 0 }) w), byPf seq0,
    by decide +kernel⟩

theorem witness_RingAbandonment_3 : ∃ (s : State) (p : Nat), typeOf p = 4 ∧ (s.work.rgroup p).p ≠ 0 ∧ (s.work.rstate p = 1 ∨ s.work.rstate p = 2) :=
  ⟨world (ring .running 2 3 (some { sched := 0x1000, ncb := 1, decode := true, part := 0, psize := 0, last := 0 })), seq0,
    by decide +kernel⟩

theorem witness_RingAbandonment_4 : ∃ (s : State) (p : Nat), s.hasCtx p ∧ (s.work.ctx (s.pageCtx p)).state = .running ∧ (s.work.rstate p = 1 ∨ s.work.rstate p = 2) ∧ ((∃ r ∈ (s.work.rgroup p).run, s.work.awaits p r = true ∧ r.last + s.work.rltTimeout p ≤ s.now.toNat)) :=
  ⟨atTime 2000 (world fun w => (ring .running 2 3 (some { sched := 0x1000, ncb := 1, decode := true, part := 0, psize := 0, last := 0 }) w).set seq0 R.SEQ_RLTTMO_TIMEOUT 2), seq0,
    by unfold State.hasCtx; decide +kernel⟩

/-! ### Witnesses 5 -/

/-- Skipper 0 of die 0 works for context 1, which runs, with a task in hand; granules 0 and 1 are there. -/
def skip (run : Option SkpRun) (deque : List SkpTask) (w : Work) : Work :=
  (owned (skpPage 0 0) 1 .running (ctxIn 1 .running (hasT1 1 (hasT1 0 w)))).modSkp (skpPage 0 0) fun g => { g with run := run, deque := deque }

/-- A task descriptor: kind, source, destination, length, P0, P1, join. -/
def task (kind src dst len p0 p1 join : Nat) : SkpTask :=
  ⟨kind + 2 ^ 16 + src * 2 ^ 64 + dst * 2 ^ 128 + len * 2 ^ 192 + p0 * 2 ^ 224 + p1 * 2 ^ 256 + join * 2 ^ 320, 1, skpPage 0 0, 0, none⟩

/-- That task in hand. -/
def inHand (t : SkpTask) (w : Work) : Work := skip (some ⟨t, false, none⟩) [] w

theorem witness_SkipperDeques_1 : ∃ (s : State) (q : Issue), s.legal q skpPushSpec ∧ s.hasCtx q.page ∧ s.connected ∧ s.arg64 q.page 0 % 64 = 0 ∧ s.work.inT1 (s.work.ctx (s.pageCtx q.page)).part (s.arg64 q.page 0) (64 * s.arg q.page 2) = true ∧ s.work.poisoned (s.arg64 q.page 0) (64 * s.arg q.page 2) = false ∧ s.arg q.page 2 ≠ 0 ∧ ((∀ i, i < s.arg q.page 2 → taskBad (s.work.taskAt (s.arg64 q.page 0) i) = false ∧ (bit (s.work.taskAt (s.arg64 q.page 0) i) 8 = true → (s.work.taskGo (s.pageCtx q.page) (s.work.taskAt (s.arg64 q.page 0) i)).isSome = true))) ∧ (s.work.skp q.page).deque.length + s.arg q.page 2 ≤ 64 :=
  ⟨world fun w => withArgs (skpPage 0 0) [0x1000, 0, 2] (((skip none [task 1 0 0 0 0 0 0] w).wrLE 0x1000 1 1).wrLE 0x1040 1 2), byPf (skpPage 0 0),
    by unfold State.hasCtx; decide +kernel⟩

theorem witness_SkipperDeques_2 : ∃ (s : State) (d : Nat) (i : Nat) (x : Task), d < 16 ∧ i < 32 ∧ s.hasCtx (skpPage d i) ∧ s.work.skpWorks (skpPage d i) = true ∧ (s.work.skp (skpPage d i)).deque.length < 64 ∧ x.words.length = 16 ∧ taskBad (taskNum x) = false ∧ ((bits (taskNum x) 4 0 = 0x0A → (SMap.at [] s.dev.rlt.merges (s.pageCtx (skpPage d i))).head? = some (taskNum x) ∧ SMap.at false s.dev.rlt.merging (s.pageCtx (skpPage d i)) = false)) :=
  ⟨world fun w => owned (skpPage 15 31) 1 .bound (ctxIn 1 .running w), 15, 31, { words := 1#32 :: List.replicate 15 0#32 },
    by unfold State.hasCtx; decide +kernel⟩

theorem witness_SkipperDeques_3 : ∃ (s : State) (d : Nat) (i : Nat), d < 16 ∧ i < 32 ∧ s.work.skpWorks (skpPage d i) = true ∧ (s.work.skp (skpPage d i)).run = none ∧ ((s.work.skp (skpPage d i)).deque.all s.work.fenceHeld) = true ∧ (stealFrom s (skpPage d i)).isSome = true ∧ s.connected :=
  ⟨world fun w => (owned (skpPage 0 1) 1 .running (owned (skpPage 0 0) 1 .running (ctxIn 1 .running w))).modSkp (skpPage 0 0) fun g => { g with deque := [task 1 0 0 0 0 0 0, task 2 0 0 0 0 0 0] }, 0, 1,
    by decide +kernel⟩

theorem witness_SkipperDeques_4 : ∃ (s : State) (d : Nat) (i : Nat), d < 16 ∧ i < 32 ∧ handDone s (skpPage d i) ∧ (handTask s (skpPage d i)).join = 0 :=
  ⟨world (skip (some ⟨task 1 0x1000 0x2000 64 0 0 0, true, none⟩) []), 0, 0,
    by unfold handDone unitClear; decide +kernel⟩

theorem witness_SkipperDeques_5 : ∃ (s : State) (d : Nat) (i : Nat), d < 16 ∧ i < 32 ∧ handDone s (skpPage d i) ∧ handJoins s (skpPage d i) ∧ joinCount s (skpPage d i) ≠ 0 ∧ ((joinCount s (skpPage d i) = 1 → goFree s (handTask s (skpPage d i)).ctx (handTask s (skpPage d i)).go)) :=
  ⟨world fun w => (skip (some ⟨task 1 0x1000 0x2000 64 0 0 0x3000, true, none⟩) [] w).wrLE 0x3000 8 2, 0, 0,
    by unfold handJoins handDone goFree readyRanges unitClear State.room; decide +kernel⟩

theorem witness_TasksThatMoveBytes_1 : ∃ (s : State) (d : Nat) (i : Nat), taskInHand s (skpPage d i) 0x01 ∧ srcSpan s (skpPage d i) (handTask s (skpPage d i)).len ∧ dstSpan s (skpPage d i) (handTask s (skpPage d i)).len ∧ apart (srcAt s (skpPage d i)) (handTask s (skpPage d i)).len (dstAt s (skpPage d i)) (handTask s (skpPage d i)).len :=
  ⟨world fun w => (inHand (task 1 0x1001 0x2003 70 0 0 0) w).wrLE 0x1001 70 (2 ^ 500 + 12345), 0, 0,
    by unfold dstSpan srcSpan taskSpan taskInHand noMirror apart freeRanges unitClear; decide +kernel⟩

theorem witness_TasksThatMoveBytes_2 : ∃ (s : State) (d : Nat) (i : Nat), taskInHand s (skpPage d i) 0x02 ∧ rowsNamed s (skpPage d i) ∧ isScr (handTask s (skpPage d i)).src = false ∧ dstSpan s (skpPage d i) ((handTask s (skpPage d i)).len * (handTask s (skpPage d i)).p0) ∧ apart (p1At s (skpPage d i)) (4 * (handTask s (skpPage d i)).len) (dstAt s (skpPage d i)) ((handTask s (skpPage d i)).len * (handTask s (skpPage d i)).p0) ∧ ((∀ n, n < (handTask s (skpPage d i)).len → taskSpan s (skpPage d i) (gatherRow s (skpPage d i) n) (handTask s (skpPage d i)).p0 ∧ s.work.poisoned (gatherRow s (skpPage d i) n) (handTask s (skpPage d i)).p0 = false ∧ apart (gatherRow s (skpPage d i) n) (handTask s (skpPage d i)).p0 (dstAt s (skpPage d i)) ((handTask s (skpPage d i)).len * (handTask s (skpPage d i)).p0))) :=
  ⟨world fun w => (((inHand (task 2 0x10000 0x2000 2 8 0x3000 0) w).wrLE 0x3000 4 3).wrLE 0x10018 8 0x1122334455667788).wrLE 0x10000 8 0x99, 0, 0,
    by unfold rowsNamed dstSpan taskSpan taskInHand noMirror apart freeRanges readyRanges unitClear; decide +kernel⟩

theorem witness_TasksThatMoveBytes_3 : ∃ (s : State) (d : Nat) (i : Nat), taskInHand s (skpPage d i) 0x03 ∧ rowsNamed s (skpPage d i) ∧ isScr (handTask s (skpPage d i)).dst = false ∧ srcSpan s (skpPage d i) ((handTask s (skpPage d i)).len * (handTask s (skpPage d i)).p0) ∧ s.work.poisoned (srcAt s (skpPage d i)) ((handTask s (skpPage d i)).len * (handTask s (skpPage d i)).p0) = false ∧ ((∀ n, n < (handTask s (skpPage d i)).len → taskSpan s (skpPage d i) (scatterRow s (skpPage d i) n) (handTask s (skpPage d i)).p0 ∧ apart (scatterRow s (skpPage d i) n) (handTask s (skpPage d i)).p0 (p1At s (skpPage d i)) (4 * (handTask s (skpPage d i)).len) ∧ apart (scatterRow s (skpPage d i) n) (handTask s (skpPage d i)).p0 (srcAt s (skpPage d i)) ((handTask s (skpPage d i)).len * (handTask s (skpPage d i)).p0))) :=
  ⟨world fun w => ((inHand (task 3 0x10000 0x20000 1 8 0x3000 0) w).wrLE 0x3000 4 5).wrLE 0x10000 8 0x1122334455667788, 0, 0,
    by unfold rowsNamed srcSpan taskSpan taskInHand noMirror apart freeRanges readyRanges unitClear; decide +kernel⟩

theorem witness_TasksThatMoveBytes_4 : ∃ (s : State) (d : Nat) (i : Nat), taskInHand s (skpPage d i) 0x0B ∧ dstSpan s (skpPage d i) (handTask s (skpPage d i)).len :=
  ⟨world (inHand (task 0x0B 0 0x20001 7 0xAABBCCDD 0 0)), 0, 0,
    by unfold dstSpan taskSpan taskInHand noMirror freeRanges unitClear; decide +kernel⟩

theorem witness_TasksThatCompute_1 : ∃ (s : State) (d : Nat) (i : Nat), taskInHand s (skpPage d i) 0x09 ∧ (handTask s (skpPage d i)).p0 % 4 ≠ 3 ∧ srcSpan s (skpPage d i) (4 * (handTask s (skpPage d i)).len) ∧ dstSpan s (skpPage d i) 4 ∧ s.work.poisoned (srcAt s (skpPage d i)) (4 * (handTask s (skpPage d i)).len) = false :=
  ⟨world fun w => (inHand (task 9 0x10000 0x20000 3 0 0 0) w).wrLE 0x10000 12 (0x3F800000 + 0x40000000 * 2 ^ 32 + 0x40400000 * 2 ^ 64), 0, 0,
    by unfold dstSpan srcSpan taskSpan taskInHand noMirror freeRanges unitClear; decide +kernel⟩

theorem witness_TasksThatCompute_2 : ∃ (s : State) (d : Nat) (i : Nat), taskInHand s (skpPage d i) 0x0A ∧ (handTask s (skpPage d i)).p0 % 8 = 0 ∧ (handTask s (skpPage d i)).len = 1 ∧ srcSpan s (skpPage d i) (stateLen (handTask s (skpPage d i)).src) ∧ dstSpan s (skpPage d i) (stateLen (handTask s (skpPage d i)).dst) ∧ s.work.poisoned (srcAt s (skpPage d i)) (stateLen (handTask s (skpPage d i)).src) = false ∧ s.work.poisoned (dstAt s (skpPage d i)) (stateLen (handTask s (skpPage d i)).dst) = false ∧ apart (srcAt s (skpPage d i)) (stateLen (handTask s (skpPage d i)).src) (dstAt s (skpPage d i)) (stateLen (handTask s (skpPage d i)).dst) ∧ s.work.le (dstAt s (skpPage d i) + statOff (handTask s (skpPage d i)).dst 1 64) 4 = ninf32 ∧ s.work.le (srcAt s (skpPage d i) + statOff (handTask s (skpPage d i)).src 1 64) 4 ≠ ninf32 ∧ ofF32 (s.work.le (srcAt s (skpPage d i) + statOff (handTask s (skpPage d i)).src 1 64) 4) ≠ .nan :=
  ⟨world fun w => ((inHand (task 0x0A 0x10000 0x20000 1 0 0 0) w).wrLE 0x20100 4 0xFF800000).wrLE 0x10004 4 0x40400000, 0, 0,
    by unfold dstSpan srcSpan taskSpan taskInHand noMirror apart freeRanges unitClear; decide +kernel⟩

theorem witness_TasksThatCompute_3 : ∃ (s : State) (d : Nat) (i : Nat), taskInHand s (skpPage d i) 0x07 ∧ (handTask s (skpPage d i)).p0 < 2 ^ 20 ∧ (handTask s (skpPage d i)).p1 < 2 ^ 60 ∧ p1At s (skpPage d i) = 0 ∧ 16 ≤ (handTask s (skpPage d i)).p0 ∧ (handTask s (skpPage d i)).p0 ≤ 65536 ∧ (handTask s (skpPage d i)).p0 % 16 = 0 ∧ s.work.physPkg (s.work.ctx (handTask s (skpPage d i)).ctx).part (bits (handTask s (skpPage d i)).p1 59 48) = (some s.work.ownPkg, s.work) ∧ srcSpan s (skpPage d i) ((handTask s (skpPage d i)).len * (handTask s (skpPage d i)).p0) ∧ dstSpan s (skpPage d i) ((handTask s (skpPage d i)).len * (handTask s (skpPage d i)).p0) ∧ apart (srcAt s (skpPage d i)) ((handTask s (skpPage d i)).len * (handTask s (skpPage d i)).p0) (dstAt s (skpPage d i)) ((handTask s (skpPage d i)).len * (handTask s (skpPage d i)).p0) :=
  ⟨world fun w => (inHand (task 7 0x10000 0x20000 2 16 0 0) w).wrLE 0x10000 32 (2 ^ 250 + 77), 0, 0,
    by unfold dstSpan srcSpan taskSpan taskInHand noMirror apart freeRanges unitClear; decide +kernel⟩

theorem witness_TasksThatCompute_4 : ∃ (s : State) (d : Nat) (i : Nat), taskInHand s (skpPage d i) 0x08 ∧ 1 ≤ (handTask s (skpPage d i)).p0 ∧ (handTask s (skpPage d i)).p0 ≤ 16384 ∧ (handTask s (skpPage d i)).len = 1 ∧ srcSpan s (skpPage d i) 8 ∧ bit (unpackEntry s (skpPage d i)) 41 = true ∧ bit (unpackEntry s (skpPage d i)) 42 = true ∧ taskSpan s (skpPage d i) (unpackRow s (skpPage d i)) (4 * (handTask s (skpPage d i)).p0) ∧ dstSpan s (skpPage d i) (4 * (handTask s (skpPage d i)).p0) :=
  ⟨world fun w => ((inHand (task 8 0x10000 0x20000 1 2 (0x30000 + 1 * 2 ^ 48) 0) w).wrLE 0x10000 8 (0x40000000 + 1 * 2 ^ 32 + 2 ^ 41 + 2 ^ 42 + 2 * 2 ^ 48)).wrLE 0x30018 8 (0x3F800000 + 0x40400000 * 2 ^ 32), 0, 0,
    by unfold dstSpan srcSpan taskSpan taskInHand noMirror freeRanges unitClear; decide +kernel⟩

/-- A KV_SCATTER of position 4. -/
def scatterTask : SkpTask := task 4 0x10000 0 1 0 4 0

/-- It is in hand: the row of request 0 covers 16 positions of one byte, four are paged and committed, and the step commits one more. -/
def scattering : State :=
  world fun w => ((((bank 0x1000 1 [entryWord ⟨0, pageA, 4⟩ false false] (table 0 0x1000 {} ((region0 [] (inHand scatterTask w)).set (pplPage 0)
    (R.PPL_RCFG_TSHIFT.i 0) 0))).wrLE 0x1020 4 4).wrLE 0x1040 4 4).modReq 0
    fun r => { r with clen := 4, ctx := 1 }).serve fun x => { x with batches := SMap.put {} x.batches 1 { formed := true, ents := [(0, 0, 1)] } }

/-- With one byte for a token, whatever the configuration is, a token is one row of one byte. -/
theorem oneByte {s : State} {p : Nat} (h : s.work.tshift (s.work.tTag (tskTab s p) 0) = 0) : planeRb s p 0 = 1 ∧ planeRows s p 0 = 1 := by
  have hb : kvRb (tskRq s p) 0 0 = 1 := by
    unfold kvRb
    have : min (2 ^ 0) (Config.kvRow (tskRq s p) 0) ≤ 1 := Nat.min_le_left _ _
    omega
  unfold planeRb planeRows kvCount
  rw [h, hb]
  refine ⟨rfl, ?_⟩
  have : 1 ≤ max 1 (Config.kvRows (tskRq s p) 0) := Nat.le_max_left _ _
  show min 1 _ = 1
  omega

theorem witness_TasksOfTheCache_1 : ∃ (s : State) (d : Nat) (i : Nat), taskInHand s (skpPage d i) 0x04 ∧ scatterOk s (skpPage d i) :=
  ⟨scattering, 0, 0,
    by unfold taskInHand noMirror unitClear; decide +kernel,
    (by
      have hp : tskPlane scattering (skpPage 0 0) = 0 := by decide +kernel
      have h := oneByte (s := scattering) (p := skpPage 0 0) (by decide +kernel)
      unfold scatterOk rowsFree
      rw [hp]
      simp only [h.1, h.2]
      unfold tableSound ownPage srcSpan taskSpan freeRanges entryReady readyRanges apart
      decide +kernel)⟩

set_option synthInstance.maxSize 2000 in
theorem witness_TasksOfTheCache_2 : ∃ (s : State) (d : Nat) (i : Nat), taskInHand s (skpPage d i) 0x05 ∧ flushOk s (skpPage d i) :=
  ⟨world fun w => ((bank 0x1000 1 [entryWord ⟨0, pageA, 4⟩ false false] (table 0 0x1000 {} (inHand (task 5 0 0 0 0 0 0) w))).wrLE 0x1020 4 4).modReq 0 fun r => { r with clen := 4 }, 0, 0,
    by unfold flushOk tableSound rowsFree entryReady ownPage taskSpan taskInHand noMirror apart freeRanges readyRanges unitClear; decide +kernel⟩

set_option synthInstance.maxSize 2000 in
theorem witness_TasksOfTheCache_3 : ∃ (s : State) (d : Nat) (i : Nat), taskInHand s (skpPage d i) 0x06 ∧ splitOk s (skpPage d i) :=
  ⟨world fun w => bank 0x1000 1 [entryWord ⟨0, pageA, 4⟩ true false] (table 0 0x1000 { split := [⟨0, pageB, 4⟩] } (pageCount pageB 1 (region0 [] (inHand (task 6 0 0 0 0 0 0) w)))), 0, 0,
    by unfold splitOk tableSound rowsFree entryReady taskSpan taskInHand noMirror apart freeRanges readyRanges unitClear; decide +kernel⟩

/-! ### Witnesses 6 -/

/-- TSL page i of hub h works for context 1, which runs; granule 0 is there. A table of four BF16 rows of 16 bytes at 4 KiB, a job of one bag at 8 KiB. -/
def tsl (h i : Nat) (w : Work) : Work :=
  ((owned (tslPage h i) 1 .running (ctxIn 1 .running (hasT1 0 w))).wrLE 0x1000 64 (0x20000 + 4 * 2 ^ 64 + 16 * 2 ^ 128 + 2 ^ 144 + 2 ^ 160)).wrLE 0x2000 64
    (0x1000 + 0x3000 * 2 ^ 64 + 0x4000 * 2 ^ 128 + 0x5000 * 2 ^ 256 + 2 ^ 320 + 64 * 2 ^ 384)

/-- A gather list of that job. -/
def aGather (job : Nat) (at_ : Option Nat) (acc : List Nat) : TslList :=
  { ctx := 1, addr := 0x2000, njob := 1, save := 0x8000, go := none, job := job, bag := 0, at_ := at_, acc := acc, n := 0 }

def gathers (p : Nat) (l : TslList) (w : Work) : Work := w.d fun d => { d with tsl := SMap.put none d.tsl p (some l) }

theorem witness_GatherLists_1 : ∃ (s : State) (q : Issue), s.legal q tslRunSpec ∧ s.work.tslCheck (tslAsk s q.page) = none ∧ s.connected :=
  ⟨atTime 50 (world fun w => withArgs (tslPage 3 7) [0x2000, 0, 1, 0, 0x8000] ((tsl 3 7 w).wrLE 0x4004 4 1)), byPf (tslPage 3 7),
    by decide +kernel⟩

theorem witness_GatherLists_2 : ∃ (s : State) (q : Issue) (st : Status) (n : Nat), s.legal q tslRunSpec ∧ s.work.tslCheck (tslAsk s q.page) = some (st, n) ∧ s.connected :=
  ⟨world fun w => withArgs (tslPage 3 7) [0x2000, 0, 1, 0, 0x8001] (tsl 3 7 w), byPf (tslPage 3 7), .bound, 0,
    by decide +kernel⟩

theorem witness_GatherLists_3 : ∃ (s : State) (p : Nat), (s.work.tlist p).isSome = true ∧ (gatherList s p).njob ≤ (gatherList s p).job ∧ s.work.unaccepted p = false ∧ (s.work.page p).outst.isSome = true ∧ (s.work.ctx (gatherList s p).ctx).state ≠ .ending ∧ goFree s (gatherList s p).ctx (gatherList s p).go :=
  ⟨world fun w => gathers (tslPage 0 0) (aGather 1 none []) (outstanding (tslPage 0 0) 0x68 none (tsl 0 0 w)), tslPage 0 0,
    by unfold goFree State.room; decide +kernel⟩

theorem witness_GatherLists_4 : ∃ (s : State) (p : Nat), (s.work.tlist p).isSome = true ∧ (gatherList s p).njob ≤ (gatherList s p).job ∧ s.work.unaccepted p = false ∧ (s.work.page p).outst.isSome = true ∧ (s.work.ctx (gatherList s p).ctx).state = .ending :=
  ⟨world fun w => ctxIn 1 .ending (gathers (tslPage 0 0) (aGather 1 none []) (outstanding (tslPage 0 0) 0x68 none (tsl 0 0 w))), tslPage 0 0,
    by decide +kernel⟩

theorem witness_GatherRows_1 : ∃ (s : State) (h : Nat) (i : Nat), h < 4 ∧ i < 8 ∧ bagOpen s (tslPage h i) ∧ lookupNo s (tslPage h i) < s.work.toff (gatherJob s (tslPage h i)) ((gatherList s (tslPage h i)).bag + 1) ∧ (gatherJob s (tslPage h i)).pool ≠ 3 ∧ (gatherTable s (tslPage h i)).diren = false ∧ (gatherTable s (tslPage h i)).cnten = false ∧ lookupAt s (tslPage h i) + 8 ≤ t1Size ∧ lookupRow s (tslPage h i) < (gatherTable s (tslPage h i)).nrows ∧ s.work.inT1 (s.work.ctx (gatherList s (tslPage h i)).ctx).part (coldRow s (tslPage h i)) (gatherTable s (tslPage h i)).width = true ∧ readyRanges s.work [(lookupAt s (tslPage h i), 8), (coldRow s (tslPage h i), (gatherTable s (tslPage h i)).width)] :=
  ⟨world fun w => (((gathers (tslPage 0 0) (aGather 0 (some 0) [0x3F800000, 0, 0, 0, 0, 0, 0, 0]) (tsl 0 0 w)).wrLE 0x4004 4 1).wrLE 0x3000 8 3).wrLE 0x20030 16 0x4000, 0, 0,
    by unfold bagOpen readyRanges unitClear; decide +kernel⟩

theorem witness_GatherRows_2 : ∃ (s : State) (h : Nat) (i : Nat), h < 4 ∧ i < 8 ∧ bagOpen s (tslPage h i) ∧ noMirror s ∧ s.work.toff (gatherJob s (tslPage h i)) ((gatherList s (tslPage h i)).bag + 1) ≤ lookupNo s (tslPage h i) ∧ (gatherJob s (tslPage h i)).pool ≠ 1 ∧ (gatherJob s (tslPage h i)).oconv = 0 ∧ (gatherList s (tslPage h i)).acc ≠ [] ∧ bagOut s (tslPage h i) + 4 * (gatherList s (tslPage h i)).acc.length ≤ t1Size ∧ freeRanges s.work [(bagOut s (tslPage h i), 4 * (gatherList s (tslPage h i)).acc.length)] :=
  ⟨world fun w => (gathers (tslPage 0 0) (aGather 0 (some 1) [0x3F800000, 7]) (tsl 0 0 w)).wrLE 0x4004 4 1, 0, 0,
    by unfold bagOpen noMirror freeRanges unitClear; decide +kernel⟩

/-- A route descriptor of one token at 4 KiB over a table of two experts at 8 KiB, both on, in group 0. -/
def routes2 (w : Work) : Work :=
  (((((((((hasT1 0 w).wrLE 0x1000 64 (0x3000 + 0x2000 * 2 ^ 128 + 0x4000 * 2 ^ 192 + 0x5000 * 2 ^ 256 + 0x6000 * 2 ^ 320 + 2 ^ 384 + 2 ^ 400 + 256 * 2 ^ 416)).wrLE
    0x2000 2 2).wrLE 0x2008 4 0x3F800000).wrLE 0x200C 4 0x3F800000).wrLE 0x2010 2 0x8000).wrLE 0x2045 1 1).wrLE 0x2055 1 1).wrLE 0x3000 4 0x3F800000).wrLE
    0x3004 4 0x40000000

theorem witness_ExpertRouting_1 : ∃ (s : State) (q : Issue), s.legal q exrSpec ∧ dieOf q.page < 16 :=
  ⟨seqWorld .running (withArgs seq0 [0x1000, 0, 0]), byPf seq0,
    by decide +kernel⟩

theorem witness_ExpertRouting_2 : ∃ (s : State) (h : Nat) (st : Status), h < 4 ∧ routeReady s h ∧ routeFails s h = some st :=
  ⟨seqWorld .running fun w => outstanding seq0 0x2C none (w.exr fun e => { e with routes := SMap.put [] e.routes 0 [{ page := seq0, ctx := 1, desc := 0x1020, go := none }] }), 0, .bound,
    by unfold routeReady freeRanges unitClear; decide +kernel⟩

theorem witness_ExpertRouting_3 : ∃ (s : State) (h : Nat), h < 4 ∧ routeReady s h ∧ routeFails s h = none ∧ noMirror s ∧ goFree s (theRoute s h).ctx (theRoute s h).go ∧ readyRanges s.work [((routeDesc s h).scores, 4 * routeNe s h * (routeDesc s h).t)] ∧ (((routeDesc s h).sets ≠ 0 → readyRanges s.work [((routeDesc s h).sets, (routeDesc s h).t)])) ∧ freeRanges s.work (routeOut s h) :=
  ⟨seqWorld .running fun w => outstanding seq0 0x2C none ((routes2 w).exr fun e => { e with routes := SMap.put [] e.routes 0 [{ page := seq0, ctx := 1, desc := 0x1000, go := none }] }), 0,
    by unfold routeReady goFree noMirror freeRanges readyRanges unitClear State.room; decide +kernel⟩

/-! ### Witnesses 7 -/

/-- Partition 0 has its host window at 0, of 16 submission and 16 event slots, one submission slot waiting with these words; it owns requests and rings 0 to 63. -/
def hostWin (w0 : Nat) (w : Work) : Work :=
  (((((((w.set dbPage (R.DB_WINCFG_ENABLE.i 0) 1).set dbPage (R.DB_WINCFG_SUBLOG.i 0) 4).set dbPage (R.DB_WINCFG_EVLOG.i 0) 4).set dbPage (R.DB_SUBTAIL_TAIL.i 0) 1).set
    dbPage (R.DB_EVHEAD_HEAD.i 0) 16).wrLE (hostA 0) 4 (2 ^ 31 + w0)).wrLE (hostA 2048) 4 (2 ^ 31)).d fun d =>
      { d with host := { d.host with link := true }, bnd := { d.bnd with owner := SMap.put 0 (SMap.put 0 d.bnd.owner (kRQB * 4096) 1) (kRING * 4096) 1 } }

/-- Ring r is set. -/
def ringOn (r : Nat) (w : Work) : Work := w.modRingTok r fun _ => { isSet := true, off := 0, lg := 4, head := 16, next := 0 }

/-- A request as given. -/
def request (rq : Nat) (r : Req) (w : Work) : Work := w.modReq rq fun _ => r

theorem witness_Submissions_1 : ∃ (s : State) (p : Nat), slotHolds s p 1 ∧ (s.work.submit p (s.work.subSlot p) (slotRq s p)).1 = .done :=
  ⟨world fun w => (((((header 0x1000 (region0 [(pageA, 4), (pageB, 4)] (ringOn 0 (hostWin (5 * 256 + 1) (ctxIn 1 .running w))))).set dbPage (R.DB_DEFAULT_CONTEXT.i 0) 1).wrLE (hostA 8) 4 20).wrLE (hostA 12) 4 16).wrLE (hostA 16) 8 0x1000 |>.wrLE (hostA 72) 8 0x1000 |>.wrLE (hostA 80) 8 0x8000 |>.wrLE (hostA 88) 8 99 |>.wrLE (hostA 36) 4 (2 * 2 ^ 23)).d fun d => { d with mdl := { d.mdl with models := SMap.put {} d.mdl.models 0 { (SMap.at {} d.mdl.models 0 : Model) with state := 2, part := 0 } } }, 0,
    by unfold slotHolds; decide +kernel⟩

theorem witness_Submissions_2 : ∃ (s : State) (p : Nat), slotNames s p 2 ∧ 1 ≤ (slotReq s p).state ∧ (slotReq s p).state ≤ 5 ∧ ((s.work.included (slotRq s p) = false → unmirrored s (slotRq s p))) :=
  ⟨world fun w => request 63 { state := 3, clen := 7 } (hostWin (63 * 256 + 2) w), 0,
    by unfold unmirrored slotNames slotHolds; decide +kernel⟩

theorem witness_Submissions_3 : ∃ (s : State) (p : Nat), slotNames s p 3 ∧ 1 ≤ (slotReq s p).state ∧ (slotReq s p).state ≤ 4 :=
  ⟨world fun w => (request 0 { state := 4, ctx := 1 } (hostWin 3 w)).serve fun x => { x with batches := SMap.put {} x.batches 1 { formed := true, ents := [(0, 0, 1)] } }, 0,
    by unfold slotNames slotHolds; decide +kernel⟩

theorem witness_Submissions_4 : ∃ (s : State) (p : Nat), slotNames s p 4 ∧ (slotReq s p).state = 5 :=
  ⟨world fun w => request 1 { state := 5, prior := 3 } (hostWin 0x104 w), 0,
    by unfold slotNames slotHolds; decide +kernel⟩

theorem witness_Submissions_5 : ∃ (s : State) (p : Nat), slotNames s p 5 ∧ ((slotReq s p).state = 6 ∨ (slotReq s p).state = 7) ∧ (slotReq s p).releasing = false ∧ (s.work.tab (slotRq s p)).reg = false ∧ unmirrored s (slotRq s p) :=
  ⟨world fun w => request 1 { state := 7 } (hostWin 0x105 w), 0,
    by unfold unmirrored slotNames slotHolds; decide +kernel⟩

theorem witness_Submissions_6 : ∃ (s : State) (p : Nat), slotNames s p 5 ∧ ((slotReq s p).state = 6 ∨ (slotReq s p).state = 7) ∧ (slotReq s p).releasing = false ∧ (s.work.tab (slotRq s p)).reg = true ∧ (s.work.tab (slotRq s p)).oldOpen = true :=
  ⟨world fun w => table 1 0x1000 { oldOpen := true } (request 1 { state := 6 } (hostWin 0x105 w)), 0,
    by unfold slotNames slotHolds; decide +kernel⟩

theorem witness_Submissions_7 : ∃ (s : State) (p : Nat), slotHolds s p 6 ∧ setRing s p < 2 ^ 13 ∧ s.work.ownsRing p (setRing s p) = true ∧ setOff s p % 64 = 0 ∧ 4 ≤ setLog s p ∧ setLog s p ≤ 12 ∧ setOff s p + 16 * 2 ^ setLog s p ≤ gib ∧ s.work.slotZero (s.work.subSlot p) 6 8 = true ∧ s.work.slotZero (s.work.subSlot p) 17 128 = true ∧ ((∀ e ∈ s.dev.serve.reqs, e.2.state = 0 ∨ e.2.ring ≠ setRing s p)) :=
  ⟨world fun w => (((hostWin 6 w).wrLE (hostA 4) 2 63).wrLE (hostA 8) 8 (2 ^ 30 - 65536)).wrLE (hostA 16) 1 12, 0,
    by unfold slotHolds; decide +kernel⟩

theorem witness_Doorbells_1 : ∃ (s : State) (p : Nat), doorbells s p :=
  ⟨world fun w => inState dbPage .idle (hostWin 6 w), 63,
    by unfold doorbells; decide +kernel⟩

theorem witness_Doorbells_2 : ∃ (s : State) (p : Nat), doorbells s p :=
  ⟨world fun w => inState dbPage .idle (hostWin 6 w), 0,
    by unfold doorbells; decide +kernel⟩

theorem witness_Doorbells_3 : ∃ (s : State) (p : Nat) (v : Word), doorbells s p ∧ s.work.ownsRing p (bits v.toNat 12 0) = true ∧ (s.work.tokRing (bits v.toNat 12 0)).isSet = true :=
  ⟨world fun w => ringOn 63 (inState dbPage .idle (hostWin 6 w)), 0, 63#32 ||| 0xFFF0000#32,
    by unfold doorbells; decide +kernel⟩

theorem witness_Doorbells_4 : ∃ (s : State) (p : Nat) (v : Word), doorbells s p ∧ s.work.winOn p = false ∧ 4 ≤ bits v.toNat 3 0 ∧ bits v.toNat 3 0 ≤ 12 ∧ 4 ≤ bits v.toNat 7 4 ∧ bits v.toNat 7 4 ≤ 14 ∧ bit v.toNat 8 = true ∧ s.work.get dbPage (R.DB_SUBTAIL_TAIL.i p) = 0 :=
  ⟨world (inState dbPage .idle), 63, 0x1E4#32,
    by unfold doorbells; decide +kernel⟩

theorem witness_TenantsAndDumps_1 : ∃ (s : State) (q : Issue), s.legal q (tenSpec 0x70 fun c => c.arg 0 < 2 ^ 12 && c.arg 1 < 2 ^ 24 && c.arg 2 < 2 ^ 24 && c.arg 3 < 2 ^ 17) :=
  ⟨atTime 5 (world fun w => withArgs dbPage [4095, 2 ^ 24 - 1, 3, 0x1FFFF] (inState dbPage .idle w)), byPf dbPage,
    by decide +kernel⟩

theorem witness_TenantsAndDumps_2 : ∃ (s : State) (q : Issue), s.legal q (tenSpec 0x71 fun c => c.arg 0 < 2 ^ 12) ∧ (s.work.page q.page).args.length = 12 :=
  ⟨atTime 5000 (world fun w => (withArgs dbPage [3] (inState dbPage .idle w)).setBucket 3 { level := 5, rate := 1000, burst := 9, pweight := 1, limited := true }), byPf dbPage,
    by decide +kernel⟩

theorem witness_TenantsAndDumps_3 : ∃ (s : State) (q : Issue), s.legal q rqtDumpSpec ∧ s.connected ∧ s.arg q.page 0 + s.arg q.page 1 ≤ 8192 ∧ s.work.t1Populated (s.arg64 q.page 2) (64 * s.arg q.page 1) = true :=
  ⟨world fun w => withArgs (rqtPage 3) [8190, 2, 0x1000, 0] (request 8190 { state := 3, clen := 77 } (inState (rqtPage 3) .running (hasT1 0 w))), byPf (rqtPage 3),
    by decide +kernel⟩

theorem witness_BatchesAndTokens_1 : ∃ (s : State) (q : Issue), mayForm s q ∧ batchCands s (s.pageCtx q.page) = [] :=
  ⟨seqWorld .running (withArgs seq0 [0x1000, 0, 1, 100]), byPf seq0,
    by unfold mayForm; decide +kernel⟩

theorem witness_BatchesAndTokens_2 : ∃ (s : State) (q : Issue), mayForm s q ∧ batchCands s (s.pageCtx q.page) = [(soleCand s (s.pageCtx q.page), soleReq s (s.pageCtx q.page))] ∧ soleCand s (s.pageCtx q.page) < 8192 ∧ (soleReq s (s.pageCtx q.page)).state = 3 ∧ (soleReq s (s.pageCtx q.page)).cancelling = false ∧ (soleReq s (s.pageCtx q.page)).pausing = false ∧ (s.work.bucket (soleReq s (s.pageCtx q.page)).tenant).limited = false ∧ 1 ≤ s.work.tokRoom (soleReq s (s.pageCtx q.page)).ring ∧ (soleReq s (s.pageCtx q.page)).events ≤ s.work.evFree (soleReq s (s.pageCtx q.page)).part ∧ s.work.cacheWait (soleCand s (s.pageCtx q.page)) = false :=
  ⟨atTime 77 (seqWorld .running fun w => withArgs seq0 [0x1000, 0, 2048, 100] (ringOn 0 (request 9 { state := 3, ctx := 1, prompt := 4, clen := 4, limit := 9, deadline := 500 } (hostWin 0 (table 9 0x20000 {} (bank 0x20000 0 [entryWord ⟨0, pageA, 4⟩ false false] (bank 0x20000 1 [entryWord ⟨0, pageA, 4⟩ false false] (region0 [] w)))))))), byPf seq0,
    by unfold mayForm; decide +kernel⟩

theorem witness_BatchesAndTokens_3 : ∃ (s : State) (q : Issue), s.legal q srvSampleSpec ∧ s.connected ∧ s.work.le (s.arg64 q.page 0) 4 ≤ 2048 ∧ s.work.inT1 (s.work.ctx (s.pageCtx q.page)).part (s.arg64 q.page 0) (16 + 16 * s.work.le (s.arg64 q.page 0) 4) = true ∧ s.work.inT1 (s.work.ctx (s.pageCtx q.page)).part (s.arg64 q.page 0) 16 = true ∧ s.work.poisoned (s.arg64 q.page 0) (16 + 16 * s.work.le (s.arg64 q.page 0) 4) = false ∧ ((∀ b, b < s.work.le (s.arg64 q.page 0) 4 → s.work.ctxReq (s.pageCtx q.page) (s.work.batchEnt (s.arg64 q.page 0) b).1 = true ∧ s.work.emits (s.work.batchEnt (s.arg64 q.page 0) b) = false)) :=
  ⟨seqWorld .running fun w => withArgs seq0 [0x1000, 0, 0x2000, 0] (((w.wrLE 0x1000 4 1).wrLE 0x1010 4 5).modReq 5 fun r => { r with state := 3, ctx := 1, prompt := 9 }), byPf seq0,
    by decide +kernel⟩

theorem witness_BatchesAndTokens_4 : ∃ (s : State) (q : Issue), s.legal q srvSampleSpec ∧ s.work.inT1 (s.work.ctx (s.pageCtx q.page)).part (s.arg64 q.page 0) 16 = false :=
  ⟨seqWorld .running (withArgs seq0 [0x40000000, 0, 0x2000, 0]), byPf seq0,
    by decide +kernel⟩

theorem witness_BatchesAndTokens_5 : ∃ (s : State) (c : Nat), publishing s c ∧ (∀ m ∈ (s.work.ctx c).commit, (s.work.page m.page).outst.isSome = true) :=
  ⟨seqWorld .running fun w => (outstanding seq0 0x36 none (w.modCtx 1 fun y => { y with commit := some { page := seq0, batch := 0, outBase := 0, recordsSent := true, stamp := some 9 } })).serve fun x => { x with publish := SMap.put none x.publish 1 (some { stamp := 9, reqs := [], resv := 0, ntok := 0, nprompt := 0 }) }, 1,
    by unfold publishing; decide +kernel⟩

/-- A migration under way from package 3. -/
def moving (r : Option Req) : Migration := { srcIdx := 9, srcPkg := 3, part := 0, ctx := 1, idx := 5, ring := 0, table := 0x1000, tags := [0, 0, 0, 0], entry := r }

def migrates (r : Option Req) (w : Work) : Work := (outstanding dbPage 0x74 none w).serve fun y => { y with migration := some (moving r) }

theorem witness_RequestMigration_1 : ∃ (s : State) (q : Issue), mayMigrate s q :=
  ⟨world fun w => withArgs dbPage [9 + 3 * 2 ^ 16, 0x100, 5, 0x1000, 0, 0] (inState dbPage .idle (ctxIn 1 .running (ringOn 0 (hostWin 0 (header 0x1000 (region0 [] w)))))), byPf dbPage,
    by unfold mayMigrate; decide +kernel⟩

theorem witness_RequestMigration_2 : ∃ (s : State) (rq : Nat) (part : Nat), ((s.work.req rq).part ≠ part ∨ ((s.work.req rq).state ≠ 3 ∧ (s.work.req rq).state ≠ 4) ∨ (s.work.req rq).toPkg ≠ 0) :=
  ⟨world (request 5 { state := 2 }), 5, 0,
    by decide +kernel⟩

theorem witness_RequestMigration_3 : ∃ (s : State) (rq : Nat) (part : Nat), (s.work.req rq).part = part ∧ ((s.work.req rq).state = 3 ∨ (s.work.req rq).state = 4) ∧ (s.work.req rq).toPkg = 0 :=
  ⟨world fun w => request 5 { state := 4 } (table 5 0x1000 {} w), 5, 0,
    by decide +kernel⟩

theorem witness_RequestMigration_4 : ∃ (s : State), migrating s false :=
  ⟨world (migrates none),
    by unfold migrating; decide +kernel⟩

theorem witness_RequestMigration_5 : ∃ (s : State) (entry : List Byte) (header : List Byte), migrating s false ∧ entry ≠ [] ∧ (∀ m ∈ s.dev.serve.migration, answerFits s m entry header) :=
  ⟨world fun w => (migrates none ((header 0x1000 (region0 [(pageA, 4)] w)))).d fun d => { d with mdl := { d.mdl with models := SMap.put {} d.mdl.models 0 { (SMap.at {} d.mdl.models 0 : Model) with state := 2, part := 0 } } }, [3#8], List.replicate 128 0#8 ++ [8#8],
    by unfold answerFits migrating; decide +kernel⟩

theorem witness_RequestMigration_6 : ∃ (s : State), migrating s true :=
  ⟨world fun w => table 5 0x1000 {} (migrates (some { state := 3 }) w),
    by unfold migrating; decide +kernel⟩

theorem witness_RequestMigration_7 : ∃ (s : State), migrating s true :=
  ⟨world fun w => table 5 0x1000 {} (bank 0x1000 1 [entryWord ⟨0, pageA, 4⟩ false false] (migrates (some { state := 3, clen := 2 }) (region0 [] w))),
    by unfold migrating; decide +kernel⟩

theorem witness_RequestMigration_8 : ∃ (s : State) (rq : Nat), (s.work.req rq).state = 8 ∧ (s.work.req rq).releasing = false :=
  ⟨world fun w => table 5 0x1000 { gen := 4, walkers := [3, 4] } (request 5 { state := 8, before := 4, toPkg := 3 } w), 5,
    by decide +kernel⟩

theorem witness_RequestMigration_9 : ∃ (s : State) (rq : Nat), (s.work.req rq).state = 8 ∧ (s.work.req rq).releasing = false ∧ (s.work.tab rq).reg = false ∧ unmirrored s rq ∧ (s.work.req rq).part < 64 :=
  ⟨world fun w => request 5 { state := 8, before := 4, toPkg := 3 } w, 5,
    by unfold unmirrored; decide +kernel⟩

/-! ### Witnesses 8 -/

/-- Channel 0 is the tier-2 set, of 8 GiB; an image of two layers at its start, of one shard, for package 0. -/
def image2 (w : Work) : Work :=
  let b := t2Base
  (((((((((((((hasT1 1 (hasT1 0 w)).set (chanPage 0) R.MEM_STS_INSET 1).set (chanPage 0) R.MEM_STS_CAPG 8).wrLE b 4 0x4D444C57).wrLE (b + 4) 2 1).wrLE (b + 6) 2 2).wrLE
    (b + 8) 2 1).wrLE (b + 12) 4 0x7aec5e34).wrLE (b + 16) 8 0x2000).wrLE (b + 24) 8 64).wrLE (b + 32) 8 128).wrLE (b + 72) 8 0x1000).wrLE (b + 80) 8 0x1000).wrLE (b + 0x1000) 8 64
    |>.wrLE (b + 0x1008) 4 1 |>.wrLE (b + 0x100C) 1 1 |>.wrLE (b + 0x1010) 8 128 |>.wrLE (b + 0x1018) 4 1 |>.wrLE (b + 0x101C) 2 0x102

/-- Its layers: (PHASE, GROUP, offset, length). -/
def layers2 : List (Nat × Nat × Nat × Nat) := [(1, 0, 64, 64), (2, 1, 128, 64)]

/-- Model 5 of partition 0, from that image, its copy at 1 MiB and its layer map at 2 MiB. -/
def model5 (m : Model) (w : Work) : Work :=
  w.modModel 5 fun _ => { m with nlayer := 2, image := t2Base, map := 0x200000, area := 0x100000, layers := layers2 }

theorem witness_LoaderCommands_1 : ∃ (s : State) (q : Issue), s.legal q mdlLoadSpec ∧ (loadModel s q).state = 0 ∧ (s.work.request 6 0 (q.page + 1)).1 = true :=
  ⟨world fun w => withArgs ldr0 [4095 + 63 * 4096, 0, 0x1000, 7, 0x100000, 0, 0x200000, 0] (inState ldr0 .idle w), byPf ldr0,
    by decide +kernel⟩

theorem witness_LoaderCommands_2 : ∃ (s : State) (q : Issue), s.legal q mdlLoadSpec ∧ (loadModel s q).state = 0 ∧ (s.work.request 6 0 (q.page + 1)).1 = false :=
  ⟨world fun w => withArgs ldr0 [5, 0, 0x1000, 0, 0x100000, 0, 0x200000, 0] (inState ldr0 .idle (w.startNow 6 0)), byPf ldr0,
    by decide +kernel⟩

theorem witness_LoaderCommands_3 : ∃ (s : State) (q : Issue), s.legal q ldrStoreSpec ∧ s.arg64 q.page 0 % 4096 = 0 ∧ s.arg64 q.page 2 % 4096 = 0 ∧ s.work.t3Valid (s.arg64 q.page 0) (s.arg q.page 4 * 4096) = true ∧ s.work.t2Populated (s.arg64 q.page 2) (s.arg q.page 4 * 4096) = true ∧ granulesAll (s.arg64 q.page 2 - t2Base) (s.arg q.page 4 * 4096) (fun g => (s.work.owner kT2 g).isNone) = true ∧ s.work.imageIn (s.arg64 q.page 2) (s.arg q.page 4 * 4096) = false ∧ 1 ≤ s.arg q.page 4 ∧ s.arg q.page 4 ≤ 2 ^ 30 ∧ (s.work.request 6 0 (q.page + 1)).1 = true :=
  ⟨world fun w => withArgs ldr0 [0, 0x4000, 0x1000, 0x1000, 1] (inState ldr0 .idle (((((w.set (chanPage 0) R.MEM_STS_INSET 1).set (chanPage 0) R.MEM_STS_CAPG 8).set (xltPage 0) (R.XLT_T3MAP_LO_VALID.i 0) 1).set (xltPage 0) (R.XLT_T3MAP_LEN_LENG.i 0) 1))), byPf ldr0,
    by decide +kernel⟩

theorem witness_LoaderCommands_4 : ∃ (s : State) (q : Issue), s.legal q mdlReplaceSpec ∧ s.connected ∧ (loadModel s q).state = 2 ∧ bits (s.arg q.page 0) 19 18 = 1 ∧ (s.work.request 6 0 (q.page + 1)).1 = true ∧ s.work.imageFails (loadModel s q).part (s.arg64 q.page 1) (s.arg64 q.page 4) none (fun _ len => len) false (s.work.myKey (loadModel s q).origin) = none ∧ inplaceFits s q :=
  ⟨world fun w => withArgs ldr0 [5 + 1 * 2 ^ 18, 0, 0x1000, 0, 0, 0] (inState ldr0 .idle (model5 { state := 2 } (image2 w))), byPf ldr0,
    by unfold inplaceFits; decide +kernel⟩

theorem witness_ModelsInUse_1 : ∃ (s : State) (q : Issue), s.legal q (ldrSpec 0x86 true fun c => c.arg 0 < 2 ^ 12) ∧ (s.work.page q.page).args.length = 12 :=
  ⟨world fun w => withArgs ldr0 [5] (inState ldr0 .idle (model5 { state := 3, sw := 3, opens := [(1, 3), (2, 2)], repl := some { mode := 2, image := t2Base, area := 0, next := 0, waiting := true } } w)), byPf ldr0,
    by decide +kernel⟩

theorem witness_ModelsInUse_2 : ∃ (s : State) (q : Issue), s.legal q { types := [4], code := 0x38, states := [.running], resv := fun c => c.arg 0 < 2 ^ 12 } ∧ (s.work.page q.page).args.length = 12 ∧ ((asked s q).state = 2 ∨ (asked s q).state = 3) ∧ (asked s q).part = (s.work.ctx (s.pageCtx q.page)).part :=
  ⟨seqWorld .running fun w => withArgs seq0 [5] (model5 { state := 2, sw := 3, opens := [(2, 2)] } w), byPf seq0,
    by decide +kernel⟩

theorem witness_ModelsInUse_3 : ∃ (s : State) (q : Issue), s.legal q (ldrSpec 0x83 true fun c => c.arg 0 < 2 ^ 12) ∧ (asked s q).state = 2 ∧ s.work.modelNamed (s.arg q.page 0) = false :=
  ⟨world fun w => withArgs ldr0 [5] (inState ldr0 .idle (model5 { state := 2, opens := [(2, 2)] } w)), byPf ldr0,
    by decide +kernel⟩

theorem witness_ModelsInUse_4 : ∃ (s : State) (m : Nat), (s.work.model m).state = 4 ∧ (s.work.model m).opens = [] ∧ (s.work.page ldr0).outst.isSome = true :=
  ⟨world fun w => outstanding ldr0 0x83 none (model5 { state := 4 } (w.mdl fun x => { x with slots := SMap.put none x.slots 3 (some { model := 5, tenant := 0, addr := 0 }) })), 5,
    by decide +kernel⟩

theorem witness_Replacements_1 : ∃ (s : State) (m : Nat) (l : Nat), l + 1 < (s.work.model m).nlayer ∧ ((∀ o ∈ (s.work.model m).opens, s.work.phase o.1 < (layerOf (s.work.model m).layers l).1 ∨ (layerOf (s.work.model m).layers (l + 1)).1 ≤ s.work.phase o.1)) ∧ ((∃ r sh ls, replOf s m = some (r, sh, ls) ∧ r.mode = 1 ∧ r.next = l ∧ s.work.srcFailed (layerFrom r sh ls l) (layerOf ls l).2.2.2 = false ∧ apart (layerFrom r sh ls l) (layerOf ls l).2.2.2 (layerTo s m l) (layerOf ls l).2.2.2 ∧ layerFrom r sh ls l + (layerOf ls l).2.2.2 ≤ 2 ^ 64 ∧ layerTo s m l + (layerOf ls l).2.2.2 ≤ 2 ^ 64)) :=
  ⟨world fun w => ((model5 { state := 3, repl := some { mode := 1, image := t2Base, area := 0, next := 0, waiting := false } } (image2 w)).wrLE 0x200000 8 0x100040).wrLE (t2Base + 0x1040) 64 (2 ^ 511 + 99), 5, 0,
    by decide +kernel,
    by decide +kernel,
    ex3 (by unfold apart; decide +kernel)⟩

theorem witness_Replacements_2 : ∃ (s : State) (m : Nat) (g : Nat), ((∃ r sh ls, replOf s m = some (r, sh, ls) ∧ r.mode = 2 ∧ r.waiting = false ∧ r.next = g ∧ (nextGroup ls (g + 1)).isSome = true ∧ s.work.srcFailed (r.image + sh.1 + (groupSpan ls g).1) (groupSpan ls g).2 = false ∧ ls.length ≤ (s.work.model m).nlayer ∧ (s.work.model m).map + 16 * (s.work.model m).nlayer ≤ 2 ^ 64)) :=
  ⟨world fun w => model5 { state := 3, repl := some { mode := 2, image := t2Base, area := 0x300000, next := 0, waiting := false } } (image2 w), 5, 0,
    ex3 (by decide +kernel)⟩

theorem witness_Replacements_3 : ∃ (s : State) (m : Nat), (s.work.model m).state = 3 ∧ (∀ x ∈ (s.work.model m).opens, (s.work.model m).sw ≤ x.2) ∧ (s.work.page ldr0).outst.isSome = true ∧ ((∃ r sh ls, replOf s m = some (r, sh, ls) ∧ r.waiting = true ∧ r.mode = 0)) :=
  ⟨world fun w => outstanding ldr0 0x82 none (model5 { state := 3, sw := 1, repl := some { mode := 0, image := t2Base, area := 0x300000, next := 0, waiting := true }, opens := [(1, 1)] } (image2 w)), 5,
    by decide +kernel,
    by decide +kernel,
    by decide +kernel,
    ex3 (by decide +kernel)⟩

theorem witness_Adapters_1 : ∃ (s : State) (q : Issue), s.legal q (ldrSpec 0x84 false fun c => c.arg 0 < 2 ^ 21 && c.arg 1 < 2 ^ 16 && c.arg 3 < 2 ^ 16) ∧ s.connected ∧ ((adpModel s q).state = 2 ∨ (adpModel s q).state = 3) ∧ s.work.slotNamed (s.arg q.page 0 % 512) = false ∧ t2Base ≤ (adpModel s q).image ∧ s.work.le (additionAt s q + 2) 1 = 1 ∧ (s.work.addition (bits (s.arg q.page 0) 20 9) (s.arg q.page 0 % 512) (s.arg q.page 1) (s.arg64 q.page 2)).1 = .done :=
  ⟨world fun w => withArgs (ldrPage 1) [3 + 5 * 512, 0, 0x400000, 0] (inState (ldrPage 1) .idle ((((((model5 { state := 2 } (image2 w)).wrLE (t2Base + 10) 2 1).wrLE (t2Base + 130) 1 1).wrLE (t2Base + 132) 2 9).wrLE (t2Base + 136) 8 0x1040).wrLE (t2Base + 144) 4 1 |>.wrLE (t2Base + 156) 4 0x3c8eb67)), byPf (ldrPage 1),
    by decide +kernel⟩

theorem witness_Adapters_2 : ∃ (s : State) (q : Issue), s.legal q (ldrSpec 0x85 false fun c => c.arg 0 < 2 ^ 9) ∧ s.work.slotNamed (s.arg q.page 0) = false :=
  ⟨world fun w => withArgs ldr0 [3] (inState ldr0 .idle (w.mdl fun x => { x with slots := SMap.put none x.slots 3 (some { model := 5, tenant := 0, addr := 0 }) })), byPf ldr0,
    by decide +kernel⟩

/-! ### Witnesses 9 -/

theorem alone_of (s : State) (c : Nat) (x : Ctx) (h : s.dev.ctxs = [(c, x)]) (hx : SMap.wf {} [(c, x)] = true) : alone s c := by
  refine ⟨by rw [h]; exact hx, fun e he => Or.inl ?_⟩
  have : s.work.ctx e = {} := by
    show SMap.at {} s.dev.ctxs e = {}
    rw [h]
    simp only [SMap.at]
    split <;> simp_all
  rw [this]

/-- The BND page of HD0 with a list of one entry at 4 KiB. -/
def bndList (e : Nat) (f : Work → Work) : State :=
  world fun w => withArgs (bndPage 0) [0x1000, 0, 1, 0] (inState (bndPage 0) .idle ((f (hasT1 0 w)).wrLE 0x1000 8 e))

theorem witness_BindingCommits_1 : ∃ (s : State) (q : Issue), s.legal q bndCommitSpec ∧ s.connected ∧ (bindVerdict s q).isSome = true :=
  ⟨bndList (1 + 3 * 2 ^ 5 + 255 * 2 ^ 16 + 2 * 2 ^ 32) id, byPf (bndPage 0),
    by decide +kernel⟩

theorem witness_BindingCommits_2 : ∃ (s : State) (q : Issue), s.legal q bndCommitSpec ∧ s.connected ∧ bindVerdict s q = none ∧ bit (s.arg q.page 2) 16 = false :=
  ⟨bndList (1 + 3 * 2 ^ 5 + 255 * 2 ^ 16 + 1 * 2 ^ 32) id, byPf (bndPage 0),
    by decide +kernel⟩

theorem witness_BindingCommits_3 : ∃ (s : State), ((∃ k part ix force, oneEntry s k part ix force ∧ 1 ≤ k ∧ k ≤ 10 ∧ part < 64 ∧ ix < 4096 ∧ (∃ n ∈ s.work.kindRange k, ix < n) ∧ s.work.owner k ix ≠ some part ∧ ∀ p ∈ s.work.owner k ix, p < 64 ∧ s.work.holders p k ix = [])) ∧ (s.work.page (bndPage 0)).outst.isSome = true :=
  ⟨world fun w => outstanding (bndPage 0) 0x90 none (w.bnd fun b => { b with owner := SMap.put 0 b.owner (9 * 4096 + 127) 1, commit := some { page := bndPage 0, entries := [(9, false, 63, 0, 127, 1)], force := false } }),
    ⟨9, 63, 127, false, by unfold oneEntry; decide +kernel⟩,
    by decide +kernel⟩

theorem witness_BindingTable_1 : ∃ (s : State) (q : Issue), s.legal q bndQuerySpec ∧ (s.work.page q.page).args.length = 12 ∧ (s.work.kindRange (askedKind s q)).isSome = true ∧ askedIx s q < (s.work.kindRange (askedKind s q)).getD 0 :=
  ⟨world fun w => withArgs (bndPage 3) [6 + 959 * 2 ^ 16] (inState (bndPage 3) .running (w.bnd fun b => { b with owner := SMap.put 0 b.owner (6 * 4096 + 959) 64, zeroing := SMap.put false b.zeroing 959 true })), byPf (bndPage 3),
    by decide +kernel⟩

theorem witness_BindingTable_2 : ∃ (s : State) (i : Nat), i < 64 ∧ s.reaches .pf (bndPage 0) :=
  ⟨world (inState (bndPage 0) .idle), 63,
    by decide +kernel⟩

theorem witness_BindingTable_3 : ∃ (s : State) (tier : Nat) (g : Nat), ((tier = 1 ∧ g < 960) ∨ tier = 2) ∧ s.work.zeroing (tier == 2) g = true :=
  ⟨world fun w => w.bnd fun b => { b with zeroing := SMap.put false b.zeroing 959 true }, 1, 959,
    by decide +kernel⟩

theorem witness_BindingTable_4 : ∃ (s : State) (vf : Nat), 1 ≤ vf ∧ vf ≤ 64 ∧ vf ≤ s.work.get pciPage R.PCI_NUMVF_NUMVF ∧ SMap.wf {} s.dev.serve.reqs = true ∧ SMap.wf {} s.dev.ctxs = true :=
  ⟨world fun w => ((((w.set pciPage R.PCI_NUMVF_NUMVF 64).set dbPage (R.DB_WINCFG_ENABLE.i 63) 1).modReq 7 fun r => { r with state := 3, part := 63 }).modCtx 1 fun x => { x with state := .running, part := 63 }).set (xltPage 0) (R.XLT_T3MAP_LO_PARTITION.i 127) 63 |>.set (xltPage 0) (R.XLT_T3MAP_LO_VALID.i 127) 1, 64,
    by decide +kernel⟩

/-- A descriptor at 4 KiB of context 7, class 1, on group 0 and SEQ 0 of die 0, saved at 256 MiB and spilt at 512 MiB. -/
def descriptor (w : Work) : Work :=
  (((((((((hasT1 0 w).wrLE 0x1000 1 7).wrLE 0x1002 1 1).wrLE 0x1008 6 0x10000000).wrLE 0x1010 1 180).wrLE 0x1014 4 64).wrLE 0x1018 6 0x20000000).wrLE 0x1020 1 1).wrLE
    0x1040 1 1).bnd fun b => { b with owner := SMap.put 0 (SMap.put 0 b.owner (kCG * 4096) 1) (kSEQ * 4096) 1 }

/-- The page of the replica that schedules, at reset. -/
def spw0 : Nat := spwPage false

def spwWorld (args : List Nat) (f : Work → Work) : State := world fun w => withArgs spw0 args (inState spw0 .idle (f w))

theorem witness_ContextCommands_1 : ∃ (s : State) (q : Issue), spwLegal s q 0xA0 (fun c => c.addrOk 0) ∧ s.connected ∧ mayCreate s (s.arg64 q.page 0) (newId s q) (newCtx s q) :=
  ⟨spwWorld [0x1000, 0] descriptor, byPf spw0,
    by unfold mayCreate spwLegal; decide +kernel⟩

theorem witness_ContextCommands_2 : ∃ (s : State) (q : Issue), spwLegal s q 0xA1 (fun c => c.arg 0 < 256) ∧ (ctxNamed s q).state = .created ∧ alone s (s.arg q.page 0) ∧ s.work.mayRank (ctxNamed s q) = false :=
  ⟨spwWorld [255, 0] fun w => (w.d fun d => { d with spw := { d.spw with running := true, started := true, bank := [⟨100, 0⟩] } }).modCtx 255 fun x => { x with state := .created, cls := 1 }, byPf spw0,
    by unfold spwLegal; decide +kernel,
    by decide +kernel,
    alone_of _ 255 { state := .created, cls := 1 } (by decide +kernel) (by decide +kernel),
    by decide +kernel⟩

theorem witness_ContextCommands_3 : ∃ (s : State) (q : Issue), spwLegal s q 0xA1 (fun c => c.arg 0 < 256) ∧ (ctxNamed s q).state = .created ∧ alone s (s.arg q.page 0) ∧ s.work.mayRank (ctxNamed s q) = true ∧ ((∀ p ∈ (ctxNamed s q).pages, (s.work.page p).state = .bound ∨ (s.work.page p).state = .quiesced)) :=
  ⟨spwWorld [7, 0] fun w => (inState (seqPage 0 0) .bound w).modCtx 7 fun x => { x with state := .created, cls := 1, seqs := 1 }, byPf spw0,
    by unfold spwLegal; decide +kernel,
    by decide +kernel,
    alone_of _ 7 { state := .created, cls := 1, seqs := 1 } (by decide +kernel) (by decide +kernel),
    by decide +kernel⟩

theorem witness_ContextCommands_4 : ∃ (s : State) (q : Issue), spwLegal s q 0xA2 (fun c => c.arg 0 < 256) ∧ (ctxNamed s q).state ≠ .none ∧ (ctxNamed s q).state ≠ .ending :=
  ⟨spwWorld [7, 0] fun w => w.modCtx 7 fun x => { x with state := .ready }, byPf spw0,
    by unfold spwLegal; decide +kernel⟩

theorem witness_ContextCommands_5 : ∃ (s : State) (q : Issue), spwLegal s q 0xA3 (fun c => c.arg 0 < 256) ∧ (ctxNamed s q).state ≠ .none :=
  ⟨spwWorld [7, 77, 1] fun w => w.modCtx 7 fun x => { x with state := .ready }, byPf spw0,
    by unfold spwLegal; decide +kernel⟩

theorem witness_ContextCommands_6 : ∃ (s : State) (q : Issue), spwLegal s q 0xA4 (fun c => c.arg 0 < 256) ∧ (s.work.page q.page).args.length = 12 :=
  ⟨spwWorld [7, 77, 1] fun w => w.modCtx 7 fun x => { x with state := .ready, deadline := 5 }, byPf spw0,
    by unfold spwLegal; decide +kernel⟩

theorem witness_SavesAndTurns_1 : ∃ (s : State) (c : Nat), (s.work.ctx c).state = .saving ∧ (s.work.ctx c).discard = false ∧ s.work.mayRank (s.work.ctx c) = false :=
  ⟨world fun w => (w.d fun d => { d with spw := { d.spw with running := true, started := true, bank := [⟨100, 0⟩] } }).modCtx 7 fun x => { x with state := .saving, cls := 1 }, 7,
    by decide +kernel⟩

theorem witness_SavesAndTurns_2 : ∃ (s : State) (c : Nat), (s.work.ctx c).state = .restoring ∧ (s.work.ctx c).restored = false ∧ alone s c ∧ s.work.granted (s.work.ctx c).part (s.work.ctx c).cls = true ∧ s.dev.tiers.rings = [] ∧ s.dev.rlt.groups = [] :=
  ⟨world fun w => w.modCtx 7 fun x => { x with state := .restoring, cls := 1 }, 7,
    by decide +kernel,
    by decide +kernel,
    alone_of _ 7 { state := .restoring, cls := 1 } (by decide +kernel) (by decide +kernel),
    by decide +kernel⟩

theorem witness_SavesAndTurns_3 : ∃ (s : State) (c : Nat), (s.work.ctx c).cls = 2 ∧ (s.work.ctx c).state = .running ∧ (s.work.ctx c).runSince.toNat + (s.work.ctx c).turnLeft ≤ s.now.toNat ∧ alone s c ∧ s.work.granted (s.work.ctx c).part 2 = true :=
  ⟨atTime 5000000 (world fun w => (w.set spw0 R.SPW_SLICE_SLICE 500).modCtx 7 fun x => { x with state := .running, cls := 2, turnLeft := 4000 }), 7,
    by decide +kernel,
    by decide +kernel,
    by decide +kernel,
    alone_of _ 7 { state := .running, cls := 2, turnLeft := 4000 } (by decide +kernel) (by decide +kernel),
    by decide +kernel⟩

theorem witness_Schedule_1 : ∃ (s : State) (q : Issue), spwLegal s q 0xA8 (fun c => c.addrOk 0 && decide (c.arg 2 < 512)) ∧ s.connected ∧ s.arg64 q.page 0 % 32 = 0 ∧ 1 ≤ s.arg q.page 2 ∧ s.arg q.page 2 ≤ 256 ∧ s.work.t1Populated (s.arg64 q.page 0) (32 * s.arg q.page 2) = true ∧ s.work.poisoned (s.arg64 q.page 0) (32 * s.arg q.page 2) = false ∧ ((∀ i, i < s.arg q.page 2 → windowOk s (winAddr s q i))) ∧ ((List.range (s.arg q.page 2)).map fun i => s.work.le (winAddr s q i) 4).sum ≤ 10 ^ 6 :=
  ⟨spwWorld [0x1000, 0, 2] fun w => (((hasT1 0 w).wrLE 0x1000 4 10).wrLE 0x1008 24 5).wrLE 0x1020 4 999990, byPf spw0,
    by unfold windowOk spwLegal; decide +kernel⟩

theorem witness_Schedule_2 : ∃ (s : State) (q : Issue), spwLegal s q 0xA9 (fun _ => true) ∧ s.dev.spw.running = false ∧ s.dev.spw.shadowFull = true ∧ s.now.toNat + 100000 ≤ s.arg64 q.page 0 :=
  ⟨spwWorld [100000, 0] fun w => w.d fun d => { d with spw := { d.spw with shadowFull := true, shadowBank := [⟨100, 3⟩] } }, byPf spw0,
    by unfold spwLegal; decide +kernel⟩

theorem witness_Schedule_3 : ∃ (s : State) (q : Issue), spwLegal s q 0xAA (fun _ => true) ∧ s.dev.spw.running = true :=
  ⟨spwWorld [] fun w => w.d fun d => { d with spw := { d.spw with running := true, started := true, bank := [⟨100, 3⟩] } }, byPf spw0,
    by unfold spwLegal; decide +kernel⟩

theorem witness_Schedule_4 : ∃ (s : State) (q : Issue), spwLegal s q 0xAB (fun c => c.arg 0 < 4096 && c.arg 1 < 65536) :=
  ⟨spwWorld [4095, 0] id, byPf spw0,
    by unfold spwLegal; decide +kernel⟩

theorem witness_Schedule_5 : ∃ (s : State), s.dev.spw.running = true ∧ s.dev.spw.started = false ∧ s.dev.spw.stopReq = false ∧ s.dev.spw.primaryLost = false ∧ s.dev.spw.t0 ≤ s.now.toNat :=
  ⟨atTime 100000 (world fun w => w.d fun d => { d with spw := { d.spw with running := true, t0 := 100000, bank := [⟨100, 3⟩] } }),
    by decide +kernel⟩

theorem witness_Schedule_6 : ∃ (s : State), s.dev.spw.running = true ∧ s.dev.spw.started = true ∧ s.dev.spw.primaryLost = false ∧ s.dev.spw.nextStart ≤ s.now.toNat ∧ s.dev.spw.win + 1 < s.dev.spw.bank.length ∧ s.dev.spw.bank.length ≤ 256 :=
  ⟨atTime 200000 (world fun w => w.d fun d => { d with spw := { d.spw with running := true, started := true, frameStart := 100000, bank := [⟨100, 3⟩, ⟨50, 1⟩] } }),
    by decide +kernel⟩

theorem witness_Schedule_7 : ∃ (s : State), s.dev.spw.running = true ∧ s.dev.spw.started = true ∧ s.dev.spw.primaryLost = false ∧ s.dev.spw.nextStart ≤ s.now.toNat ∧ s.dev.spw.bank.length ≤ s.dev.spw.win + 1 ∧ s.dev.spw.stopReq = true ∧ s.dev.spw.stopPage = s.work.spwActing + 1 ∧ (s.work.page s.work.spwActing).outst.isSome = true :=
  ⟨atTime 200000 (world fun w => outstanding spw0 0xAA none (w.d fun d => { d with spw := { d.spw with running := true, started := true, frameStart := 100000, bank := [⟨100, 3⟩], stopReq := true, stopPage := spw0 + 1 } })),
    by decide +kernel⟩

theorem witness_Schedule_8 : ∃ (s : State), s.dev.spw.running = true ∧ s.dev.spw.lead = false ∧ s.dev.spw.nextStart ≤ s.now.toNat + s.work.get s.work.spwActing R.SPW_LEAD_LEAD ∧ s.dev.spw.nextWin.isSome = true :=
  ⟨atTime 199999 (world fun w => (w.d fun d => { d with spw := { d.spw with running := true, started := true, frameStart := 100000, bank := [⟨100, 3⟩] } }).set spw0 R.SPW_LEAD_LEAD 1000),
    by decide +kernel⟩

theorem witness_Schedule_9 : ∃ (s : State), s.dev.spw.standbyActs = false :=
  ⟨world id,
    by decide +kernel⟩

theorem witness_Schedule_10 : ∃ (s : State), s.dev.spw.primaryLost = true ∧ (s.dev.spw.running = false ∨ s.dev.spw.nextStart ≤ s.now.toNat) :=
  ⟨atTime 200000 (world fun w => w.d fun d => { d with spw := { d.spw with running := true, started := true, frameStart := 100000, bank := [⟨100, 3⟩], primaryLost := true } }),
    by decide +kernel⟩

/-! ### Witnesses 10 -/

/-- Port n in a link state, with these lanes in service. -/
def link (n st lanes : Nat) (w : Work) : Work := (w.setLstate n st).setLanes n lanes

def portIs (n : Nat) (g : GylPort) (w : Work) : Work := w.modPort n fun _ => g

/-- A flit and a message. -/
def flit (seq : Nat) (ok : Bool) : Flit := { seq := seq, ack := 65535, nak := false, idle := false, crcOk := ok, msgs := [] }

def msg (kind addr len : Nat) (data : List Byte) : Msg :=
  { kind := kind, vc := 0, srcPkg := 1, dstPkg := 0, part := 0, tag := 9, addr := addr, len := len, lvl := 0, status := 0, op := 0, data := data }

theorem witness_LinkStates_1 : ∃ (s : State) (h : Nat) (i : Nat), gylReached s h i ∧ s.work.lstate (2 * h + i) = 0 :=
  ⟨world (inState (portPage 7) .idle), 3, 1,
    by unfold gylReached; decide +kernel⟩

theorem witness_LinkStates_2 : ∃ (s : State) (h : Nat) (i : Nat), gylReached s h i ∧ (s.work.port (2 * h + i)).wait = [] :=
  ⟨world fun w => link 0 2 0xFFFFFFFFFF (portIs 0 { replay := [flit 0 true] } (inState (portPage 0) .running w)), 0, 0,
    by unfold gylReached; decide +kernel⟩

theorem witness_LinkStates_3 : ∃ (s : State) (h : Nat) (i : Nat) (lanes : Nat) (peer : PeerInfo), h < 4 ∧ i < 2 ∧ s.work.lstate (2 * h + i) = 1 ∧ 4 ≤ popcount 40 (foundLanes h i lanes) ∧ s.work.peerOk (2 * h + i) peer = true ∧ peer.pkg < 2 ^ 12 :=
  ⟨world fun w => link 0 1 0 (inState (portPage 0) .idle w), 0, 0, 0xFFFFFFFFFFF, { pkg := 4095, hub := 2, port := 0, idvalid := false },
    by decide +kernel⟩

theorem witness_LinkStates_4 : ∃ (s : State) (h : Nat) (i : Nat), h < 4 ∧ i < 2 ∧ s.work.lstate (2 * h + i) = 1 ∧ (s.work.port (2 * h + i)).wait = [] :=
  ⟨world (link 7 1 0), 3, 1,
    by decide +kernel⟩

theorem witness_LinkStates_5 : ∃ (s : State) (h : Nat) (i : Nat), h < 4 ∧ i < 2 ∧ s.work.lstate (2 * h + i) = 2 :=
  ⟨world (link 7 2 0xF), 3, 1,
    by decide +kernel⟩

theorem witness_LinkStates_6 : ∃ (s : State) (h : Nat) (i : Nat), h < 4 ∧ i < 2 ∧ s.work.lstate (2 * h + i) = 2 ∧ (s.work.port (2 * h + i)).replay ≠ [] :=
  ⟨world fun w => link 7 2 0xF (portIs 7 { replay := [flit 0 true] } w), 3, 1,
    by decide +kernel⟩

theorem witness_LinkStates_7 : ∃ (s : State) (q : Issue), s.legal q retrainSpec ∧ s.work.lstate (portOf q.page) = 2 ∧ (s.work.request 3 (portOf q.page) (q.page + 1)).1 = true :=
  ⟨world fun w => inState (portPage 6) .running (link 6 2 0xF w), byPf (portPage 6),
    by decide +kernel⟩

theorem witness_LinkStates_8 : ∃ (s : State) (h : Nat) (i : Nat) (lanes : Nat), h < 4 ∧ i < 2 ∧ s.work.lstate (2 * h + i) = 3 ∧ 4 ≤ popcount 40 (foundLanes h i lanes) :=
  ⟨world fun w => link 1 3 0xFF (portIs 1 { failed := 1 } w), 0, 1, 0x1F,
    by decide +kernel⟩

theorem witness_LinkStates_9 : ∃ (s : State) (h : Nat) (i : Nat), h < 4 ∧ i < 2 ∧ s.work.lstate (2 * h + i) = 3 ∧ (s.work.port (2 * h + i)).wait = [] :=
  ⟨world fun w => link 1 3 0xFF (portIs 1 { replay := [flit 0 true] } w), 0, 1,
    by decide +kernel⟩

theorem witness_LinkStates_10 : ∃ (s : State) (h : Nat) (i : Nat), h < 4 ∧ i < 2 ∧ s.work.lstate (2 * h + i) = 2 :=
  ⟨world (link 7 2 0xF), 3, 1,
    by decide +kernel⟩

theorem witness_FlitsAndLanes_1 : ∃ (s : State) (h : Nat) (i : Nat) (f : Flit), h < 4 ∧ i < 2 ∧ s.work.lstate (2 * h + i) = 2 ∧ (s.work.port (2 * h + i)).replay = [] ∧ (s.work.port (2 * h + i)).wait = [] ∧ (s.work.port (2 * h + i)).naks < 16 ∧ f.crcOk = true ∧ f.nak = false ∧ f.idle = false ∧ f.seq = (s.work.port (2 * h + i)).expect :=
  ⟨world fun w => link 7 2 0xF (portIs 7 { expect := 65535 } w), 3, 1, flit 65535 true,
    by decide +kernel⟩

theorem witness_FlitsAndLanes_2 : ∃ (s : State) (h : Nat) (i : Nat) (f : Flit), h < 4 ∧ i < 2 ∧ s.work.lstate (2 * h + i) = 2 ∧ f.crcOk = false :=
  ⟨world (link 0 2 0xF), 0, 0, flit 5 false,
    by decide +kernel⟩

theorem witness_FlitsAndLanes_3 : ∃ (s : State) (h : Nat) (i : Nat) (lane : Nat), h < 4 ∧ i < 2 ∧ s.work.lstate (2 * h + i) = 2 ∧ bit (s.work.lanes (2 * h + i)) lane = true ∧ (s.work.port (2 * h + i)).failed = 0 ∧ 4 ≤ popcount 40 (s.work.lanes (2 * h + i) - (s.work.lanes (2 * h + i) &&& 2 ^ lane)) ∧ s.work.runs 3 (2 * h + i) = false ∧ s.work.runs 4 (2 * h + i) = false :=
  ⟨world (link 0 2 0xFFFFFFFFFF), 0, 0, 39,
    by decide +kernel⟩

theorem witness_FlitsAndLanes_4 : ∃ (s : State) (h : Nat) (i : Nat) (lane : Nat), h < 4 ∧ i < 2 ∧ s.work.lstate (2 * h + i) = 2 ∧ bit (s.work.lanes (2 * h + i)) lane = true ∧ (s.work.port (2 * h + i)).failed ≠ 0 ∧ bit (s.work.port (2 * h + i)).failed lane = false ∧ lane ∉ (s.work.port (2 * h + i)).later :=
  ⟨world fun w => link 0 2 0xFFFFFFFFFF (portIs 0 { failed := 2 ^ 39 } w), 0, 0, 0,
    by decide +kernel⟩

theorem witness_FlitsAndLanes_5 : ∃ (s : State) (h : Nat) (i : Nat), h < 4 ∧ i < 2 ∧ s.work.lstate (2 * h + i) = 2 ∧ (s.work.port (2 * h + i)).failed ≠ 0 ∧ (s.work.port (2 * h + i)).later = [] ∧ s.work.runs 4 (2 * h + i) = true :=
  ⟨world fun w => (link 0 2 0xFFFFFFFFFF (portIs 0 { failed := 2 ^ 39 } w)).startNow 4 0, 0, 0,
    by decide +kernel⟩

theorem witness_FlitsAndLanes_6 : ∃ (s : State) (q : Issue), s.legal q scanSpec ∧ s.arg q.page 0 = 0 ∧ s.work.lstate (portOf q.page) = 2 ∧ s.arg64 q.page 1 % 64 = 0 ∧ s.work.t1Populated (s.arg64 q.page 1) 256 = true :=
  ⟨world fun w => withArgs (portPage 1) [0, 0x1000, 0, 1000] (inState (portPage 1) .running (link 1 2 0xF (hasT1 0 w))), byPf (portPage 1),
    by decide +kernel⟩

theorem witness_FlitsAndLanes_7 : ∃ (s : State) (h : Nat) (i : Nat) (rec : List Byte), h < 4 ∧ i < 2 ∧ ((s.work.port (2 * h + i)).scan.any fun x => x.1 == 0) = true ∧ (s.work.page (portPage (2 * h + i))).outst.isSome = true ∧ rec.length = 256 ∧ scanAddr s (2 * h + i) + 256 ≤ t1Size :=
  ⟨world fun w => outstanding (portPage 7) 0xB0 none (link 7 2 0xF (portIs 7 { scan := some (0, 0x1000, 1000) } w)), 3, 1, List.replicate 256 7#8,
    by decide +kernel⟩

theorem witness_LinkMessages_1 : ∃ (s : State) (m : Msg), m ∈ s.dev.gyl.issued ∧ s.connected ∧ (∀ x ∈ s.dev.gyl.pend, dieOf x.page < 20) ∧ (hopPort s m).isSome = true ∧ (∀ e ∈ hopPort s m, s.work.lstate e.1 = 2 ∧ (s.work.port e.1).wait = [] ∧ (s.work.port e.1).replay.length < 16384 ∧ (s.work.port e.1).failed = 0) :=
  ⟨world fun w => (link 4 2 0xF w).gyl fun g => { g with issued := [{ msg 4 0 0 [] with srcPkg := 0, dstPkg := 1 }] }, { msg 4 0 0 [] with srcPkg := 0, dstPkg := 1 },
    by decide +kernel⟩

theorem witness_LinkMessages_2 : ∃ (s : State) (m : Msg), m.kind = 1 ∧ m.dstPkg = s.work.ownPkg ∧ s.connected ∧ msgOk m = true ∧ m.addr + m.len ≤ t1Size ∧ s.work.readable m.part m.addr m.len = true ∧ s.work.poisoned m.addr m.len = false :=
  ⟨world fun w => (hasT1 0 w).wrLE 0x1FFC 4 0x12345678, msg 1 0x1FFC 4 [],
    by decide +kernel⟩

theorem witness_LinkMessages_3 : ∃ (s : State) (m : Msg), m.kind = 2 ∧ m.dstPkg = s.work.ownPkg ∧ s.connected ∧ msgOk m = true ∧ m.data.length = m.len ∧ remoteParts m.addr = none ∧ s.work.inT1 m.part m.addr m.len = true :=
  ⟨world (hasT1 0), msg 2 0x1000 8 [1, 2, 3, 4, 5, 6, 7, 8],
    by decide +kernel⟩

theorem witness_LinkMessages_4 : ∃ (s : State) (m : Msg), m.kind = 7 ∧ m.dstPkg = s.work.ownPkg ∧ s.connected ∧ m.addr % 8 = 0 ∧ m.data.length = 8 ∧ s.work.inT1 m.part m.addr 8 = true ∧ s.work.poisoned m.addr 8 = false :=
  ⟨world (hasT1 0), msg 7 0x1000 8 [1, 2, 3, 4, 5, 6, 7, 8],
    by decide +kernel⟩

theorem witness_LinkMessages_5 : ∃ (s : State) (m : Msg), m.kind = 3 ∧ m.dstPkg = s.work.ownPkg ∧ s.connected ∧ m.status = 0 ∧ ((waiting s m).any fun x => x.kind == 1 && decide (x.dst + m.data.length ≤ 2 ^ 64)) = true :=
  ⟨world fun w => (hasT1 0 w).gyl fun g => { g with pend := [{ tag := 9, page := 5, ctx := 1, kind := 1, dst := 0x3000 }] }, msg 3 0 4 [1, 2, 3, 4],
    by decide +kernel⟩

theorem witness_LinkMessages_6 : ∃ (s : State) (m : Msg), m.kind = 4 ∧ m.dstPkg = s.work.ownPkg ∧ (waiting s m).isSome = true :=
  ⟨world fun w => w.gyl fun g => { g with pend := [{ tag := 9, page := 5, ctx := 1, kind := 0, dst := 0 }] }, msg 4 0 0 [],
    by decide +kernel⟩

theorem witness_LinkMessages_7 : ∃ (s : State) (m : Msg), m.kind = 6 ∧ m.dstPkg = s.work.ownPkg ∧ ((waiting s m).any fun x => (s.work.ctx x.ctx).state != .none) = true :=
  ⟨world fun w => (ctxIn 1 .running w).gyl fun g => { g with pend := [{ tag := 9, page := seq0, ctx := 1, kind := 0, dst := 0 }] }, msg 6 0 0 [],
    by decide +kernel⟩

/-- A program of one op for SEQ 0 of die 0, of context 1; its peer 0 is SEQ 5 of die 3 of package 2. -/
def prog (x : Nat) : CollProg := { ctx := 1, ops := [x], peers := [2 ^ 31 + 2 + 3 * 2 ^ 12 + 2 ^ 16, 0], data := 0x1000 }

/-- It runs, with these messages buffered. -/
def progWorld (x : Nat) (buf : List CollMsg) (f : Work → Work) : State :=
  seqWorld .running fun w => f ((w.modColl seq0 fun _ => { prog := some (prog x), buf := buf }).set seq0 R.SEQ_COLLSTS_GROUP 9)

/-- A message of peer 0. -/
def fromPeer (isData : Bool) (tag : Nat) (data : List Byte) : CollMsg :=
  { group := 9, inst := 0, part := 0, src := 2 + 3 * 2 ^ 12 + 2 ^ 16, isData := isData, tag := tag, data := data }

theorem witness_CollectiveOps_1 : ∃ (s : State) (p : Nat), collRuns s p 1 ∧ s.work.hasCredit p (peerOf s p) = true :=
  ⟨progWorld 1 [] id, seq0,
    by unfold collRuns; decide +kernel⟩

theorem witness_CollectiveOps_2 : ∃ (s : State) (p : Nat), collRuns s p 2 ∧ (arrivals s p).1.length = opImm (opOf s p) :=
  ⟨progWorld (2 + 1 * 2 ^ 16) [fromPeer true 0 [], fromPeer false 0 []] id, seq0,
    by unfold collRuns; decide +kernel⟩

theorem witness_CollectiveOps_3 : ∃ (s : State) (p : Nat), collRuns s p 3 ∧ s.work.hasCredit p (peerOf s p) = true :=
  ⟨progWorld (3 + 15 * 2 ^ 8) [] fun w => w.setX seq0 15 77, seq0,
    by unfold collRuns; decide +kernel⟩

theorem witness_CollectiveOps_4 : ∃ (s : State) (p : Nat), collRuns s p 4 ∧ msgReady s p :=
  ⟨progWorld (4 + 14 * 2 ^ 8) [fromPeer true 0 [1, 2, 3, 4, 5, 6, 7, 8]] fun w => w.set seq0 R.SEQ_COLLSTS_W 1, seq0,
    by unfold msgReady collRuns; decide +kernel⟩

theorem witness_CollectiveOps_5 : ∃ (s : State) (p : Nat), collRuns s p 5 ∧ msgReady s p :=
  ⟨progWorld (5 + 15 * 2 ^ 8) [fromPeer true 0 [1, 2, 3, 4]] fun w => w.setX seq0 15 77, seq0,
    by unfold msgReady collRuns; decide +kernel⟩

theorem witness_CollectiveOps_6 : ∃ (s : State) (p : Nat), collRuns s p 6 ∧ s.work.mirrorOwed p = false ∧ (∀ q ∈ bcastTo s p, SMap.at 0 (s.work.coll p).held q + (bcastTo s p).count q ≤ 2) :=
  ⟨progWorld (6 + 1 * 2 ^ 16) [] fun w => w.modColl seq0 fun c => { c with held := SMap.put 0 c.held (2 + 3 * 2 ^ 12 + 2 ^ 16) 1 }, seq0,
    by unfold collRuns; decide +kernel⟩

theorem witness_CollectiveOps_7 : ∃ (s : State) (p : Nat), collRuns s p 7 :=
  ⟨progWorld (7 + 15 * 2 ^ 16) [] id, seq0,
    by unfold collRuns; decide +kernel⟩

theorem witness_CollectiveOps_8 : ∃ (s : State) (p : Nat), collRuns s p 8 ∧ opFlag (opOf s p) = false ∧ (s.work.coll p).unaccepted = 0 :=
  ⟨progWorld 8 [] id, seq0,
    by unfold collRuns; decide +kernel⟩

theorem witness_CollectiveOps_9 : ∃ (s : State) (p : Nat), collRuns s p 9 :=
  ⟨progWorld (9 + 2 ^ 15) [] id, seq0,
    by unfold collRuns; decide +kernel⟩

/-- Memory of a COLL_RUN: one ARRIVE at 4 KiB, peers at 8 KiB, data at 12 KiB. -/
def collRunning : State :=
  seqWorld .running fun w => withArgs seq0 [0x1000, 0, 1 + 9 * 2 ^ 16, 0x2000, 0, 0x3000, 0] (((w.wrLE 0x1000 4 1).wrLE 0x2000 4 (2 ^ 31)).wrLE 0x303C 4 77)

theorem witness_CollectivePrograms_1 : ∃ (s : State) (q : Issue), s.legal q collRunSpec ∧ s.connected ∧ 1 ≤ collCount s q.page ∧ collCount s q.page ≤ 256 ∧ collRange s q.page (s.arg64 q.page 0) (4 * collCount s q.page) ∧ collRange s q.page (s.arg64 q.page 3) 64 ∧ collRange s q.page (s.arg64 q.page 5) 64 ∧ (∀ x ∈ collRaw s q.page, bits x 30 18 = 0) ∧ ((collPeers s q.page).any fun l => (collOps s q.page).all (opOk l (collCount s q.page))) = true ∧ (s.work.coll q.page).buf = [] :=
  ⟨collRunning, byPf seq0,
    by unfold collRange; decide +kernel⟩

theorem witness_CollectivePrograms_2 : ∃ (s : State) (p : Nat), (s.work.coll p).prog.isSome = true ∧ opCode (opOf s p) = 10 ∧ (s.work.ctx (progOf s p).ctx).state = .running ∧ (progOf s p).steps < 65536 ∧ (s.work.page p).outst.isSome = true ∧ (progOf s p).data + 64 ≤ t1Size ∧ noMirror s :=
  ⟨progWorld 10 [] fun w => outstanding seq0 0x3C none (w.setX seq0 15 77), seq0,
    by unfold noMirror; decide +kernel⟩

theorem witness_CollectivePrograms_3 : ∃ (s : State) (p : Nat) (m : CollMsg), s.dev.saves = [] ∧ typeOf p = 4 ∧ s.hasCtx p ∧ m.tag = 0 ∧ m.part = (s.work.ctx (s.pageCtx p)).part ∧ m.inst = s.work.get p R.SEQ_COLLINST_INST ∧ m.group = s.work.get p R.SEQ_COLLSTS_GROUP ∧ (s.work.coll p).prog.isSome = true :=
  ⟨progWorld 10 [] id, seq0, fromPeer true 0 [],
    by unfold State.hasCtx; decide +kernel⟩

theorem witness_CollectivePrograms_4 : ∃ (s : State) (p : Nat) (m : CollMsg), s.dev.saves = [] ∧ typeOf p = 4 ∧ s.hasCtx p ∧ m.tag = 2 :=
  ⟨progWorld 10 [] fun w => w.modColl seq0 fun c => { c with held := SMap.put 0 c.held (2 + 3 * 2 ^ 12 + 2 ^ 16) 2 }, seq0, fromPeer false 2 [],
    by unfold State.hasCtx; decide +kernel⟩

theorem witness_CollectivePrograms_5 : ∃ (s : State) (p : Nat) (inst : Nat), s.dev.saves = [] ∧ typeOf p = 4 ∧ inst = s.work.get p R.SEQ_COLLINST_INST ∧ (s.work.coll p).prog.isSome = true ∧ (s.work.page p).outst.isSome = true :=
  ⟨progWorld 10 [] (outstanding seq0 0x3C none), seq0, 0,
    by decide +kernel⟩

theorem witness_CollectivePrograms_6 : ∃ (s : State) (p : Nat), (s.work.coll p).prog.isSome = true ∧ ((progOf s p).waitFrom.any fun t0 => decide (t0 + 1000 * s.work.get p R.SEQ_COLLTMO_TIMEOUT ≤ s.now.toNat)) = true ∧ (s.work.ctx (progOf s p).ctx).state = .running ∧ (s.work.page p).outst.isSome = true :=
  ⟨atTime 5000 (progWorld 10 [] fun w => (outstanding seq0 0x3C none (w.modProg seq0 fun g => { g with waitFrom := some 1000 })).set seq0 R.SEQ_COLLTMO_TIMEOUT 4), seq0,
    by decide +kernel⟩

/-! ### Witnesses 11 -/

theorem witness_StepCommits_1 : ∃ (s : State) (q : Issue), s.legal q stepCommitSpec ∧ s.work.commitBusy (s.pageCtx q.page) = false ∧ s.work.pfDue (s.pageCtx q.page) 255 = none :=
  ⟨seqWorld .running (withArgs seq0 [0x1000, 0, 0x2000, 0]), byPf seq0,
    by decide +kernel⟩

theorem witness_StepCommits_2 : ∃ (s : State) (q : Issue), s.legal q stepCommitSpec ∧ s.work.commitBusy (s.pageCtx q.page) = true :=
  ⟨seqWorld .running fun w => withArgs seq0 [0x1000, 0, 0x2000, 0] (outstanding (seqPage 0 1) 0x3F none (owned (seqPage 0 1) 1 .running (w.modCtx 1 fun x => { x with seqs := 3 }))), byPf seq0,
    by decide +kernel⟩

/-- Context 1's commit waits; request 5, of its formed batch at 4 KiB, has an entry with OK. -/
def committing (sent : Bool) (batch : Nat) (f : Work → Work) : State :=
  atTime 900 (seqWorld .running fun w => f ((outstanding seq0 0x3E none ((((w.wrLE 0x1000 4 1).wrLE 0x1010 4 5).wrLE 0x101C 4 128).modReq 5 fun r => { r with state := 3, ctx := 1, prompt := 9, clen := 20 })).d fun d => { d with ctxs := SMap.mod {} d.ctxs 1 fun x => { x with commit := some { page := seq0, batch := batch, outBase := 0x2000, recordsSent := sent, stamp := none } }, serve := { d.serve with batches := SMap.put {} d.serve.batches 1 { formed := true, base := batch, ents := [(5, 0, 0)] } } }))

theorem witness_StepCommits_3 : ∃ (s : State) (c : Nat), (s.work.ctx c).state = .running ∧ openCommit s c ∧ (commitOf s c).recordsSent = false ∧ s.work.mirrors c = true ∧ s.work.waitOther c = 0 ∧ s.work.commitEnts c (commitOf s c) = [] :=
  ⟨committing false 0 fun w => w.set (rqtPage 0) (R.RQT_MIRTGT_MEN.i 0) 1, 1,
    by unfold openCommit; decide +kernel⟩

theorem witness_StepCommits_4 : ∃ (s : State) (c : Nat), mayStamp s c ∧ s.work.commitBound c (commitOf s c) = false ∧ s.work.commitPoison c (commitOf s c) = false ∧ ((∀ e ∈ s.work.commitEnts c (commitOf s c), (s.work.tab e.rq).reg = true → (s.work.tab e.rq).gen ≠ 2 ^ 32 - 1)) :=
  ⟨committing true 0x1000 id, 1,
    by unfold mayStamp openCommit; decide +kernel⟩

theorem witness_StepCommits_5 : ∃ (s : State) (c : Nat), mayStamp s c ∧ s.work.commitBound c (commitOf s c) = true ∧ (s.work.page (commitOf s c).page).outst.isSome = true :=
  ⟨committing true 0x40000000 id, 1,
    by unfold mayStamp openCommit; decide +kernel⟩

theorem witness_AbandonsAndFaults_1 : ∃ (s : State) (q : Issue), s.legal q stepAbandonSpec ∧ s.connected ∧ s.work.commitBusy (s.pageCtx q.page) = false ∧ s.work.anchorOf (s.pageCtx q.page) = none ∧ (commitOf s (s.pageCtx q.page)).stamp = none :=
  ⟨seqWorld .running id, byPf seq0,
    by decide +kernel⟩

theorem witness_AbandonsAndFaults_2 : ∃ (s : State) (c : Nat) (code : Nat), (s.work.ctx c).state ≠ .none ∧ (s.work.ctx c).state ≠ .ending ∧ code < 256 :=
  ⟨seqWorld .running id, 1, 0xC2,
    by decide +kernel⟩

theorem witness_AbandonsAndFaults_3 : ∃ (s : State) (c : Nat), c < 256 ∧ (s.work.ctx c).state = .ending ∧ SMap.at none s.dev.serve.publish c = none ∧ s.work.winsClosing c = false ∧ (s.work.ctx c).fault.isSome = true ∧ (s.work.ctx c).endPage = 0 :=
  ⟨seqWorld .running fun w => w.modCtx 1 fun x => { x with state := .ending, fault := some (0xC1, 4, 0, 0, 0, 77) }, 1,
    by decide +kernel⟩

theorem witness_DieAndPackageFaults_1 : ∃ (s : State) (d : Nat), dieWorks s d :=
  ⟨world id, 15,
    by unfold dieWorks; decide +kernel⟩

theorem witness_DieAndPackageFaults_2 : ∃ (s : State) (d : Nat), dieWorks s d :=
  ⟨world id, 0,
    by unfold dieWorks; decide +kernel⟩

theorem witness_DieAndPackageFaults_3 : ∃ (s : State) (d : Nat), dieWorks s d :=
  ⟨world id, 15,
    by unfold dieWorks; decide +kernel⟩

theorem witness_DieAndPackageFaults_4 : ∃ (s : State) (d : Nat) (temp : Nat), dieWorks s d ∧ s.work.rtmOn d = false ∧ toSigned 12 temp ≥ 440 :=
  ⟨world id, 7, 440,
    by unfold dieWorks; decide +kernel⟩

/-- Die 3 is fenced; its cell group 48 belongs to partition 63. -/
def fencedDie : State :=
  world fun w => w.d fun d =>
    { d with
      pages := (diePages 3).map fun p => (p, { state := .fenced })
      bnd := { d.bnd with owner := [(kCG * 4096 + 48, 64)], spareDue := [3] }, flt := { d.flt with fencedDies := SMap.put false [] 3 true } }

theorem fencedDie_noneEnding (c : Nat) : (fencedDie.work.ctx c).state ≠ .ending := by
  have e : fencedDie.dev.ctxs = [] := by decide +kernel
  show (SMap.at {} fencedDie.dev.ctxs c).state ≠ .ending
  rw [e]
  exact (by decide : CtxState.none ≠ CtxState.ending)

theorem at_const (v : Page) (l : List Nat) (r : SMap Page) (p : Nat) (h : p ∈ l) : SMap.at {} (l.map (fun p => (p, v)) ++ r) p = v := by
  induction l with
  | nil => cases h
  | cons a l ih =>
    simp only [List.map_cons, List.cons_append, SMap.at]
    split
    · rfl
    · rename_i ha
      exact ih ((List.mem_cons.1 h).resolve_left fun e => ha e)

theorem fencedDie_page (p : Nat) (h : typeOf p ≠ 0) (h3 : p / 2048 = 3) (hi : p % 2048 < 0x255) : (fencedDie.work.page p).state = .fenced := by
  have hp : p ∈ diePages 3 := by
    refine List.mem_filter.2 ⟨List.mem_map.2 ⟨p % 2048, List.mem_range.2 hi, ?_⟩, by simpa using h⟩
    show 3 * 2048 + p % 2048 = p
    omega
  have e : fencedDie.dev.pages = (diePages 3).map (fun p => (p, { state := .fenced })) ++ [] := by decide +kernel
  show (SMap.at {} fencedDie.dev.pages p).state = .fenced
  rw [e, at_const _ _ _ p hp]

theorem fencedDie_res : ∀ e ∈ dieRes 3, ∀ i ∈ e.2, (∀ p ∈ resPages e.1 i, (fencedDie.work.page p).state = .fenced) ∧ ∀ p, fencedDie.work.owner e.1 i = some p → p < 64 := by
  have h : ∀ e ∈ dieRes 3, ∀ i ∈ e.2, (∀ p ∈ resPages e.1 i, typeOf p ≠ 0 ∧ p / 2048 = 3 ∧ p % 2048 < 0x255) ∧
      (fencedDie.work.owner e.1 i).all (fun p => decide (p < 64)) = true := by decide +kernel
  intro e he i hi
  refine ⟨fun p hp => let q := (h e he i hi).1 p hp; fencedDie_page p q.1 q.2.1 q.2.2, fun p hp => ?_⟩
  have := (h e he i hi).2
  rw [hp] at this
  simpa using this

theorem witness_DieAndPackageFaults_5 : ∃ (s : State) (d : Nat), d < 16 ∧ s.dev.bnd.spareDue.head? = some d ∧ s.work.fenced d = true ∧ (∀ c, (s.work.ctx c).state ≠ .ending) ∧ (∀ e ∈ dieRes d, ∀ i ∈ e.2, (∀ p ∈ resPages e.1 i, (s.work.page p).state = .fenced) ∧ ∀ p ∈ s.work.owner e.1 i, p < 64) :=
  ⟨fencedDie, 3,
    by decide +kernel,
    by decide +kernel,
    by decide +kernel,
    fencedDie_noneEnding,
    fencedDie_res⟩

theorem witness_DieAndPackageFaults_6 : ∃ (s : State), s.work.fatal = false :=
  ⟨world id,
    by decide +kernel⟩

theorem witness_DieAndPackageFaults_7 : ∃ (s : State) (rail : Nat), 16 ≤ rail ∧ rail < 28 ∧ s.work.ready = true ∧ s.work.fatal = false :=
  ⟨world id, 27,
    by decide +kernel⟩

theorem witness_DieAndPackageFaults_8 : ∃ (s : State) (q : Issue), s.legal q rqtAdoptSpec ∧ s.connected ∧ s.work.role (s.arg q.page 0) ≠ 2 ∧ bit (s.arg q.page 1) 8 = false ∧ s.work.heldReqs (s.arg q.page 0) = [adopted s q] ∧ adoptReady s q :=
  ⟨world fun w => withArgs (rqtPage 0) [0, 2] (inState (rqtPage 0) .idle ((header 0x20000 (region0 [] (w.modReq 9 fun _ => { held := true, part := 0 }))).wrLE (9 * 2048) 4 3 |>.wrLE (9 * 2048 + 4) 4 20 |>.wrLE (9 * 2048 + 16) 8 0x20000)), byPf (rqtPage 0),
    by unfold adoptReady apart; decide +kernel⟩

theorem witness_Snapshots_1 : ∃ (s : State) (v : Word), s.reaches .pf (snpPage 16) ∧ bit v.toNat 0 = true ∧ bit v.toNat 1 = false ∧ s.work.get (snpPage 16) R.SNP_STS_FROZEN = 0 :=
  ⟨atTime 99 (world (inState (snpPage 16) .idle)), 1#32,
    by decide +kernel⟩

theorem witness_Snapshots_2 : ∃ (s : State), s.work.get (snpPage 16) R.SNP_CTL_TIMEEN = 1 ∧ s.work.get64 (snpPage 16) R.SNP_MATCH_LO_MATCH_LO ≤ s.now.toNat ∧ s.work.get (snpPage 16) R.SNP_STS_FROZEN = 0 :=
  ⟨atTime 99 (world fun w => (inState (snpPage 16) .idle w).set (snpPage 16) R.SNP_CTL_TIMEEN 1 |>.set64 (snpPage 16) R.SNP_MATCH_LO_MATCH_LO 99),
    by decide +kernel⟩

theorem witness_Snapshots_3 : ∃ (s : State), s.work.get (snpPage 16) R.SNP_CTL_PINEN = 1 ∧ s.work.get (snpPage 16) R.SNP_STS_FROZEN = 0 :=
  ⟨atTime 99 (world fun w => (inState (snpPage 16) .idle w).set (snpPage 16) R.SNP_CTL_PINEN 1),
    by decide +kernel⟩

theorem witness_Snapshots_4 : ∃ (s : State), s.work.get (snpPage 16) R.SNP_CTL_PINEN = 1 ∧ s.work.get (snpPage 16) R.SNP_STS_FROZEN = 1 :=
  ⟨atTime 99 (world fun w => (inState (snpPage 16) .idle w).set (snpPage 16) R.SNP_CTL_PINEN 1 |>.set (snpPage 16) R.SNP_STS_FROZEN 1),
    by decide +kernel⟩

theorem witness_Snapshots_5 : ∃ (s : State) (v : Word), s.reaches .pf (snpPage 16) ∧ bit v.toNat 0 = false ∧ bit v.toNat 1 = true ∧ s.work.dumping = false :=
  ⟨atTime 99 (world fun w => (inState (snpPage 16) .idle w).set (snpPage 16) R.SNP_STS_FROZEN 1), 2#32,
    by decide +kernel⟩

theorem witness_Snapshots_7 : ∃ (s : State) (q : Issue), s.legal q snpDumpSpec ∧ s.connected ∧ s.work.get (snpPage 16) R.SNP_STS_FROZEN = 1 ∧ s.arg64 q.page 0 % 4096 = 0 ∧ s.work.t1Populated (s.arg64 q.page 0) dumpBytes = true ∧ s.work.boundArea (s.arg64 q.page 0) dumpBytes = false ∧ (s.work.request 8 0 (q.page + 1)).1 = true :=
  ⟨world fun w => withArgs (snpPage 16) [0x1000, 0] ((inState (snpPage 16) .idle (List.range 5 |>.foldl (fun w i => w.set (hbcPage 0 i) R.MEM_STS_INSET 1) w)).set (snpPage 16) R.SNP_STS_FROZEN 1), byPf (snpPage 16),
    by decide +kernel⟩

theorem witness_RegisterAccesses_1 : ∃ (s : State) (by_ : Caller) (p : Nat) (n : Nat), plainWord p n ∧ s.reaches by_ p ∧ quietPage s p = true :=
  ⟨world (inState (rtmPage 3) .idle), .pf, rtmPage 3, 0x54,
    by unfold plainWord; decide +kernel⟩

theorem witness_RegisterAccesses_2 : ∃ (s : State) (by_ : Caller) (p : Nat) (n : Nat), plainWord p n ∧ s.reaches by_ p ∧ quietPage s p = false ∧ (wordSpec p n).flds.any (fun f => f.acc == .rwq) = true :=
  ⟨world (inState (skpPage 3 31) .running), .kmc, skpPage 3 31, 0x51,
    by unfold plainWord; decide +kernel⟩

theorem witness_RegisterAccesses_3 : ∃ (s : State) (by_ : Caller) (p : Nat) (k : Nat), k < 12 ∧ s.reaches by_ p ∧ (s.work.page p).args.length = 12 :=
  ⟨world (inState seq0 .running), .pf, seq0, 11,
    by decide +kernel⟩

theorem witness_RegisterAccesses_4 : ∃ (p : Nat) (v : Word), typeOf p = 2 ∧ dieOf p < 20 ∧ v.toNat % 256 = 0x30 :=
  ⟨mcPage 0 0, 0x30#32,
    by decide +kernel⟩

theorem witness_RegisterAccesses_6 : ∃ (s : State) (p : Nat) (n : Nat), typeOf p ≠ 0 ∧ s.work.dieOn (dieOf p) = true ∧ n < 1024 ∧ latchLow p (4 * n) = false ∧ ((1 ≤ n → latchLow p (4 * n - 4) = false)) :=
  ⟨world (inState (skpPage 3 31) .running), skpPage 3 31, 8,
    by decide +kernel⟩

theorem witness_RegisterAccesses_8 : ∃ (s : State) (by_ : Caller) (p : Nat) (n : Nat), typeOf p ≠ 0 ∧ s.work.readable_ by_ p n = true ∧ s.work.dieOn (dieOf p) = true ∧ n < 1023 ∧ latchLow p (4 * n) = true ∧ latchLow p (4 * n + 4) = false :=
  ⟨world (inState seq0 .running), .pf, seq0, 0x104,
    by decide +kernel⟩

theorem witness_RegisterAccesses_9 : ∃ (s : State) (vf : Nat) (off : Nat), s.work.reach (.vf vf) (off / 4096) = .denied :=
  ⟨world id, 64, 4096 * 3,
    by decide +kernel⟩

/-- The link is up, of an endpoint that PERST# no longer holds. -/
def linkedUp (f : Work → Work) : State := atTime 5000 (world fun w => f (w.host fun h => { h with link := true, perst := false, perstAt := 5000 }))

theorem witness_Endpoint_1 : ∃ (s : State), endpointUp s ∧ s.work.ready = false :=
  ⟨linkedUp fun w => w.set pciPage R.PCI_STS_READY 0,
    by unfold endpointUp; decide +kernel⟩

theorem witness_Endpoint_2 : ∃ (s : State) (v : Word), endpointUp s ∧ s.work.ready = true ∧ v.toNat ≤ 64 :=
  ⟨linkedUp id, 64#32,
    by unfold endpointUp; decide +kernel⟩

theorem witness_Endpoint_3 : ∃ (s : State), endpointUp s ∧ s.work.ready = true :=
  ⟨linkedUp fun w => w.set pciPage R.PCI_NUMVF_NUMVF 64,
    by unfold endpointUp; decide +kernel⟩

theorem witness_Endpoint_4 : ∃ (s : State) (a : Nat) (data : List Byte), s.work.linked = true ∧ s.work.ready = true ∧ s.work.fatal = false ∧ s.work.t1Populated a data.length = true ∧ s.work.zeroingIn a data.length = false ∧ s.work.poisoned a data.length = false :=
  ⟨linkedUp fun w => (hasT1 0 w).wrLE 0x1000 4 77, 0x1000, [0, 0, 0, 0],
    by decide +kernel⟩

theorem witness_Endpoint_5 : ∃ (s : State) (a : Nat) (data : List Byte), s.work.linked = true ∧ s.work.ready = true ∧ s.work.fatal = false ∧ s.work.t1Populated a data.length = true ∧ s.work.zeroingIn a data.length = false :=
  ⟨linkedUp (hasT1 0), 2 ^ 30 - 4, [1, 2, 3, 4],
    by decide +kernel⟩

theorem witness_Endpoint_6 : ∃ (s : State), s.dev.host.perst = false ∧ bit (s.work.get (pwrPage 16) R.PWR_DOMAINS_DON) 26 = true :=
  ⟨world fun w => w.host fun h => { h with perst := false },
    by decide +kernel⟩

theorem witness_Endpoint_7 : ∃ (s : State), s.dev.host.link = true ∧ s.work.ready = true ∧ s.dev.tiers.reads = [] :=
  ⟨linkedUp id,
    by decide +kernel⟩

theorem witness_Endpoint_8 : ∃ (s : State), s.dev.tiers.reads = [] :=
  ⟨linkedUp fun w => link 2 2 8 w,
    by decide +kernel⟩

theorem witness_Endpoint_9 : ∃ (s : State), s.dev.tiers.reads = [] :=
  ⟨linkedUp fun w => w.set pciPage R.PCI_NUMVF_NUMVF 64,
    by decide +kernel⟩

theorem witness_Endpoint_10 : ∃ (s : State), s.dev.host.perst = true :=
  ⟨world fun w => w.host fun h => { h with perst := true },
    by decide +kernel⟩

theorem witness_Endpoint_11 : ∃ (s : State), s.work.ready = true ∧ SMap.wf {} s.dev.ctxs = true :=
  ⟨seqWorld .running fun w => hostWin 0 (w.spw fun x => { x with running := true }),
    by decide +kernel⟩

/-- The boot ROM runs. -/
def booting (f : NonVolatile → NonVolatile) : State :=
  let s := State.reset.run fun w => w.pwr fun q => { q with porst := false, startup := 1 }
  { s with nv := f s.nv }

theorem witness_ManagementCores_1 : ∃ (s : State) (numA : Nat), romRuns s ∧ s.nv.staged = 0 ∧ s.nv.prefB = false ∧ s.nv.fused ≤ numA % 2 ^ 16 :=
  ⟨booting fun n => { n with fused := 5 }, 5,
    by unfold romRuns; decide +kernel⟩

theorem witness_ManagementCores_2 : ∃ (s : State), romRuns s :=
  ⟨booting fun n => { n with fused := 5 },
    by unfold romRuns; decide +kernel⟩

/-- The acting core is booted from slot A and asked to stage an image of 1 KiB at 4 KiB. -/
def stagingState : State :=
  world fun w => withArgs (kmcPage false) [0x1000, 0, 1] ((((inState (kmcPage false) .idle (List.range 5 |>.foldl (fun w i => w.set (hbcPage 0 i) R.MEM_STS_INSET 1) w)).set (kmcPage false) R.KMC_STS_ACTING 1).set (kmcPage false) R.KMC_STS_BOOT 1).wrLE 0x1000 4 77)

theorem witness_ManagementCores_3 : ∃ (s : State) (q : Issue), s.legal q kmcStageSpec ∧ s.connected ∧ s.work.get q.page R.KMC_STS_ACTING = 1 ∧ s.work.get q.page R.KMC_STS_BOOT = 1 ∧ 1 ≤ s.arg q.page 2 ∧ s.arg q.page 2 ≤ 32768 ∧ s.work.t1Populated (s.arg64 q.page 0) (s.arg q.page 2 * 1024) = true ∧ s.work.boundArea (s.arg64 q.page 0) (s.arg q.page 2 * 1024) = false ∧ s.work.poisoned (s.arg64 q.page 0) (s.arg q.page 2 * 1024) = false ∧ (s.work.request 9 0 (q.page + 1)).1 = true :=
  ⟨stagingState, byPf (kmcPage false),
    by decide +kernel⟩

theorem witness_ManagementCores_4 : ∃ (s : State) (num : Nat), bit s.dev.pwr.startup 2 = true ∧ (s.work.request 9 0 0).1 = true ∧ s.nv.fused ≤ num % 2 ^ 16 ∧ s.work.get (kmcPage false) R.KMC_STS_SLOT = 0 :=
  ⟨world fun w => (w.pwr fun q => { q with startup := 5 }).set (kmcPage false) R.KMC_STS_BOOT 1, 65535,
    by decide +kernel⟩

theorem witness_ManagementCores_5 : ∃ (s : State), s.work.live (kmcPage true) = true ∧ s.work.get (kmcPage true) R.KMC_STS_BOOT = 1 ∧ s.work.get (kmcPage true) R.KMC_STS_ACTING = 0 ∧ (s.work.page (kmcPage false)).outst.isSome = true :=
  ⟨world fun w => outstanding (kmcPage false) 0x10 none (((inState (kmcPage true) .idle (inState (kmcPage false) .idle w)).set (kmcPage true) R.KMC_STS_BOOT 1).set (kmcPage false) R.KMC_STS_ACTING 1),
    by decide +kernel⟩

theorem witness_Sideband_1 : ∃ (s : State), s.dev.pwr.porst = false :=
  ⟨world id,
    by decide +kernel⟩

theorem witness_Sideband_2 : ∃ (s : State), s.work.get (kmcPage false) R.KMC_STS_BOOT = 1 :=
  ⟨world fun w => (w.set (kmcPage false) R.KMC_STS_BOOT 1).host fun h => { h with sensors := [(3, 77)] },
    by decide +kernel⟩

theorem witness_Sideband_3 : ∃ (s : State), s.work.get (kmcPage false) R.KMC_STS_BOOT = 1 :=
  ⟨world fun w => ((w.set (kmcPage false) R.KMC_STS_BOOT 1).set (rtmPage 3) R.RTM_TEMP_TEMP 400).set (pwrPage 16) R.PWR_PKG_PKGW 8191,
    by decide +kernel⟩

theorem witness_Sideband_4 : ∃ (s : State) (h : Nat) (d : Nat), h < 4 ∧ s.work.domainOn (16 + h) = true ∧ avsReads h d = true ∧ s.work.domainOn d = true :=
  ⟨world id, 3, 15,
    by decide +kernel⟩

theorem witness_Sideband_5 : ∃ (s : State) (d : Nat), d < 16 ∧ s.work.dieOn d = true :=
  ⟨world id, 15,
    by decide +kernel⟩

theorem witness_Resets_2 : ∃ (s : State), s.dev.pwr.porst = true :=
  ⟨State.reset,
    by decide +kernel⟩

theorem witness_Resets_3 : ∃ (s : State), s.dev.pwr.porst = false :=
  ⟨world fun w => (w.set (pwrPage 16) R.PWR_CTL_KEEPT2 1).wrLE t2Base 4 7,
    by decide +kernel⟩

theorem witness_Resets_4 : ∃ (s : State), s.dev.pwr.wrst = true :=
  ⟨world fun w => w.pwr fun q => { q with wrst := true },
    by decide +kernel⟩

theorem witness_StartUp_1 : ∃ (s : State) (d : Nat), d < 16 ∧ SMap.at 0 s.dev.pwr.bringUp d = 1 :=
  ⟨world fun w => w.pwr fun q => { q with bringUp := [(15, 1)] }, 15,
    by decide +kernel⟩

theorem witness_StartUp_2 : ∃ (s : State) (d : Nat), d < 16 ∧ SMap.at 0 s.dev.pwr.bringUp d = 1 ∧ s.work.fenced d = false :=
  ⟨world fun w => w.pwr fun q => { q with bringUp := [(15, 1)] }, 15,
    by decide +kernel⟩

theorem witness_StartUp_3 : ∃ (s : State), bit s.dev.pwr.startup 2 = true ∧ bit s.dev.pwr.startup 8 = false ∧ s.work.get (kmcPage false) R.KMC_STS_BOOT = 1 :=
  ⟨world fun w => (w.pwr fun q => { q with startup := 5 }).set (kmcPage false) R.KMC_STS_BOOT 1,
    by decide +kernel⟩

theorem witness_StartUp_4 : ∃ (s : State) (n : Nat), n < 20 ∧ bit s.dev.pwr.startup 2 = true ∧ bit s.dev.pwr.startup 8 = false ∧ s.work.get (kmcPage false) R.KMC_STS_BOOT = 1 :=
  ⟨world fun w => (w.pwr fun q => { q with startup := 5 }).set (kmcPage false) R.KMC_STS_BOOT 1, 19,
    by decide +kernel⟩

theorem witness_StartUp_5 : ∃ (s : State), bit s.dev.pwr.startup 8 = true ∧ bit s.dev.pwr.startup 11 = false :=
  ⟨world fun w => w.pwr fun q => { q with startup := 0x105 },
    by decide +kernel⟩

theorem witness_StartUp_6 : ∃ (s : State), s.work.ready = false ∧ s.work.fatal = false ∧ bit s.dev.pwr.startup 11 = true ∧ s.dev.pwr.bringUp = [] :=
  ⟨world fun w => (w.pwr fun q => { q with startup := 0x905 }).set pciPage R.PCI_STS_READY 0,
    by decide +kernel⟩

theorem witness_PowerCommands_1 : ∃ (s : State) (q : Issue), s.legal q pwrDomainSpec ∧ s.arg q.page 0 < 16 ∧ s.work.dieOn (askedDie s q) = true ∧ s.work.dieAll (askedDie s q) [.off, .idle, .fenced] = true ∧ dieUnbound s (askedDie s q) :=
  ⟨world fun w => withArgs (pwrPage 16) [15] (inState (pwrPage 16) .idle (inState (cellPage 15 255) .fenced (inState (pwrPage 15) .idle w))), byPf (pwrPage 16),
    by unfold dieUnbound; decide +kernel⟩

theorem witness_PowerCommands_2 : ∃ (s : State) (q : Issue), s.legal q pwrDomainSpec ∧ s.arg q.page 0 = askedDie s q + 256 ∧ askedDie s q < 16 ∧ s.work.dieOn (askedDie s q) = false ∧ (s.work.request 7 (askedDie s q) (q.page + 1)).1 = true :=
  ⟨world fun w => withArgs (pwrPage 16) [256] ((inState (pwrPage 16) .idle w).set (pwrPage 16) R.PWR_DOMAINS_DON 0xFFFFFFE), byPf (pwrPage 16),
    by decide +kernel⟩

theorem witness_PowerCommands_3 : ∃ (s : State) (q : Issue), s.legal q pwrDomainSpec ∧ s.arg q.page 0 < 16 ∧ s.work.dieAll (askedDie s q) [.off, .idle, .fenced] = false :=
  ⟨world fun w => withArgs (pwrPage 16) [2] (inState (cellPage 2 255) .running (inState (pwrPage 16) .idle w)), byPf (pwrPage 16),
    by decide +kernel⟩

/-- Die 15 is fenced; PWR of HD3 is asked to reset it. -/
def resetDie : State :=
  world fun w => withArgs (pwrPage 19) [15] (w.d fun d =>
    { d with
      pages := (diePages 15).map (fun p => (p, { state := .fenced })) ++ [(pwrPage 19, { state := .idle })]
      flt := { d.flt with fencedDies := SMap.put false [] 15 true } })

theorem resetDie_all : resetDie.work.dieAll 15 [.fenced, .idle] = true := by
  have e : ∃ g, resetDie.dev.pages = (diePages 15).map (fun p => (p, { state := .fenced })) ++ [(pwrPage 19, g)] :=
    ⟨{ state := .idle, args := 15#32 :: List.replicate 11 0#32 }, by decide +kernel⟩
  obtain ⟨g, e⟩ := e
  refine List.all_eq_true.2 fun p hp => ?_
  show List.contains _ (SMap.at {} resetDie.dev.pages p).state = true
  rw [e, at_const _ _ _ p hp]
  rfl

theorem witness_PowerCommands_4 : ∃ (s : State) (q : Issue), s.legal q pwrDieresetSpec ∧ askedDie s q / 4 = dieOf q.page - 16 ∧ s.work.dieAll (askedDie s q) [.fenced, .idle] = true ∧ (s.work.request 7 (askedDie s q) (q.page + 1)).1 = true :=
  ⟨resetDie, byPf (pwrPage 19),
    by decide +kernel,
    by decide +kernel,
    by rw [show askedDie resetDie (byPf (pwrPage 19)) = 15 from by decide +kernel]; exact resetDie_all,
    by decide +kernel⟩

/-- The package draws 6 kW; die 9 asks for the most. -/
def overLimit (f : Work → Work) : State :=
  world fun w => f (((inState (pwrPage 16) .idle w).set (pwrPage 9) R.PWR_STS_VREQ 900).set (pwrPage 9) R.PWR_VSET_VSET 900 |>.pwr fun q => { q with power := [(3, 6000000000)], capReq := [(9, 900)] })

theorem witness_PowerCommands_5 : ∃ (s : State), s.work.live (pwrPage 16) = true ∧ (s.work.page (pwrPage 16)).state ≠ .off :=
  ⟨overLimit id,
    by decide +kernel⟩

theorem witness_PowerCommands_6 : ∃ (s : State) (d : Nat) (mv : Nat), d < 16 ∧ s.work.dieOn d = true ∧ mv ≤ s.work.get (pwrPage d) R.PWR_STS_VREQ ∧ s.work.settledMv d < mv :=
  ⟨world fun w => (w.set (pwrPage 9) R.PWR_STS_VREQ 900), 9, 900,
    by decide +kernel⟩

theorem witness_Pins_1 : ∃ (s : State) (by_ : Caller) (g : Nat), g < 8 ∧ s.reaches by_ (pwrPage 16) :=
  ⟨world (inState (pwrPage 16) .idle), .pf, 7,
    by decide +kernel⟩

theorem witness_Pins_2 : ∃ (s : State) (pin : Nat) (held : Nat), pin < 5 ∧ (filterNs (s.work.get (pwrPage 16) (R.PWR_IOCFG_FILT.i pin))).2 ≤ held :=
  ⟨world id, 4, 40,
    by decide +kernel⟩

theorem witness_Pins_3 : ∃ (s : State) (pin : Nat) (held : Nat), held < (filterNs (s.work.get (pwrPage 16) (R.PWR_IOCFG_FILT.i pin))).1 :=
  ⟨world id, 4, 19,
    by decide +kernel⟩

theorem witness_CommonCommandCodes_1 : ∃ (s : State) (q : Issue), s.reaches q.caller q.page ∧ typeOf q.page ∈ allTypes ∧ q.hi = 0 ∧ s.work.mayIssue q.caller q.page = true ∧ (s.work.page q.page).state ≠ .off ∧ s.work.kmcGone q.page = false ∧ (s.work.page q.page).outst = none :=
  ⟨world (inState (skpPage 3 31) .fenced), byPf (skpPage 3 31),
    by decide +kernel⟩

theorem witness_CommonCommandCodes_2 : ∃ (s : State) (q : Issue), s.reaches q.caller q.page ∧ typeOf q.page ∈ allTypes ∧ q.hi = 0 ∧ s.arg q.page 0 < 256 ∧ s.work.mayIssue q.caller q.page = true ∧ s.work.kmcGone q.page = false ∧ (s.work.page q.page).outst = none :=
  ⟨world fun w => withArgs seq0 [255] ((inState seq0 .bound w).count seq0 7 3), byPf seq0,
    by decide +kernel⟩

theorem witness_CommonCommandCodes_3 : ∃ (s : State) (by_ : Caller) (p : Nat) (v : Word), s.reaches by_ p ∧ 0xF2 ≤ v.toNat % 256 ∧ (s.work.page p).outst = none :=
  ⟨world (inState seq0 .running), .pf, seq0, 0xFF#32,
    by decide +kernel⟩

theorem witness_TestPort_4 : ∃ (s : State), s.dev.pwr.porst = true :=
  ⟨State.reset,
    by decide +kernel⟩

theorem witness_TestPort_5 : ∃ (s : State), s.dev.pwr.porst = true :=
  ⟨State.reset,
    by decide +kernel⟩

theorem witness_TestPort_6 : ∃ (s : State), s.dev.pwr.porst = true :=
  ⟨State.reset,
    by decide +kernel⟩

theorem witness_TestPort_7 : ∃ (s : State), s.dev.pwr.porst = true :=
  ⟨State.reset,
    by decide +kernel⟩

theorem witness_TestPort_8 : ∃ (s : State), s.dev.pwr.porst = false :=
  ⟨world id,
    by decide +kernel⟩

theorem witness_PowerLimit_1 : ∃ (s : State) (q : Issue), s.legal q pwrSetlimitSpec ∧ 2000 ≤ s.arg q.page 0 ∧ s.arg q.page 0 ≤ 5000 :=
  ⟨world fun w => withArgs (pwrPage 16) [5000] (inState (pwrPage 16) .idle w), byPf (pwrPage 16),
    by decide +kernel⟩

theorem witness_PowerLimit_2 : ∃ (s : State) (q : Issue), s.legal q pwrSetlimitSpec ∧ (s.arg q.page 0 < 2000 ∨ 5000 < s.arg q.page 0) :=
  ⟨world fun w => withArgs (pwrPage 16) [1999] (inState (pwrPage 16) .idle w), byPf (pwrPage 16),
    by decide +kernel⟩

theorem witness_PowerLimit_3 : ∃ (s : State) (q : Issue), s.reaches q.caller q.page ∧ q.page = pwrPage 16 ∧ q.hi = 0 ∧ s.arg q.page 0 < 2 ^ 13 ∧ privileged q.caller = false :=
  ⟨world fun w => withArgs (pwrPage 16) [2000] ((inState (pwrPage 16) .idle w).modPage (pwrPage 16) fun g => { g with owner := ownerWord (some 0) none }), byVf 1 (pwrPage 16),
    by decide +kernel⟩

theorem witness_PowerLimit_4 : ∃ (s : State) (q : Issue), s.legal q pwrSetlimitSpec ∧ 2000 ≤ s.arg q.page 0 ∧ s.arg q.page 0 ≤ 5000 :=
  ⟨overLimit (withArgs (pwrPage 16) [2000]), byPf (pwrPage 16),
    by decide +kernel⟩

theorem witness_PowerLimit_6 : ∃ (s : State), s.dev.pwr.porst = false :=
  ⟨world id,
    by decide +kernel⟩

theorem witness_TierOneInterleave_1 : ∃ (a : Nat), a < t1Size :=
  ⟨t1Size - 1,
    by decide +kernel⟩

theorem witness_TierOneInterleave_2 : ∃ (a : Nat), (a + 512) / (240 * gib) = a / (240 * gib) :=
  ⟨240 * gib - 1025,
    by decide +kernel⟩

theorem witness_TierOneInterleave_3 : ∃ (a : Nat) (b : Nat), stackOf a = stackOf b ∧ stackOffset a = stackOffset b :=
  ⟨513, 513,
    by decide +kernel⟩

theorem witness_TierOneInterleave_4 : ∃ (n : Nat) (o : Nat), n < 20 ∧ o < 48 * gib :=
  ⟨19, 48 * gib - 1,
    by decide +kernel⟩

end Sys2Proof.Tests
end

section
/-!
SUPPORT. The common commands (R38–R40): what a command's work leaves alone, carried over to the frame of its run; what a register access counts on its way
(R12, R14); what CLR_COUNTERS clears and what else it touches.
-/
namespace Sys2Proof.Machine

/-! ### The frame of a command's work -/

/-- `FrameBut` between two stages of one command's work: nothing stored, no context changed but for its events, no page but those of `pages` changed but for
its events and error log, and no register but those of `regs` and of the SNP page of HD0. -/
structure WorkFrame (pages regs : List Nat) (w w' : Work) : Prop where
  mem : w'.mem = w.mem
  wr : w'.wr = w.wr
  page : ∀ p, p ∉ pages → (w'.page p).unsignalled = (w.page p).unsignalled
  reg : ∀ p n, p ∉ regs → p ≠ snpPage 16 → n < 1024 → w'.reg p n = w.reg p n
  ctx : ∀ c, (w'.ctx c).unsignalled = (w.ctx c).unsignalled

theorem WorkFrame.trans {ps rs : List Nat} {a b c : Work} (h : WorkFrame ps rs a b) (k : WorkFrame ps rs b c) : WorkFrame ps rs a c where
  mem := k.mem.trans h.mem
  wr := k.wr.trans h.wr
  page p hp := (k.page p hp).trans (h.page p hp)
  reg p n hp hs hn := (k.reg p n hp hs hn).trans (h.reg p n hp hs hn)
  ctx c := (k.ctx c).trans (h.ctx c)

/-- Events, error logs and triggers lie within every frame. -/
theorem SigOnly.workFrame {w w' : Work} (h : SigOnly w w') (ps rs : List Nat) : WorkFrame ps rs w w' where
  mem := h.mem
  wr := h.wr
  page p _ := h.page p
  reg p n _ hs hn := h.reg p n hs hn
  ctx := h.ctx

/-- A page that the frame names may change. -/
theorem WorkFrame.modPage {ps : List Nat} {p : Nat} (hp : p ∈ ps) (rs : List Nat) (w : Work) (f : Page → Page) : WorkFrame ps rs w (w.modPage p f) where
  mem := rfl
  wr := rfl
  page q hq := by rw [Work.page_modPage_other _ _ (fun e : q = p => hq (e ▸ hp))]
  reg _ _ _ _ _ := rfl
  ctx _ := rfl

/-- A reply stays within a frame that names its page. -/
theorem WorkFrame.reply {ps : List Nat} {c : Call} (hp : c.page ∈ ps) (rs : List Nat) (st : Status) (w : Work) : WorkFrame ps rs w (w.reply c st) :=
  (WorkFrame.modPage hp rs w _).trans ((w.reply_only c st).workFrame ps rs)

/-- The transfers that an access counts on its way lie within every frame. -/
theorem WorkFrame.onLinks (ps rs : List Nat) (w : Work) (l : List (Nat × Nat)) (k : Nat) : WorkFrame ps rs w (w.onLinks (some l) k) := by
  cases l <;> exact ⟨rfl, rfl, fun _ _ => rfl, fun _ _ _ _ _ => rfl, fun _ => rfl⟩

@[simp] theorem State.run_work_page (s : State) (f : Work → Work) (p : Nat) : (s.run f).work.page p = (f s.work).page p := rfl
@[simp] theorem State.run_work_ctr (s : State) (f : Work → Work) (p n : Nat) : (s.run f).work.ctr p n = (f s.work).ctr p n := rfl

/-- A run keeps the frame that its work keeps. -/
theorem State.run_frameBut {s : State} {f : Work → Work} {ps rs : List Nat} (h : WorkFrame ps rs s.work (f s.work)) : FrameBut s (s.run f) ps rs := by
  refine ⟨fun p hp => ?_, h.reg, h.ctx, fun a => ?_, rfl, rfl, rfl⟩
  · have key := h.page p hp
    have state := congrArg Page.state key
    have owner := congrArg Page.owner key
    have bindLock := congrArg Page.bindLock key
    have cmdSts := congrArg Page.cmdSts key
    have outst := congrArg Page.outst key
    have args := congrArg Page.args key
    exact ⟨state, owner, bindLock, cmdSts, outst, args⟩
  · rw [State.run_mem, h.wr]
    rfl

/-! ### Replies of a page with nothing outstanding -/

/-- With nothing outstanding a status that ends the command stands in STATUS and in FINAL. -/
theorem replyWord_of_idle {g : Page} (h : g.outst = none) {st : Status} (ha : st ≠ .accepted) (hp : st ≠ .pending) :
    replyWord g st = BitVec.ofNat 32 (st.code * 257) := by
  unfold replyWord
  rw [h]
  simp only [Option.isSome_none, Bool.false_eq_true, if_false, ha, hp, decide_false, Bool.or_false, Nat.add_zero]
  congr 1
  omega

/-- DONE is not logged: its reply changes CMD_STS alone. -/
theorem Work.reply_done (c : Call) (w : Work) : w.reply c .done = w.modPage c.page fun g => { g with cmdSts := replyWord (w.page c.page) .done } := rfl

/-- The page shows the status of a reply that leaves nothing outstanding. -/
theorem Work.reply_shows {c : Call} {st : Status} {w : Work} (h : (w.page c.page).outst = none) (ha : st ≠ .accepted) (hp : st ≠ .pending) :
    ((w.reply c st).page c.page).cmdSts = BitVec.ofNat 32 (st.code * 257) ∧ ((w.reply c st).page c.page).outst = none :=
  ⟨by rw [Work.reply_cmdSts, replyWord_of_idle h ha hp], by rw [Work.reply_outst, h]⟩

/-- A reply counts nothing, but for what a snapshot triggered by its log entry counts. -/
theorem Work.reply_ctr (c : Call) (st : Status) (w : Work) {p n : Nat} (hp : p ≠ snpPage 16) (hn : n < 8) : (w.reply c st).ctr p n = w.ctr p n :=
  (w.reply_only c st).ctr p n hp hn

/-- A unit whose accesses all found a way does its part and nothing else. -/
theorem Work.asUnit_of_uncut {p : Nat} {f : Work → Work} {w : Work} (h : (f { w with at_ := some p }).cut = false) :
    w.asUnit p f = f { w with at_ := some p } := by
  unfold Work.asUnit Work.ended Work.cutFault
  rw [h]
  rfl

/-! ### Transfers on the way of an access -/

@[simp] theorem Work.onLinks_page (w : Work) (l : List (Nat × Nat)) (k p : Nat) : (w.onLinks (some l) k).page p = w.page p := by
  cases l <;> rfl

@[simp] theorem Work.onLinks_cut (w : Work) (l : List (Nat × Nat)) (k : Nat) : (w.onLinks (some l) k).cut = w.cut := by
  cases l <;> rfl

/-- A link end that the links by the hubs have: a compute die's hub link, or one of the six links of a hub (Table 1.3). -/
def hubLinkEnd (e : Nat × Nat) : Prop := (e.1 < 16 ∧ e.2 = 0) ∨ (16 ≤ e.1 ∧ e.1 < 20 ∧ e.2 < 6)

/-- The far end of a hub's link is again such an end. -/
theorem hubLinkEnd_ddlPeer {e x : Nat × Nat} (he : hubLinkEnd e) (hx : ddlPeer e.1 e.2 = some x) : hubLinkEnd x := by
  unfold hubLinkEnd
  unfold ddlPeer at hx
  obtain ⟨hd, hi⟩ | ⟨hl, hu, hi⟩ := he
  · rw [if_pos hd, if_pos hi] at hx
    cases hx; dsimp only; omega
  · rw [if_neg (by omega)] at hx
    split at hx
    · cases hx; dsimp only; omega
    · split at hx
      · cases hx; dsimp only; omega
      · split at hx
        · cases hx; dsimp only; omega
        · cases hx

/-- The page of such an end is a DDL page. -/
theorem typeOf_ddlPage_of_hubLinkEnd {e : Nat × Nat} (he : hubLinkEnd e) : typeOf (ddlPage e.1 e.2) = 7 := by
  have table : (∀ d < 16, typeOf (ddlPage d 0) = 7) ∧ ∀ d < 20, ∀ i < 6, 16 ≤ d → typeOf (ddlPage d i) = 7 := by decide
  obtain ⟨hd, hi⟩ | ⟨hl, hu, hi⟩ := he
  · rw [hi]; exact table.1 _ hd
  · exact table.2 _ hu _ hi hl

/-- The first of two ways that is whole, where there is one, is one of the two. -/
theorem eq_or_eq_of_firstWay {P Q : Prop} [Decidable P] [Decidable Q] {a b l : List (Nat × Nat)}
    (h : (if P then some a else if Q then some b else none) = some l) : l = a ∨ l = b := by
  split at h
  · cases h; exact Or.inl rfl
  · split at h
    · cases h; exact Or.inr rfl
    · cases h

/-- The ring links of a way are links of hubs. -/
theorem Work.ringWay_hubLinkEnd {w : Work} {q t : Nat} {l : List (Nat × Nat)} (h : w.ringWay q t = some l) : ∀ e ∈ l, hubLinkEnd e := by
  have up : ∀ n, ∀ e ∈ (List.range n).map (fun i => (16 + (q + i) % 4, 4)), hubLinkEnd e := by
    intro n e he
    obtain ⟨i, -, rfl⟩ := List.mem_map.mp he
    right; dsimp only; omega
  have down : ∀ n, ∀ e ∈ (List.range n).map (fun i => (16 + (q + 4 - i) % 4, 5)), hubLinkEnd e := by
    intro n e he
    obtain ⟨i, -, rfl⟩ := List.mem_map.mp he
    right; dsimp only; omega
  unfold Work.ringWay at h
  dsimp only at h
  split at h
  · cases h; simp
  · split at h
    · obtain rfl | rfl := eq_or_eq_of_firstWay h
      · exact up _
      · exact down _
    · obtain rfl | rfl := eq_or_eq_of_firstWay h
      · exact down _
      · exact up _

/-- Every link of a way by the hubs (R12) is such a link. -/
theorem Work.hubWay_hubLinkEnd {w : Work} {a b : Nat} {l : List (Nat × Nat)} (h : w.hubWay a b = some l) : ∀ e ∈ l, hubLinkEnd e := by
  unfold Work.hubWay at h
  split at h
  · cases h; simp
  · obtain ⟨ring, hring, rfl⟩ := Option.map_eq_some_iff.mp h
    intro e he
    obtain (he | he) | he := (List.mem_append.mp he).imp_left List.mem_append.mp
    · split at he
      · cases List.mem_singleton.mp he; left; exact ⟨‹_›, rfl⟩
      · cases he
    · exact Work.ringWay_hubLinkEnd hring e he
    · split at he
      · cases List.mem_singleton.mp he; right; dsimp only; omega
      · cases he

/-- Transfers over the links by the hubs are counted on DDL pages alone, in their first two counters (R14). -/
theorem at_xferCtrs {k p n : Nat} (hn : n < 8) (ht : onTheWay p n = false) :
    ∀ {l : List (Nat × Nat)}, (∀ e ∈ l, hubLinkEnd e) → ∀ m : SMap DWord, SMap.at 0 (xferCtrs l k m) (p * 8 + n) = SMap.at 0 m (p * 8 + n) := by
  have apart : ∀ {e : Nat × Nat} {i : Nat}, hubLinkEnd e → i < 2 → p * 8 + n ≠ ddlPage e.1 e.2 * 8 + i := by
    intro e i he hi hk
    have hp : p = ddlPage e.1 e.2 := by omega
    have small : n < 2 := by omega
    simp [onTheWay, hp, typeOf_ddlPage_of_hubLinkEnd he, small] at ht
  intro l
  induction l with
  | nil => intro _ m; rfl
  | cons e l ih =>
    intro hl m
    obtain ⟨he, hl⟩ := List.forall_mem_cons.mp hl
    have near := SMap.at_mod_other 0 m (· + BitVec.ofNat 64 k) (apart he (i := 0) (by decide))
    rw [xferCtrs, List.foldl_cons, ← xferCtrs, ih hl]
    dsimp only
    split
    · rename_i pd pi hpeer
      have far := apart (hubLinkEnd_ddlPeer he hpeer) (i := 1) (by decide)
      exact (SMap.at_mod_other 0 _ _ far).trans near
    · exact near

/-- An access that takes a way by the hubs counts nowhere else (R14). -/
theorem Work.onLinks_ctr {w : Work} {a b k p n : Nat} {l : List (Nat × Nat)} (h : w.hubWay a b = some l) (hn : n < 8) (ht : onTheWay p n = false) :
    (w.onLinks (some l) k).ctr p n = w.ctr p n := by
  obtain e | e := w.onLinks_cases l k
  · rw [e]
  · rw [e]; exact at_xferCtrs hn ht (Work.hubWay_hubLinkEnd h) _

/-! ### CLR_COUNTERS (R40) -/

/-- Counter n of page p cleared where bit n of a mask says so. -/
def Work.dropCtr (p m : Nat) (w : Work) (n : Nat) : Work := if bit m n then w.d fun d => { d with ctrs := SMap.drop d.ctrs (p * 8 + n) } else w

/-- The counters of a page whose bits are set cleared: the first step of `Work.clearCounters`. -/
def Work.dropCtrs (p m : Nat) (w : Work) : Work := (List.range 8).foldl (Work.dropCtr p m) w

/-- Clearing one counter clears it where its bit is set, and leaves every other one. -/
theorem Work.ctr_dropCtr (p m : Nat) (w : Work) (i n : Nat) : (w.dropCtr p m i).ctr p n = if i = n ∧ bit m n = true then 0 else w.ctr p n := by
  unfold Work.dropCtr
  by_cases hi : i = n
  · subst hi
    cases hb : bit m i
    · simp
    · simp [Work.ctr, SMap.at_drop_same]
  · have other : SMap.at 0 (SMap.drop w.dev.ctrs (p * 8 + i)) (p * 8 + n) = SMap.at 0 w.dev.ctrs (p * 8 + n) :=
      SMap.at_drop_other 0 _ (by omega)
    have kept : ¬(i = n ∧ bit m n = true) := fun h => hi h.1
    rw [if_neg kept]
    split
    · exact other
    · rfl

/-- Clearing counters one after another clears those of the list whose bits are set. -/
theorem Work.ctr_foldl_dropCtr (p m n : Nat) :
    ∀ (l : List Nat) (w : Work), (l.foldl (Work.dropCtr p m) w).ctr p n = if n ∈ l ∧ bit m n = true then 0 else w.ctr p n := by
  intro l
  induction l with
  | nil => intro w; simp
  | cons i l ih =>
    intro w
    rw [List.foldl_cons, ih, Work.ctr_dropCtr]
    by_cases hb : bit m n = true
    · by_cases hi : i = n
      · simp [hi, hb]
      · simp [hi, hb, Ne.symm hi]
    · simp [hb]

/-- Of the eight counters those whose bits are set are cleared. -/
theorem Work.ctr_dropCtrs (p m : Nat) (w : Work) {n : Nat} (hn : n < 8) : (w.dropCtrs p m).ctr p n = if bit m n = true then 0 else w.ctr p n := by
  unfold Work.dropCtrs
  rw [Work.ctr_foldl_dropCtr]
  simp [hn]

/-- From `w` to `w'` a page changes block-specific registers of its own and what a unit keeps for itself, but no counter, no page's common registers, no
context and no byte. -/
structure OwnRegsOnly (p : Nat) (w w' : Work) : Prop where
  mem : w'.mem = w.mem
  wr : w'.wr = w.wr
  cut : w'.cut = w.cut
  ctrs : w'.dev.ctrs = w.dev.ctrs
  pages : w'.dev.pages = w.dev.pages
  ctxs : w'.dev.ctxs = w.dev.ctxs
  reg : ∀ q n, q ≠ p → n < 1024 → w'.reg q n = w.reg q n

theorem OwnRegsOnly.refl (p : Nat) (w : Work) : OwnRegsOnly p w w := ⟨rfl, rfl, rfl, rfl, rfl, rfl, fun _ _ _ _ => rfl⟩

theorem OwnRegsOnly.trans {p : Nat} {a b c : Work} (h : OwnRegsOnly p a b) (k : OwnRegsOnly p b c) : OwnRegsOnly p a c where
  mem := k.mem.trans h.mem
  wr := k.wr.trans h.wr
  cut := k.cut.trans h.cut
  ctrs := k.ctrs.trans h.ctrs
  pages := k.pages.trans h.pages
  ctxs := k.ctxs.trans h.ctxs
  reg q n hq hn := (k.reg q n hq hn).trans (h.reg q n hq hn)

/-- A step that is taken under a condition. -/
theorem OwnRegsOnly.ite {p : Nat} {w w' : Work} (c : Prop) [Decidable c] (h : OwnRegsOnly p w w') : OwnRegsOnly p w (if c then w' else w) := by
  split
  · exact h
  · exact OwnRegsOnly.refl p w

/-- A change of the device beside its counters, pages, contexts and registers. -/
theorem OwnRegsOnly.d {p : Nat} (w : Work) (f : Dev → Dev) (hc : (f w.dev).ctrs = w.dev.ctrs) (hp : (f w.dev).pages = w.dev.pages)
    (hx : (f w.dev).ctxs = w.dev.ctxs) (hr : (f w.dev).regs = w.dev.regs) : OwnRegsOnly p w (w.d f) :=
  ⟨rfl, rfl, rfl, hc, hp, hx, fun _ _ _ _ => by unfold Work.reg; rw [Work.d_dev, hr]⟩

theorem OwnRegsOnly.setReg (p : Nat) {n : Nat} (hn : n < 1024) (v : Word) (w : Work) : OwnRegsOnly p w (w.setReg p n v) :=
  ⟨rfl, rfl, rfl, rfl, rfl, rfl, fun _ _ hq hm => Work.reg_setReg_other _ _ (by omega)⟩

theorem OwnRegsOnly.set (p : Nat) {f : Fld} (hf : f.off / 4 < 1024) (v : Nat) (w : Work) : OwnRegsOnly p w (w.set p f v) := OwnRegsOnly.setReg p hf _ w

theorem OwnRegsOnly.set64 (p : Nat) {f : Fld} (hf : f.off / 4 + 1 < 1024) (v : Nat) (w : Work) : OwnRegsOnly p w (w.set64 p f v) :=
  (OwnRegsOnly.setReg p (by omega) _ w).trans (OwnRegsOnly.setReg p hf _ _)

/-- The stall times of a SEQ page set to zero, for the causes c + 1 of a list. -/
theorem OwnRegsOnly.stallTimes (p : Nat) : ∀ (l : List Nat), (∀ c ∈ l, c < 9) → ∀ w : Work,
    OwnRegsOnly p w (l.foldl (fun (w : Work) c => w.set64 p (R.SEQ_STALLNS_LO_NS_LO.i (c + 1)) 0) w) := by
  intro l
  induction l with
  | nil => intro _ w; exact OwnRegsOnly.refl p w
  | cons c l ih =>
    intro hl w
    obtain ⟨hc, hl⟩ := List.forall_mem_cons.mp hl
    have place : (R.SEQ_STALLNS_LO_NS_LO.i (c + 1)).off / 4 + 1 < 1024 := by simp only [Fld.i]; omega
    exact (OwnRegsOnly.set64 p place 0 w).trans (ih hl _)

/-- Once the counters are cleared, CLR_COUNTERS touches registers of its page and what the page's unit keeps. -/
theorem Work.clearCounters_ownRegs (p m : Nat) (w : Work) : OwnRegsOnly p (w.dropCtrs p m) (w.clearCounters p m) := by
  unfold Work.clearCounters
  extract_lets dropped latency stalls idleTime
  have hLatency : OwnRegsOnly p dropped latency := OwnRegsOnly.ite _ (OwnRegsOnly.set p (by decide) _ _)
  have hStalls : OwnRegsOnly p latency stalls :=
    OwnRegsOnly.ite _ ((OwnRegsOnly.stallTimes p (List.range 9) (by decide) latency).trans (OwnRegsOnly.d _ _ rfl rfl rfl rfl))
  have hIdle : OwnRegsOnly p stalls idleTime := OwnRegsOnly.ite _ (OwnRegsOnly.d _ _ rfl rfl rfl rfl)
  exact ((hLatency.trans hStalls).trans hIdle).trans (OwnRegsOnly.ite _ (OwnRegsOnly.set p (f := R.SEQ_COLLDISC_DISC) (by decide) 0 idleTime))

/-- The counters after CLR_COUNTERS: zero where their bits are set, else as they were. -/
theorem Work.ctr_clearCounters (p m : Nat) (w : Work) {n : Nat} (hn : n < 8) :
    (w.clearCounters p m).ctr p n = if bit m n = true then 0 else w.ctr p n := by
  rw [← Work.ctr_dropCtrs p m w hn]
  unfold Work.ctr
  rw [(Work.clearCounters_ownRegs p m w).ctrs]

/-- Clearing counters changes nothing of the device but the counters. -/
theorem Work.dropCtrs_eq (p m : Nat) (w : Work) : ∃ c, w.dropCtrs p m = w.d fun d => { d with ctrs := c } := by
  have key : ∀ (l : List Nat) (w : Work), ∃ c, l.foldl (Work.dropCtr p m) w = w.d fun d => { d with ctrs := c } := by
    intro l
    induction l with
    | nil => intro w; exact ⟨w.dev.ctrs, rfl⟩
    | cons n l ih =>
      intro w
      obtain ⟨c, hc⟩ := ih (w.dropCtr p m n)
      refine ⟨c, ?_⟩
      rw [List.foldl_cons, hc]
      unfold Work.dropCtr
      split <;> rfl
  exact key _ w

/-- Beside the counters, CLR_COUNTERS touches registers of its page and what the page's unit keeps. -/
theorem Work.clearCounters_own (p m : Nat) (w : Work) : ∃ c, OwnRegsOnly p (w.d fun d => { d with ctrs := c }) (w.clearCounters p m) := by
  obtain ⟨c, hc⟩ := w.dropCtrs_eq p m
  exact ⟨c, hc ▸ w.clearCounters_ownRegs p m⟩

/-- CLR_COUNTERS leaves the common registers of every page. -/
theorem Work.clearCounters_page (p m : Nat) (w : Work) (q : Nat) : (w.clearCounters p m).page q = w.page q := by
  obtain ⟨c, own⟩ := w.clearCounters_own p m
  unfold Work.page
  rw [own.pages]
  rfl

/-- CLR_COUNTERS cuts no transfer off. -/
theorem Work.clearCounters_cut (p m : Nat) (w : Work) : (w.clearCounters p m).cut = w.cut := by
  obtain ⟨c, own⟩ := w.clearCounters_own p m
  exact own.cut

/-- CLR_COUNTERS stays within a frame that names the registers of its page. -/
theorem WorkFrame.clearCounters (ps : List Nat) {rs : List Nat} {p : Nat} (hp : p ∈ rs) (m : Nat) (w : Work) :
    WorkFrame ps rs w (w.clearCounters p m) := by
  obtain ⟨c, own⟩ := w.clearCounters_own p m
  exact
    { mem := own.mem
      wr := own.wr
      page := fun q _ => by rw [Work.clearCounters_page]
      reg := fun q n hq _ hn => own.reg q n (fun e : q = p => hq (e ▸ hp)) hn
      ctx := fun x => by unfold Work.ctx; rw [own.ctxs]; rfl }

/-! ### The verdict of the common commands (R39, R40) -/

section
variable {w : Work} {q : Issue} (ht : typeOf q.page ∈ allTypes) (hh : q.hi = 0) (hm : w.mayIssue q.caller q.page = true)
  (hg : w.kmcGone q.page = false) (ho : (w.page q.page).outst = none)
include ht hh hm hg ho

/-- A command of every page, from 0xF0 on, with its reserved bits zero and nothing outstanding is judged by the page's state alone. -/
theorem Work.verdict_common {k : CmdSpec} (kt : k.types = allTypes) (kc : 0xF0 ≤ k.code) (kw : k.who = .any) (kl : k.legal = fun _ _ => true)
    (hr : k.resv (w.call q k.code) = true) : w.verdict q k = if (w.page q.page).state ∈ k.states then none else some .state := by
  have high : ¬k.code < 0xF0 := Nat.not_lt.mpr kc
  have idle : w.seqIdle q.page k.code = false := by
    unfold Work.seqIdle
    rw [decide_eq_false high, Bool.and_false, Bool.false_and]
  simp [Work.verdict, kt, kw, kl, ht, hh, hm, hg, ho, hr, idle]

/-- NOP passes the common checks in any state but OFF. -/
theorem Work.verdict_nop (hs : (w.page q.page).state ≠ .off) : w.verdict q nopSpec = none := by
  have states : (w.page q.page).state ∈ nopSpec.states := by
    cases h : (w.page q.page).state with
    | off => exact absurd h hs
    | _ => decide
  rw [Work.verdict_common ht hh hm hg ho rfl (by decide) rfl rfl rfl, if_pos states]

/-- CLR_COUNTERS passes the common checks where its states have the page's, and answers STATE elsewhere. -/
theorem Work.verdict_clr (ha : ((w.page q.page).args.getD 0 0).toNat < 256) :
    w.verdict q clrSpec = if (w.page q.page).state ∈ [BlockState.idle, .bound, .quiesced] then none else some .state := by
  have reserved : (w.call q 0xF1).arg 0 / 256 = 0 := Nat.div_eq_of_lt ha
  exact Work.verdict_common ht hh hm hg ho rfl (by decide) rfl rfl (beq_iff_eq.mpr reserved)
end

/-- A code that the block type does not have is UNKNOWN before any other check. -/
theorem Work.verdict_unknown (w : Work) (q : Issue) (code : Nat) : w.verdict q { types := [], code := code } = some .unknown := rfl

/-! ### What a run of a common command shows -/

/-- A command that a common check refuses, nothing being outstanding, shows that status on its page and does nothing else. -/
theorem State.run_refused {s : State} {q : Issue} {k : CmdSpec} {st : Status} (hr : s.reaches q.caller q.page) (hk : k.legal = fun _ _ => true)
    (hv : s.work.verdict q k = some st) (ho : (s.work.page q.page).outst = none) (ha : st ≠ .accepted) (hp : st ≠ .pending)
    (body : Call → Work → Work) (rs : List Nat) :
    (s.run fun w => w.command q k body).showsRefused q.page st ∧ FrameBut s (s.run fun w => w.command q k body) [q.page] rs ∧
      ∀ n, n < 8 → q.page ≠ snpPage 16 → onTheWay q.page n = false →
        (s.run fun w => w.command q k body).work.ctr q.page n = s.work.ctr q.page n := by
  obtain ⟨hok, hway⟩ := hr
  obtain ⟨l, hl⟩ := Option.isSome_iff_exists.mp hway
  have run := Work.command_refused hok hl hk hv body
  refine ⟨?_, State.run_frameBut ?_, fun n hn hs ht => ?_⟩
  · unfold State.showsRefused
    rw [State.run_work_page, run]
    exact Work.reply_shows (c := s.work.call q k.code) (by rw [Work.onLinks_page]; exact ho) ha hp
  · rw [run]
    exact (WorkFrame.onLinks _ _ _ _ _).trans (WorkFrame.reply (c := s.work.call q k.code) (List.mem_singleton.mpr rfl) _ _ _)
  · rw [State.run_work_ctr, run, Work.reply_ctr _ _ _ hs hn, Work.onLinks_ctr hl hn ht]

/-- The work of an issue as the unit of its page takes it up: the access has counted its transfers on the way. -/
def Work.taken (w : Work) (q : Issue) (l : List (Nat × Nat)) : Work := { w.onLinks (some l) (Config.linkTransfers 4) with at_ := some q.page }

/-- What has been counted on the way is all that differs when the unit takes an issue up. -/
theorem WorkFrame.taken (ps rs : List Nat) (w : Work) (q : Issue) (l : List (Nat × Nat)) : WorkFrame ps rs w (w.taken q l) :=
  (WorkFrame.onLinks ps rs w l (Config.linkTransfers 4)).trans ⟨rfl, rfl, fun _ _ => rfl, fun _ _ _ _ _ => rfl, fun _ => rfl⟩

theorem Work.taken_page (w : Work) (q : Issue) (l : List (Nat × Nat)) (p : Nat) : (w.taken q l).page p = w.page p := w.onLinks_page l _ p

theorem Work.taken_cut (w : Work) (q : Issue) (l : List (Nat × Nat)) : (w.taken q l).cut = w.cut := w.onLinks_cut l _

theorem Work.taken_ctr {w : Work} {q : Issue} {a b p n : Nat} {l : List (Nat × Nat)} (h : w.hubWay a b = some l) (hn : n < 8)
    (ht : onTheWay p n = false) : (w.taken q l).ctr p n = w.ctr p n := Work.onLinks_ctr h hn ht

/-- A command that passes, does `act` and answers DONE at once shows DONE and leaves what `act` leaves. -/
theorem State.run_done {s : State} {q : Issue} {k : CmdSpec} (h : s.legal q k) (hk : k.legal = fun _ _ => true) (ho : (s.work.page q.page).outst = none)
    (act : Call → Work → Work) {rs : List Nat} (hcut : ∀ c w, (act c w).cut = w.cut) (hpage : ∀ c w, (act c w).page q.page = w.page q.page)
    (hframe : ∀ w, WorkFrame [q.page] rs w (act (s.work.call q k.code) w)) :
    (s.run fun w => w.command q k fun c w => (act c w).reply c .done).showsDone q.page ∧
      FrameBut s (s.run fun w => w.command q k fun c w => (act c w).reply c .done) [q.page] rs ∧
      ∃ l, s.work.hubWay (s.work.callerDie q.caller) (dieOf q.page) = some l ∧
        ∀ n, (s.run fun w => w.command q k fun c w => (act c w).reply c .done).work.ctr q.page n =
          (act (s.work.call q k.code) (s.work.taken q l)).ctr q.page n := by
  obtain ⟨l, hl, way⟩ := Work.command_legal h hk fun c w => (act c w).reply c .done
  have uncut : (act (s.work.call q k.code) (s.work.taken q l)).cut = false := by rw [hcut, Work.taken_cut]; rfl
  have run : (s.work.command q k fun c w => (act c w).reply c .done) =
      (act (s.work.call q k.code) (s.work.taken q l)).reply (s.work.call q k.code) .done :=
    way.trans (Work.asUnit_of_uncut uncut)
  have idle : ((act (s.work.call q k.code) (s.work.taken q l)).page q.page).outst = none := by rw [hpage, Work.taken_page, ho]
  refine ⟨?_, State.run_frameBut ?_, l, hl, fun n => ?_⟩
  · unfold State.showsDone
    rw [State.run_work_page, run]
    exact Work.reply_shows (c := s.work.call q k.code) (st := .done) idle (by decide) (by decide)
  · rw [run]
    exact ((WorkFrame.taken _ _ _ _ _).trans (hframe _)).trans (WorkFrame.reply (c := s.work.call q k.code) (List.mem_singleton.mpr rfl) _ _ _)
  · rw [State.run_work_ctr, run, Work.reply_done, Work.modPage_ctr]

/-! ### A write of CMD (R38) -/

/-- A page with a block type is one of the 20 dies'. -/
theorem page_lt_of_typeOf_ne_zero {p : Nat} (h : typeOf p ≠ 0) : p < 40960 := by
  refine Nat.lt_of_not_le fun hp => h ?_
  have die : 20 ≤ dieOf p := by unfold dieOf; omega
  unfold typeOf blockOf
  simp only [if_neg (show ¬dieOf p < 16 by omega), if_neg (show ¬dieOf p < 20 by omega)]

/-- A page that an access reaches has a block type. -/
theorem Work.typeOf_ne_zero_of_reach {w : Work} {b : Caller} {p : Nat} (h : w.reach b p = .ok) : typeOf p ≠ 0 := by
  intro h0
  have dead : w.live p = false := by simp [Work.live, h0]
  cases b with
  | vf n =>
    simp only [Work.reach, dead, Bool.false_eq_true, if_false] at h
    split at h
    · cases h
    · split at h <;> cases h
  | _ => simp [Work.reach, dead] at h

/-- A write of CMD on a page of the package issues the command that its low byte names. -/
theorem exec_registerWrite_cmd {p : Nat} (hp : p < 40960) (b : Caller) (v : Word) (s : State) :
    exec (.registerWrite b (p * 4096 + 0x100) v) s =
      issueCommand { caller := b, page := p, hi := BitVec.ofNat 24 (v.toNat / 256) } (v.toNat % 256) s := by
  show writeRegister b (p * 4096 + 0x100) v s = _
  have page : (p * 4096 + 0x100) / 4096 = p := by omega
  have offset : (p * 4096 + 0x100) % 4096 = 0x100 := by omega
  have aligned : (p * 4096 + 0x100) % 4 = 0 := by omega
  have bar0 : ¬bar2Base ≤ p * 4096 + 0x100 := by unfold bar2Base; omega
  unfold writeRegister
  simp only [page, offset, aligned, bar0, ne_eq, not_true_eq_false, if_false, if_true]

/-- No block type has a command of a code above 0xF1 (R40): the code, 0xF2 and something, is none of the table's. -/
theorem issueCommand_above {code : Nat} (h : 0xF2 ≤ code) (q : Issue) (s : State) : issueCommand q code s = issueUnknown q code s := by
  obtain ⟨n, rfl⟩ := Nat.exists_eq_add_of_le' h
  unfold issueCommand
  rfl

/-! ### R40 -/

/-- NOP answers DONE in any state but OFF (R40). -/
theorem exec_cmdNop_done {s : State} {q : Issue} (hr : s.reaches q.caller q.page) (ht : typeOf q.page ∈ allTypes) (hh : q.hi = 0)
    (hm : s.work.mayIssue q.caller q.page = true) (hs : (s.work.page q.page).state ≠ .off) (hg : s.work.kmcGone q.page = false)
    (ho : (s.work.page q.page).outst = none) : ∃ t, exec (.cmdNop q) s = .next t ∧ t.showsDone q.page ∧ FrameBut s t [q.page] [] := by
  obtain ⟨done, frame, -⟩ := State.run_done (k := nopSpec) ⟨hr, Work.verdict_nop ht hh hm hg ho hs⟩ rfl ho (fun _ w => w) (fun _ _ => rfl)
    (fun _ _ => rfl) (fun w => (SigOnly.refl w).workFrame _ [])
  exact ⟨_, rfl, done, frame⟩

/-- CLR_COUNTERS in IDLE, BOUND and QUIESCED clears the counters of ARG0[7:0] (R40). -/
theorem exec_clrCounters_done {s : State} {q : Issue} (h : s.legal q clrSpec) (ho : (s.work.page q.page).outst = none) :
    ∃ t, exec (.clrCounters q) s = .next t ∧ (t.showsDone q.page ∧ ∀ n, n < 8 → (bit (s.arg q.page 0) n = true → t.work.ctr q.page n = 0#64) ∧
      (bit (s.arg q.page 0) n = false → onTheWay q.page n = false → t.work.ctr q.page n = s.work.ctr q.page n)) ∧
      FrameBut s t [q.page] [q.page] := by
  obtain ⟨done, frame, l, hl, ctrs⟩ := State.run_done h rfl ho (fun c w => w.clearCounters c.page (c.arg 0))
    (fun _ _ => Work.clearCounters_cut _ _ _) (fun _ _ => Work.clearCounters_page _ _ _ _)
    (fun w => WorkFrame.clearCounters _ (List.mem_singleton.mpr rfl) _ w)
  refine ⟨_, rfl, ⟨done, fun n hn => ⟨fun hb => ?_, fun hb hw => ?_⟩⟩, frame⟩
  · exact (ctrs n).trans ((Work.ctr_clearCounters _ _ _ hn).trans (if_pos hb))
  · have kept : ¬bit (s.arg q.page 0) n = true := by rw [hb]; decide
    exact (ctrs n).trans ((Work.ctr_clearCounters _ _ _ hn).trans ((if_neg kept).trans (Work.taken_ctr hl hn hw)))

/-- A code above 0xF1 is UNKNOWN on every page (R40). -/
theorem exec_registerWrite_unknown {s : State} {b : Caller} {p : Nat} {v : Word} (hr : s.reaches b p) (hv : 0xF2 ≤ v.toNat % 256)
    (ho : (s.work.page p).outst = none) :
    ∃ t, exec (.registerWrite b (p * 4096 + 0x100) v) s = .next t ∧ t.showsRefused p .unknown ∧ FrameBut s t [p] [] := by
  have hp : p < 40960 := page_lt_of_typeOf_ne_zero (Work.typeOf_ne_zero_of_reach hr.1)
  obtain ⟨refused, frame, -⟩ := State.run_refused (q := { caller := b, page := p, hi := BitVec.ofNat 24 (v.toNat / 256) })
    (k := { types := [], code := v.toNat % 256 }) hr rfl (Work.verdict_unknown _ _ _) ho (by decide) (by decide) (fun _ w => w) []
  exact ⟨_, (exec_registerWrite_cmd hp b v s).trans (issueCommand_above hv _ s), refused, frame⟩

/-- Settles O57: each of the three kinds of code by what its verdict makes of the run. -/
theorem commonCommandCodes : Obligations.CommonCommandCodes := by
  unfold Obligations.CommonCommandCodes
  refine ⟨fun s q hr ht hh hm hs hg ho => exec_cmdNop_done hr ht hh hm hs hg ho, fun s q hr ht hh ha hm hg ho => ?_,
    fun s b p v hr hv ho => exec_registerWrite_unknown hr hv ho⟩
  have verdict := Work.verdict_clr ht hh hm hg ho ha
  by_cases hs : (s.work.page q.page).state ∈ [BlockState.idle, .bound, .quiesced]
  · simp only [if_pos hs] at verdict ⊢
    exact exec_clrCounters_done ⟨hr, verdict⟩ ho
  · simp only [if_neg hs] at verdict ⊢
    obtain ⟨refused, frame, ctrs⟩ := State.run_refused hr rfl verdict ho (by decide) (by decide)
      (fun c w => (w.clearCounters c.page (c.arg 0)).reply c .done) [q.page]
    exact ⟨_, rfl, ⟨refused, ctrs⟩, frame⟩

end Sys2Proof.Machine
end

section
/-!
SUPPORT. Where a tier-1 address lies (R145): the digits of a place (the stack's quadrant and number in it, the offset's unit and byte) in terms of the address, and
the address of a place, which is the inverse of the placement.
-/
namespace Sys2Proof.Machine

/-! ### The digits of a place -/

theorem unit_dvd_quadrant : 512 ∣ 240 * gib := by decide

/-- The bytes of an address before its quadrant taken away leave its remainder, r of R145. -/
theorem sub_quadrant_bytes (a : Nat) : a - a / (240 * gib) * (240 * gib) = a % (240 * gib) := by
  rw [Nat.mod_eq_sub_div_mul]

/-- Tier 1 is its four quadrants. -/
theorem quadrant_lt_four_iff (a : Nat) : a / (240 * gib) < 4 ↔ a < t1Size := by
  have four : t1Size = 4 * (240 * gib) := rfl
  rw [four, Nat.div_lt_iff_lt_mul (by decide)]

theorem stackOf_eq (a : Nat) : stackOf a = 5 * (a / (240 * gib)) + a % (240 * gib) / 512 % 5 := by
  simp only [stackOf, sub_quadrant_bytes]

/-- A quadrant is whole units, so the byte within a unit is read off the address itself. -/
theorem stackOffset_eq (a : Nat) : stackOffset a = a % (240 * gib) / 512 / 5 * 512 + a % 512 := by
  simp only [stackOffset, Nat.mod_mod_of_dvd a unit_dvd_quadrant]

theorem stackOf_div_five (a : Nat) : stackOf a / 5 = a / (240 * gib) := by
  rw [stackOf_eq]
  omega

theorem stackOf_mod_five (a : Nat) : stackOf a % 5 = a % (240 * gib) / 512 % 5 := by
  rw [stackOf_eq]
  omega

theorem stackOffset_div_unit (a : Nat) : stackOffset a / 512 = a % (240 * gib) / 512 / 5 := by
  rw [stackOffset_eq]
  omega

theorem stackOffset_mod_unit (a : Nat) : stackOffset a % 512 = a % 512 := by
  rw [stackOffset_eq]
  omega

/-! ### The bounds of a place -/

theorem stackOf_lt_twenty {a : Nat} (h : a < t1Size) : stackOf a < 20 := by
  have quadrant : a / (240 * gib) < 4 := (quadrant_lt_four_iff a).mpr h
  rw [stackOf_eq]
  omega

/-- An offset lies within a stack's 48 GiB for every address, a tier-1 address or not. -/
theorem stackOffset_lt_stack (a : Nat) : stackOffset a < 48 * gib := by
  have rest : a % (240 * gib) < 240 * gib := Nat.mod_lt _ (by decide)
  rw [stackOffset_eq]
  unfold gib at rest ⊢
  omega

/-! ### The rotation -/

/-- The next unit of the same quadrant lies in the quadrant's next stack, the first after the last. -/
theorem stackOf_add_unit {a : Nat} (h : (a + 512) / (240 * gib) = a / (240 * gib)) :
    stackOf (a + 512) = 5 * (stackOf a / 5) + (stackOf a + 1) % 5 := by
  have rest : (a + 512) % (240 * gib) = a % (240 * gib) + 512 := by
    have split := Nat.div_add_mod a (240 * gib)
    have split' := Nat.div_add_mod (a + 512) (240 * gib)
    rw [h] at split'
    omega
  have unit : (a % (240 * gib) + 512) / 512 = a % (240 * gib) / 512 + 1 := Nat.add_div_right _ (by decide)
  rw [stackOf_eq (a + 512), h, rest, unit, stackOf_div_five, Nat.add_mod (stackOf a) 1 5, stackOf_mod_five, ← Nat.add_mod]

/-! ### The address of a place -/

/-- The address of the byte at offset `o` of stack `n`: R145 read backwards, where the stack's number in its quadrant is the last digit of the unit's number. -/
def addressOfPlace (n o : Nat) : Nat := n / 5 * (240 * gib) + ((o / 512 * 5 + n % 5) * 512 + o % 512)

theorem addressOfPlace_stackOf_stackOffset (a : Nat) : addressOfPlace (stackOf a) (stackOffset a) = a := by
  have byte : a % 512 = a % (240 * gib) % 512 := (Nat.mod_mod_of_dvd a unit_dvd_quadrant).symm
  have unit : a % (240 * gib) / 512 / 5 * 5 + a % (240 * gib) / 512 % 5 = a % (240 * gib) / 512 := Nat.div_add_mod' _ _
  unfold addressOfPlace
  rw [stackOf_div_five, stackOf_mod_five, stackOffset_div_unit, stackOffset_mod_unit, unit, byte, Nat.div_add_mod', Nat.div_add_mod']

/-- Counted from its quadrant's start, a place stays below the quadrant's end: the 48 GiB of an offset five times over are 240 GiB. -/
theorem place_lt_quadrant {o : Nat} (h : o < 48 * gib) (n : Nat) : (o / 512 * 5 + n % 5) * 512 + o % 512 < 240 * gib := by
  unfold gib at h ⊢
  omega

theorem addressOfPlace_div_quadrant {o : Nat} (h : o < 48 * gib) (n : Nat) : addressOfPlace n o / (240 * gib) = n / 5 := by
  unfold addressOfPlace
  rw [Nat.add_comm, Nat.add_mul_div_right _ _ (by decide), Nat.div_eq_of_lt (place_lt_quadrant h n), Nat.zero_add]

theorem addressOfPlace_mod_quadrant {o : Nat} (h : o < 48 * gib) (n : Nat) :
    addressOfPlace n o % (240 * gib) = (o / 512 * 5 + n % 5) * 512 + o % 512 := by
  unfold addressOfPlace
  rw [Nat.mul_add_mod', Nat.mod_eq_of_lt (place_lt_quadrant h n)]

theorem addressOfPlace_lt_t1Size {n o : Nat} (hn : n < 20) (ho : o < 48 * gib) : addressOfPlace n o < t1Size := by
  rw [← quadrant_lt_four_iff, addressOfPlace_div_quadrant ho]
  omega

theorem stackOf_addressOfPlace {o : Nat} (h : o < 48 * gib) (n : Nat) : stackOf (addressOfPlace n o) = n := by
  rw [stackOf_eq, addressOfPlace_div_quadrant h, addressOfPlace_mod_quadrant h]
  omega

theorem stackOffset_addressOfPlace {o : Nat} (h : o < 48 * gib) (n : Nat) : stackOffset (addressOfPlace n o) = o := by
  simp only [stackOffset, addressOfPlace_mod_quadrant h]
  omega

/-- Settles O60: the address of a place and the placement are inverse to each other, which gives that no two addresses share a place and that none is left over. -/
theorem tierOneInterleave : Obligations.TierOneInterleave := by
  unfold Obligations.TierOneInterleave
  refine ⟨fun a ha => ⟨rfl, ?_, stackOf_lt_twenty ha, stackOffset_lt_stack a⟩, fun a h => stackOf_add_unit h, fun a b hs ho => ?_,
    fun n o hn ho => ⟨addressOfPlace n o, addressOfPlace_lt_t1Size hn ho, stackOf_addressOfPlace ho n, stackOffset_addressOfPlace ho n⟩⟩
  · rw [sub_quadrant_bytes, stackOffset_eq]
  · calc a = addressOfPlace (stackOf a) (stackOffset a) := (addressOfPlace_stackOf_stackOffset a).symm
      _ = addressOfPlace (stackOf b) (stackOffset b) := by rw [hs, ho]
      _ = b := addressOfPlace_stackOf_stackOffset b

end Sys2Proof.Machine
end

section
/-!
SUPPORT. The power limit (R414, R415): that a signal cuts no transfer off and that an event sets its bit wherever it is raised; what a period of the cap
controller asks of a die with the highest request, through everything else that the period does; what PWR_SETLIMIT leaves; and LIMIT after the resets.
-/
namespace Sys2Proof.Machine

/-! ### Signals cut no transfer off -/

theorem Work.notify_cut (w : Work) (p b : Nat) (tag : Word) (fin : Nat) : (w.notify p b tag fin).cut = w.cut := by
  unfold Work.notify
  split
  · split <;> rfl
  · rfl

theorem Work.msix_cut (w : Work) (fn vec : Nat) : (w.msix fn vec).cut = w.cut := by
  unfold Work.msix
  dsimp only
  split <;> rfl

theorem Work.driveOut_cut (w : Work) : w.driveOut.cut = w.cut := by
  unfold Work.driveOut
  split <;> rfl

@[simp] theorem Work.set_cut (w : Work) (p : Nat) (f : Fld) (v : Nat) : (w.set p f v).cut = w.cut := rfl
@[simp] theorem Work.set64_cut (w : Work) (p : Nat) (f : Fld) (v : Nat) : (w.set64 p f v).cut = w.cut := rfl
@[simp] theorem Work.count_cut (w : Work) (p n k : Nat) : (w.count p n k).cut = w.cut := rfl

theorem Work.latchRegs_cut (w : Work) (src n : Nat) : (w.latchRegs src n).cut = w.cut := by
  simp [Work.latchRegs, Work.setB]

theorem Work.latch_cut (w : Work) (src : Nat) : (w.latch src).cut = w.cut := by
  unfold Work.latch
  exact (Work.driveOut_cut _).trans (Work.latchRegs_cut w src _)

theorem Work.sameInstant_cut (w : Work) (src : Nat) : (w.sameInstant src).cut = w.cut := by
  unfold Work.sameInstant
  split
  · split <;> rfl
  · rfl

section
variable {again : Sig → Work → Work} (ha : ∀ g w, (again g w).cut = w.cut)
include ha

theorem interruptWith_cut (p : Nat) (w : Work) : (interruptWith again p w).cut = w.cut := by
  unfold interruptWith
  dsimp only
  split
  · rfl
  · split
    · exact Work.msix_cut ..
    · exact ha ..
  · split
    · exact ha ..
    · exact Work.msix_cut ..

theorem watchWith_cut (p b : Nat) (w : Work) : (watchWith again p b w).cut = w.cut := by
  unfold watchWith
  split
  · exact ha ..
  · rfl

theorem eventWith_cut (p b : Nat) (tag : Word) (fin : Nat) (w : Work) : (eventWith again p b tag fin w).cut = w.cut := by
  have watched : (watchWith again p b (w.markEvt p b)).cut = w.cut := watchWith_cut ha p b _
  unfold eventWith
  split
  · split
    · rfl
    · exact ha ..
  · split
    · exact (interruptWith_cut ha p _).trans ((Work.notify_cut ..).trans watched)
    · exact watched

theorem triggerWith_cut (src : Nat) (w : Work) : (triggerWith again src w).cut = w.cut := by
  unfold triggerWith
  split
  · exact (ha ..).trans (Work.sameInstant_cut w src)
  · exact (ha ..).trans (Work.latch_cut w src)
end

theorem signal_cut (n : Nat) : ∀ g w, (signal n g w).cut = w.cut := by
  induction n with
  | zero => intro g w; rfl
  | succ n ih =>
    intro g w
    cases g with
    | ev p b tag fin => exact eventWith_cut ih p b tag fin w
    | err p detail word code cmd => exact ih _ _
    | trig src => exact triggerWith_cut ih src w

theorem Work.reply_cut (c : Call) (st : Status) (w : Work) : (w.reply c st).cut = w.cut := by
  unfold Work.reply
  dsimp only
  split
  · exact signal_cut ..
  · rfl

/-! ### The event of an error (R35, R36) -/

/-- An event has its bit, whatever it brings about. -/
theorem eventWith_bit {again : Sig → Work → Work} (ha : ∀ g w, SigOnly w (again g w)) (p : Nat) {b : Nat} (hb : b < 32) (tag : Word) (fin : Nat)
    (w : Work) : bit ((eventWith again p b tag fin w).page p).evt.toNat b = true := by
  have marked := Work.markEvt_bit p b w hb
  have watched : SigOnly (w.markEvt p b) (watchWith again p b (w.markEvt p b)) := SigOnly.watchWith ha _ _ _
  unfold eventWith
  split
  · rename_i already
    split
    · exact already
    · exact (ha _ _).evt_bit already
  · split
    · exact (watched.trans (SigOnly.deliverWith ha _ _ _ _ _)).evt_bit marked
    · exact watched.evt_bit marked

/-- An error logged sets ERR, bit 3, of its page. -/
theorem Work.logErr_bit (p : Nat) (detail : Word) (word code cmd : Nat) (w : Work) :
    bit ((w.logErr p detail word code cmd).page p).evt.toNat 3 = true :=
  eventWith_bit (SigOnly.signal 10) p (by decide) 0 0 _

/-- A status that R39 has logged sets ERR of the command's page. -/
theorem Work.reply_bit {st : Status} (h : logged st.code = true) (c : Call) (w : Work) : bit ((w.reply c st).page c.page).evt.toNat 3 = true := by
  unfold Work.reply
  dsimp only
  rw [if_pos h]
  exact Work.logErr_bit _ _ _ _ _ _

/-! ### What the cap controller goes by -/

/-- From `w` to `w'` die `d` keeps its rail request, its setpoint, and whether its rail is frozen. -/
structure RailKept (d : Nat) (w w' : Work) : Prop where
  vreq : w'.get (pwrPage d) R.PWR_STS_VREQ = w.get (pwrPage d) R.PWR_STS_VREQ
  vset : w'.get (pwrPage d) R.PWR_VSET_VSET = w.get (pwrPage d) R.PWR_VSET_VSET
  frozen : SMap.at false w'.dev.pwr.frozenRail d = SMap.at false w.dev.pwr.frozenRail d

theorem RailKept.refl (d : Nat) (w : Work) : RailKept d w w := ⟨rfl, rfl, rfl⟩

theorem RailKept.trans {d : Nat} {a b c : Work} (h : RailKept d a b) (k : RailKept d b c) : RailKept d a c :=
  ⟨k.vreq.trans h.vreq, k.vset.trans h.vset, k.frozen.trans h.frozen⟩

/-- Steps one after another that each keep the rail. -/
theorem RailKept.foldl {α : Type} {d : Nat} {f : Work → α → Work} :
    ∀ {l : List α}, (∀ i ∈ l, ∀ w, RailKept d w (f w i)) → ∀ w, RailKept d w (l.foldl f w)
  | [], _, w => RailKept.refl d w
  | i :: _, h, w => (h i List.mem_cons_self w).trans (RailKept.foldl (fun j hj => h j (List.mem_cons_of_mem i hj)) (f w i))

/-- A change of power control that freezes and releases no rail. -/
theorem RailKept.pwr {d : Nat} (w : Work) (f : PowerSt → PowerSt) (h : (f w.dev.pwr).frozenRail = w.dev.pwr.frozenRail) : RailKept d w (w.pwr f) :=
  ⟨rfl, rfl, by rw [Work.pwr_dev, h]⟩

theorem RailKept.count {d : Nat} (w : Work) (p n k : Nat) : RailKept d w (w.count p n k) := ⟨rfl, rfl, rfl⟩

theorem RailKept.send {d : Nat} (w : Work) (m : OutMsg) : RailKept d w (w.send m) := ⟨rfl, rfl, rfl⟩

/-- A field of another page. -/
theorem RailKept.set {d p : Nat} (hp : p ≠ pwrPage d) {f : Fld} (hf : f.off < 4096) (v : Nat) (w : Work) : RailKept d w (w.set p f v) where
  vreq := Work.get_set_word w v (by dsimp only; omega)
  vset := Work.get_set_word w v (by dsimp only; omega)
  frozen := rfl

/-- A field of the die's own PWR page that lies in neither of the two registers. -/
theorem RailKept.setOwn {d : Nat} {f : Fld} (hq : f.off / 4 ≠ 0x50) (hs : f.off / 4 ≠ 0x51) (v : Nat) (w : Work) :
    RailKept d w (w.set (pwrPage d) f v) where
  vreq := Work.get_set_word w v (by dsimp only; omega)
  vset := Work.get_set_word w v (by dsimp only; omega)
  frozen := rfl

/-- A field of PWR_STS above VREQ. -/
theorem RailKept.setSts {d : Nat} {f : Fld} (hw : f.off / 4 = 0x50) (hl : 9 < f.lo) (hh : f.hi < 32) (v : Nat) (w : Work) :
    RailKept d w (w.set (pwrPage d) f v) where
  vreq := Work.get_set_field w _ v hw.symm hh (Or.inl hl)
  vset := Work.get_set_word w v (by dsimp only; omega)
  frozen := rfl

theorem pwrPage_of_die {d : Nat} (h : d < 16) : pwrPage d = d * 2048 + 0x254 := if_pos h

theorem typeOf_pwrPage : ∀ d, d < 16 → typeOf (pwrPage d) = 0x1E := by decide

/-- No signal asks anything of a rail. -/
theorem SigOnly.railKept {d : Nat} (hd : d < 16) {w w' : Work} (h : SigOnly w w') : RailKept d w w' := by
  have page : pwrPage d ≠ snpPage 16 := by rw [pwrPage_of_die hd, show snpPage 16 = 16 * 2048 + 0x31 from rfl]; omega
  have frozen := congrArg (fun v => v.pwr.frozenRail) h.dev
  exact ⟨h.get _ _ page (by decide), h.get _ _ page (by decide), congrArg (SMap.at false · d) frozen⟩

/-! ### Publishing a floor asks nothing of a rail (R21) -/

theorem RailKept.setSeqBounds {d p : Nat} (hp : p ≠ pwrPage d) (w : Work) : RailKept d w (w.setSeqBounds p) :=
  (RailKept.set hp (by decide) _ w).trans (RailKept.set hp (by decide) _ _)

section
variable {d : Nat} (hd : d < 16)
include hd

theorem RailKept.publishSeq {p : Nat} (hp : p ≠ pwrPage d) (w : Work) : RailKept d w (w.publishSeq p) := by
  unfold Work.publishSeq
  dsimp only
  split
  · exact RailKept.refl d w
  · exact (RailKept.setSeqBounds hp w).trans ((SigOnly.raise _ _ _).railKept hd)

theorem RailKept.setBounds {e : Nat} (he : e < 16) (f : Nat) (w : Work) : RailKept d w (w.setBounds e f) := by
  have own := pwrPage_of_die hd
  have other : ∀ i, i < 0x254 → pg e i ≠ pwrPage d := by intro i hi; rw [own]; unfold pg; omega
  have bound : ∀ w : Work, RailKept d w (w.set (pwrPage e) R.PWR_PREEMPT_BOUND_BOUND (preemptBound f)) := by
    intro w
    by_cases h : e = d
    · rw [h]; exact RailKept.setOwn (by decide) (by decide) _ w
    · exact RailKept.set (by rw [own, pwrPage_of_die he]; omega) (by decide) _ w
  unfold Work.setBounds
  extract_lets floor preempt window seqs hwks
  have hFloor : RailKept d w floor := RailKept.set (other 0x251 (by decide)) (by decide) _ w
  have hWindow : RailKept d preempt window := RailKept.set (other 0x250 (by decide)) (by decide) _ preempt
  have hSeqs : RailKept d window seqs := RailKept.foldl (fun i hi v =>
    RailKept.setSeqBounds (other _ (by have := List.mem_range.mp hi; omega)) v) window
  have hHwks : RailKept d seqs hwks := RailKept.foldl (fun i hi v => by
    have page : hwkPage e i ≠ pwrPage d := other _ (by have := List.mem_range.mp hi; omega)
    exact (RailKept.set page (by decide) _ v).trans (RailKept.set page (by decide) _ _)) seqs
  have hSkps := RailKept.foldl (d := d) (l := List.range 32) (f := fun w i => w.set (skpPage e i) R.SKP_RATE_RATE (skpRate f)) (fun i hi v =>
    RailKept.set (other _ (by have := List.mem_range.mp hi; omega)) (by decide) _ v) hwks
  exact ((((hFloor.trans (bound floor)).trans hWindow).trans hSeqs).trans hHwks).trans hSkps

/-- The pages that follow a die's floor are pages of sequencers. -/
theorem spanPages_ne_pwrPage {w : Work} {e p : Nat} (h : p ∈ w.spanPages e) : p ≠ pwrPage d := by
  rintro rfl
  simp [Work.spanPages, typeOf_pwrPage d hd] at h

theorem RailKept.publish {e : Nat} (he : e < 16) (f : Nat) (w : Work) : RailKept d w (w.publish e f) := by
  have bounds := RailKept.setBounds hd he f w
  unfold Work.publish
  extract_lets set raised
  have hRaised : RailKept d w raised := by
    unfold raised
    split
    · exact bounds
    · exact bounds.trans ((SigOnly.raise _ _ _).railKept hd)
  exact hRaised.trans (RailKept.foldl (fun p hp v => RailKept.publishSeq hd (spanPages_ne_pwrPage hd hp) v) raised)

theorem RailKept.settleAt {e : Nat} (he : e < 16) (mv : Nat) (w : Work) : RailKept d w (w.settleAt e mv) := by
  have settled : RailKept d w (w.pwr fun q => { q with settled := SMap.put 750 q.settled e mv }) := RailKept.pwr w _ rfl
  unfold Work.settleAt
  dsimp only
  split
  · exact settled.trans (RailKept.publish hd he _ _)
  · exact settled

/-! ### One die's part of a period (R414, R416) -/

theorem RailKept.thermal {e : Nat} (he : e < 16) (w : Work) : RailKept d w (w.thermal e) := by
  have therm : ∀ v, RailKept d w (w.set (pwrPage e) R.PWR_STS_THERM v) := by
    intro v
    by_cases h : e = d
    · rw [h]; exact RailKept.setSts rfl (by decide) (by decide) v w
    · exact RailKept.set (by rw [pwrPage_of_die hd, pwrPage_of_die he]; omega) (by decide) v w
  unfold Work.thermal
  dsimp only
  split
  · split
    · exact therm 0
    · exact RailKept.refl d w
  · split
    · exact (therm 1).trans ((SigOnly.raise _ _ _).railKept hd)
    · exact RailKept.refl d w

/-- Another die's rail request is not this die's. -/
theorem RailKept.railRequest {e : Nat} (he : e < 16) (hne : e ≠ d) (w : Work) : RailKept d w (w.railRequest e) := by
  have page : pwrPage e ≠ pwrPage d := by rw [pwrPage_of_die hd, pwrPage_of_die he]; omega
  unfold Work.railRequest
  extract_lets p v old capped settled
  have hCapped : RailKept d w capped := RailKept.set page (by decide) _ w
  split
  · exact hCapped
  · have hSettled : RailKept d capped settled := by
      unfold settled
      split
      · exact RailKept.settleAt hd he _ _
      · exact RailKept.refl d _
    exact ((hCapped.trans hSettled).trans (RailKept.set page (by decide) _ _)).trans (RailKept.send _ _)

theorem RailKept.capDie {e : Nat} (he : e < 16) (hne : e ≠ d) (lower raise : List Nat) (w : Work) : RailKept d w (w.capDie lower raise e) := by
  unfold Work.capDie
  extract_lets p r th step down downCounted changed
  have hDown : RailKept d w down := RailKept.pwr w _ rfl
  have hCounted : RailKept d w downCounted := by
    unfold downCounted
    split
    · exact hDown.trans (RailKept.count _ _ _ _)
    · exact hDown
  have hChanged : RailKept d w changed := by
    unfold changed
    split
    · split
      · exact hCounted.trans (RailKept.count _ _ _ _)
      · exact hCounted
    · split
      · exact (RailKept.pwr w _ rfl).trans (RailKept.count _ _ _ _)
      · exact RailKept.refl d w
  exact hChanged.trans (RailKept.railRequest hd he hne changed)
end

/-! ### A period of the cap controller (R414) -/

@[simp] theorem State.run_work_get (s : State) (f : Work → Work) (p : Nat) (g : Fld) : (s.run f).work.get p g = (f s.work).get p g := rfl

/-- A die's rail request follows its cap request, where its rail is not frozen. -/
theorem Work.railRequest_vreq {d : Nat} {w : Work} (hf : SMap.at false w.dev.pwr.frozenRail d = false)
    (hv : min (w.get (pwrPage d) R.PWR_VSET_VSET) (w.capReq d) < 1024) :
    (w.railRequest d).get (pwrPage d) R.PWR_STS_VREQ = min (w.get (pwrPage d) R.PWR_VSET_VSET) (w.capReq d) := by
  unfold Work.railRequest
  extract_lets p v old capped settled
  have hCapped : RailKept d w capped := RailKept.setSts rfl (by decide) (by decide) _ w
  have notFrozen : SMap.at false capped.dev.pwr.frozenRail d ≠ true := by rw [hCapped.frozen, hf]; decide
  split
  · rename_i same
    exact hCapped.vreq.trans (same.resolve_left notFrozen).symm
  · exact (Work.get_set_same settled p R.PWR_STS_VREQ v (by decide)).trans (Nat.mod_eq_of_lt hv)

/-- A die that is to be lowered, and whose request is above 600 mV, asks for 10 mV less, or for its setpoint where that is lower. -/
theorem Work.capDie_vreq {d : Nat} {w : Work} {lower : List Nat} (hl : d ∈ lower) (hf : SMap.at false w.dev.pwr.frozenRail d = false)
    (hr : 600 < w.get (pwrPage d) R.PWR_STS_VREQ) (raise : List Nat) :
    (w.capDie lower raise d).get (pwrPage d) R.PWR_STS_VREQ =
      min (w.get (pwrPage d) R.PWR_VSET_VSET) (max 600 (w.get (pwrPage d) R.PWR_STS_VREQ - 10)) := by
  have listed : lower.contains d = true := List.contains_iff_mem.mpr hl
  have width : w.get (pwrPage d) R.PWR_STS_VREQ < 1024 := bits_lt _ 9 0
  unfold Work.capDie
  extract_lets p r th step down downCounted changed
  have hChanged : RailKept d w changed ∧ changed.capReq d = max 600 (r - 10) := by
    have hDown : RailKept d w down ∧ down.capReq d = max 600 (r - 10) := ⟨RailKept.pwr w _ rfl, SMap.at_put_same _ _ _ _⟩
    unfold changed downCounted
    rw [if_pos ⟨Or.inr listed, hr⟩, if_pos listed]
    have hCounted : RailKept d w (down.count p 0 1) := hDown.1.trans (RailKept.count _ _ _ _)
    split
    · exact ⟨hCounted.trans (RailKept.count _ _ _ _), hDown.2⟩
    · exact ⟨hCounted, hDown.2⟩
  obtain ⟨kept, request⟩ := hChanged
  have fits : min (changed.get (pwrPage d) R.PWR_VSET_VSET) (changed.capReq d) < 1024 := by
    have lowered : r < 1024 := width
    omega
  rw [Work.railRequest_vreq (kept.frozen.trans hf) fits, kept.vset, request]

/-- Over all dies, each once, a die's request is what its own part of the period makes it. -/
theorem foldl_capDie_vreq {d : Nat} {lower dies : List Nat} (hd : d ∈ dies) (hn : dies.Nodup) (hs : ∀ e ∈ dies, e < 16) (hl : d ∈ lower)
    (raise : List Nat) {w : Work} (hf : SMap.at false w.dev.pwr.frozenRail d = false) (hr : 600 < w.get (pwrPage d) R.PWR_STS_VREQ) :
    (dies.foldl (fun (w : Work) e => w.capDie lower raise e) w).get (pwrPage d) R.PWR_STS_VREQ =
      min (w.get (pwrPage d) R.PWR_VSET_VSET) (max 600 (w.get (pwrPage d) R.PWR_STS_VREQ - 10)) := by
  have die := hs d hd
  obtain ⟨before, after, rfl⟩ := List.append_of_mem hd
  obtain ⟨-, tail, apart⟩ := List.nodup_append.mp hn
  have hBefore : RailKept d w (before.foldl (fun (w : Work) e => w.capDie lower raise e) w) := RailKept.foldl (fun e he v =>
    RailKept.capDie die (hs e (List.mem_append_left _ he)) (apart e he d List.mem_cons_self) lower raise v) w
  have hAfter := fun v => RailKept.foldl (d := d) (l := after) (f := fun w e => w.capDie lower raise e) (fun e he v =>
    RailKept.capDie die (hs e (List.mem_append_right _ (List.mem_cons_of_mem _ he)))
      (fun same => (List.nodup_cons.mp tail).1 (same ▸ he)) lower raise v) v
  rw [List.foldl_append, List.foldl_cons, (hAfter _).vreq, Work.capDie_vreq hl (hBefore.frozen.trans hf) (hBefore.vreq ▸ hr), hBefore.vset, hBefore.vreq]

/-- The maximum of a start and some values is the bound of them all that one of them reaches. -/
theorem foldl_max_eq {α : Type} {f : α → Nat} {m : Nat} {l : List α} :
    ∀ {a : Nat}, a ≤ m → (∀ e ∈ l, f e ≤ m) → (a = m ∨ ∃ e ∈ l, f e = m) → l.foldl (fun a e => max a (f e)) a = m := by
  induction l with
  | nil => intro a _ _ h; simpa using h
  | cons e l ih =>
    intro a ha hl h
    obtain ⟨he, hl⟩ := List.forall_mem_cons.mp hl
    refine ih (Nat.max_le.mpr ⟨ha, he⟩) hl ?_
    obtain rfl | ⟨i, hi, rfl⟩ := h
    · exact Or.inl (Nat.max_eq_left he)
    · obtain rfl | hi := List.mem_cons.mp hi
      · exact Or.inl (Nat.max_eq_right ha)
      · exact Or.inr ⟨i, hi, rfl⟩

/-- Above LIMIT a period lowers every die with the highest request (R414). -/
theorem exec_capPeriod_vreq {s : State} (hl : s.work.live (pwrPage 16) = true) (ho : (s.work.page (pwrPage 16)).state ≠ .off) :
    ∃ t, exec .capPeriod s = .next t ∧ ∀ d, s.work.get (pwrPage 16) R.PWR_PKG_LIMIT < s.work.pkgPower → highest s d →
      t.work.get (pwrPage d) R.PWR_STS_VREQ = loweredTo s d := by
  refine ⟨_, rfl, fun d hp ⟨die, on, up, notFrozen, _, above, most⟩ => ?_⟩
  rw [State.run_work_get, if_neg (by simp [hl, ho])]
  extract_lets p limit req dies measured act aboveDies belowDies top low lower raise floor first changed ran counted
  have inDies : ∀ e, e ∈ dies ↔ e < 16 ∧ s.work.dieOn e = true ∧ SMap.at 0 s.dev.pwr.bringUp e = 0 := by simp [dies]
  have hMeasured : ∀ e, e < 16 → RailKept e s.work measured := fun e he =>
    RailKept.foldl (fun i hi v => RailKept.thermal he ((inDies i).mp hi).1 v) s.work
  have hd : d ∈ dies := (inDies d).mpr ⟨die, on, up⟩
  have hf : SMap.at false measured.dev.pwr.frozenRail d = false := (hMeasured d die).frozen.trans notFrozen
  have hr : 600 < req measured d := Nat.lt_of_lt_of_eq above (hMeasured d die).vreq.symm
  have hAbove : d ∈ aboveDies := by simp [aboveDies, act, hd, hf, hr]
  have hTop : top = req measured d := by
    refine foldl_max_eq (Nat.zero_le _) (fun e he => ?_) (Or.inr ⟨d, hAbove, rfl⟩)
    obtain ⟨small, eOn, -⟩ := (inDies e).mp (List.mem_filter.mp (List.mem_filter.mp he).1).1
    calc req measured e = req s.work e := (hMeasured e small).vreq
      _ ≤ req s.work d := most e small eOn
      _ = req measured d := (hMeasured d die).vreq.symm
  have hLower : d ∈ lower := by simp [lower, limit, p, hp, hAbove, hTop]
  have hChanged : changed.get (pwrPage d) R.PWR_STS_VREQ = loweredTo s d := by
    rw [foldl_capDie_vreq hd (List.nodup_range.filter _) (fun e he => ((inDies e).mp he).1) hLower raise hf hr, (hMeasured d die).vset, (hMeasured d die).vreq]
    rfl
  have hCounted : RailKept d changed counted := by
    have hRan : RailKept d changed ran := RailKept.pwr changed _ rfl
    unfold counted
    split
    · exact hRan.trans (RailKept.count _ _ _ _)
    · exact hRan
  refine Eq.trans ?_ (hCounted.vreq.trans hChanged)
  split
  · exact ((SigOnly.raise _ _ _).railKept die).vreq
  · rfl

/-! ### The verdict of PWR_SETLIMIT (R38, R39) -/

/-- A check that answers where it fails has not failed, where nothing answers. -/
theorem of_ite_eq_none {c : Prop} [Decidable c] {α : Type} {a : α} {o : Option α} (h : (if c then some a else o) = none) : ¬c ∧ o = none := by
  split at h
  · cases h
  · exact ⟨‹_›, h⟩

/-- A command that passes the common checks is not outstanding on its page already, stands in one of its states, and has its reserved bits zero. -/
theorem Work.of_verdict_none {w : Work} {q : Issue} {k : CmdSpec} (h : w.verdict q k = none) :
    k.resv (w.call q k.code) = true ∧ (w.page q.page).state ∈ k.states ∧ (w.page q.page).outst = none := by
  unfold Work.verdict at h
  dsimp only at h
  obtain ⟨known, h⟩ := of_ite_eq_none h
  obtain ⟨-, h⟩ := of_ite_eq_none h
  obtain ⟨standing, h⟩ := of_ite_eq_none h
  obtain ⟨busy, -⟩ := of_ite_eq_none h
  simp only [Bool.or_eq_true, Bool.not_eq_true', not_or, Bool.not_eq_false, List.contains_iff_mem] at known standing
  obtain ⟨-, reserved⟩ := known
  obtain ⟨⟨⟨state, -⟩, -⟩, -⟩ := standing
  exact ⟨reserved, state, by simpa using busy⟩

/-- An unprivileged caller of PWR_SETLIMIT is refused with OWNER before the page's state is looked at. -/
theorem Work.verdict_setlimit_owner {w : Work} {q : Issue} (hp : q.page = pwrPage 16) (hh : q.hi = 0) (ha : (w.call q 0x20).arg 0 < 2 ^ 13)
    (hc : privileged q.caller = false) : w.verdict q pwrSetlimitSpec = some .owner := by
  have type : typeOf q.page = 0x1E := by rw [hp]; decide
  have page : (w.call q 0x20).page = pwrPage 16 := hp
  unfold Work.verdict
  simp [pwrSetlimitSpec, type, hh, page, hc, show (w.call q 0x20).arg 0 < 8192 from ha]

/-- A page that an access reaches is live. -/
theorem Work.live_of_reach {w : Work} {b : Caller} {p : Nat} (h : w.reach b p = .ok) : w.live p = true := by
  cases live : w.live p with
  | true => rfl
  | false =>
    cases b with
    | vf n =>
      simp only [Work.reach, live, Bool.false_eq_true, if_false] at h
      split at h
      · cases h
      · split at h <;> cases h
    | _ => simp [Work.reach, live] at h

/-- A legal PWR_SETLIMIT finds the PWR page of HD0 live and not OFF, and nothing outstanding on its page. -/
theorem State.legal_setlimit {s : State} {q : Issue} (h : s.legal q pwrSetlimitSpec) :
    s.work.live (pwrPage 16) = true ∧ (s.work.page (pwrPage 16)).state ≠ .off ∧ (s.work.page q.page).outst = none := by
  obtain ⟨⟨reach, -⟩, verdict⟩ := h
  obtain ⟨reserved, state, idle⟩ := Work.of_verdict_none verdict
  have page : q.page = pwrPage 16 := by
    have both := (Bool.and_eq_true _ _).mp reserved
    exact beq_iff_eq.mp both.1
  refine ⟨page ▸ Work.live_of_reach reach, fun off => ?_, idle⟩
  rw [page, off] at state
  exact absurd state (by decide)

/-! ### What PWR_SETLIMIT leaves (R415) -/

/-- The status of a reply stands in STATUS, whatever is outstanding. -/
theorem bits_replyWord (g : Page) (st : Status) : bits (replyWord g st).toNat 7 0 = st.code := by
  have small : st.code < 256 := by cases st <;> decide
  have word : bits (replyWord g st).toNat 7 0 = (replyWord g st).toNat % 256 := by rw [bits_eq]; simp
  rw [word]
  unfold replyWord
  split
  · rw [BitVec.toNat_ofNat, Nat.mod_eq_of_lt (setBits_lt g.cmdSts.isLt (by decide))]
    have status := bits_setBits_fit (x := g.cmdSts.toNat) (hi := 7) (lo := 0) small
    rw [bits_eq] at status
    simpa using status
  · rw [BitVec.toNat_ofNat]
    split <;> omega

/-- A run is the work it ends in. -/
theorem State.run_eq {s : State} {f : Work → Work} {w : Work} (h : f s.work = w) : s.run f = s.run fun _ => w := by
  unfold State.run
  rw [h]

/-- A legal command whose part cuts no transfer off does its part and nothing else. -/
theorem Work.command_uncut {s : State} {q : Issue} {k : CmdSpec} (h : s.legal q k) (hk : k.legal = fun _ _ => true) {body : Call → Work → Work}
    (hc : ∀ w, (body (s.work.call q k.code) w).cut = w.cut) :
    ∃ l, s.work.command q k body = body (s.work.call q k.code) (s.work.taken q l) := by
  obtain ⟨l, -, run⟩ := Work.command_legal h hk body
  exact ⟨l, run.trans (Work.asUnit_of_uncut ((hc _).trans (s.work.taken_cut q l)))⟩

/-- The check that PWR_SETLIMIT makes of its own: the limit's range. -/
def limitCheck (c : Call) : List (Bool × Status) := [(decide (c.arg 0 < 2000) || decide (5000 < c.arg 0), .shape)]

theorem firstFail_limitCheck (c : Call) : firstFail (limitCheck c) = if c.arg 0 < 2000 ∨ 5000 < c.arg 0 then some .shape else none := by
  simp [limitCheck, firstFail]

/-- What PWR_SETLIMIT does once the common checks pass. -/
def limitPart (c : Call) (w : Work) : Work :=
  w.checked c (limitCheck c) fun w => (w.set (pwrPage 16) R.PWR_PKG_LIMIT (c.arg 0)).reply c .done

theorem limitPart_inRange {c : Call} (lo : 2000 ≤ c.arg 0) (hi : c.arg 0 ≤ 5000) (w : Work) :
    limitPart c w = (w.set (pwrPage 16) R.PWR_PKG_LIMIT (c.arg 0)).reply c .done :=
  Work.checked_pass ((firstFail_limitCheck c).trans (if_neg (not_or.mpr ⟨Nat.not_lt.mpr lo, Nat.not_lt.mpr hi⟩))) _ w

theorem limitPart_outOfRange {c : Call} (out : c.arg 0 < 2000 ∨ 5000 < c.arg 0) (w : Work) : limitPart c w = w.reply c .shape :=
  Work.checked_fail ((firstFail_limitCheck c).trans (if_pos out)) _ w

theorem limitPart_cut (c : Call) (w : Work) : (limitPart c w).cut = w.cut := by
  unfold limitPart Work.checked
  split
  · exact Work.reply_cut _ _ _
  · exact (Work.reply_cut _ _ _).trans (Work.set_cut _ _ _ _)

theorem exec_pwrSetlimit_eq {s : State} {q : Issue} {w : Work} (h : s.work.command q pwrSetlimitSpec limitPart = w) :
    exec (.pwrSetlimit q) s = .next (s.run fun _ => w) :=
  congrArg Host.Outcome.next (State.run_eq h)

/-- The work of a PWR_SETLIMIT that takes its limit. -/
def Work.limitTaken (w : Work) (q : Issue) (l : List (Nat × Nat)) : Work :=
  ((w.taken q l).set (pwrPage 16) R.PWR_PKG_LIMIT ((w.call q 0x20).arg 0)).reply (w.call q 0x20) .done

theorem exec_pwrSetlimit_done {s : State} {q : Issue} (h : s.legal q pwrSetlimitSpec) (lo : 2000 ≤ s.arg q.page 0) (hi : s.arg q.page 0 ≤ 5000) :
    ∃ l, exec (.pwrSetlimit q) s = .next (s.run fun _ => s.work.limitTaken q l) := by
  obtain ⟨l, run⟩ := Work.command_uncut h rfl (limitPart_cut _)
  exact ⟨l, exec_pwrSetlimit_eq (run.trans (limitPart_inRange (c := s.work.call q 0x20) lo hi _))⟩

theorem exec_pwrSetlimit_shape {s : State} {q : Issue} (h : s.legal q pwrSetlimitSpec) (out : s.arg q.page 0 < 2000 ∨ 5000 < s.arg q.page 0) :
    ∃ l, exec (.pwrSetlimit q) s = .next (s.run fun _ => (s.work.taken q l).reply (s.work.call q 0x20) .shape) := by
  obtain ⟨l, run⟩ := Work.command_uncut h rfl (limitPart_cut _)
  exact ⟨l, exec_pwrSetlimit_eq (run.trans (limitPart_outOfRange (c := s.work.call q 0x20) out _))⟩

section
variable (w : Work) (q : Issue) (l : List (Nat × Nat))

theorem Work.taken_get (p : Nat) (f : Fld) : (w.taken q l).get p f = w.get p f := by
  cases l <;> rfl

theorem Work.limitTaken_pwr : (w.limitTaken q l).dev.pwr = w.dev.pwr := by
  cases l <;> rfl

theorem Work.limitTaken_state (p : Nat) : ((w.limitTaken q l).page p).state = (w.page p).state := by
  rw [Work.limitTaken, Work.reply_state, Work.set_page, Work.taken_page]

/-- LIMIT holds the limit that was asked for. -/
theorem Work.limitTaken_limit (h : (w.call q 0x20).arg 0 ≤ 5000) : (w.limitTaken q l).get (pwrPage 16) R.PWR_PKG_LIMIT = (w.call q 0x20).arg 0 := by
  rw [Work.limitTaken, Work.reply_done, Work.modPage_get, Work.get_set_same _ _ _ _ (by decide)]
  exact Nat.mod_eq_of_lt (Nat.lt_of_le_of_lt h (by decide))

/-- A field of another word is as it was. -/
theorem Work.limitTaken_get {p : Nat} {f : Fld} (h : p * 1024 + f.off / 4 ≠ pwrPage 16 * 1024 + 0x53) : (w.limitTaken q l).get p f = w.get p f := by
  rw [Work.limitTaken, Work.reply_done, Work.modPage_get, Work.get_set_word _ _ h, Work.taken_get]

theorem WorkFrame.limitTaken : WorkFrame [q.page] [pwrPage 16] w (w.limitTaken q l) := by
  have set : WorkFrame [q.page] [pwrPage 16] (w.taken q l) ((w.taken q l).set (pwrPage 16) R.PWR_PKG_LIMIT ((w.call q 0x20).arg 0)) :=
    { mem := rfl
      wr := rfl
      page := fun _ _ => rfl
      reg := fun p n hp _ hn => Work.reg_setReg_other _ _ (by
        have other : p ≠ pwrPage 16 := fun e => hp (List.mem_singleton.mpr e)
        dsimp only
        omega)
      ctx := fun _ => rfl }
  exact ((WorkFrame.taken _ _ w q l).trans set).trans (WorkFrame.reply (c := w.call q 0x20) (List.mem_singleton.mpr rfl) _ _ _)

/-- The power of the package is as measured. -/
theorem Work.limitTaken_pkgPower : (w.limitTaken q l).pkgPower = w.pkgPower := by
  unfold Work.pkgPower Work.domainOn
  rw [Work.limitTaken_pwr, Work.limitTaken_get _ _ _ (by decide)]

theorem Work.limitTaken_dieOn (d : Nat) : (w.limitTaken q l).dieOn d = w.dieOn d := by
  unfold Work.dieOn
  rw [Work.limitTaken_get _ _ _ (by decide)]
end

/-! ### LIMIT after a reset (R417, R418) -/

/-- A register of which nothing stands in the device reads its reset value. -/
theorem Work.reg_of_absent {w : Work} {p n : Nat} (h : w.dev.regs.lookup (p * 1024 + n) = none) : w.reg p n = resetWord p n := by
  unfold Work.reg
  rw [h]

theorem resetWord_limit : bits (resetWord (pwrPage 16) 0x53).toNat 12 0 = 5000 := by decide

theorem exec_powerOnReset_limit (s : State) : ∃ t, exec .powerOnReset s = .next t ∧ t.work.get (pwrPage 16) R.PWR_PKG_LIMIT = 5000 :=
  ⟨_, rfl, resetWord_limit⟩

/-- Where the die of PD27 alone is switched on, LIMIT is left. -/
theorem Work.domainsOn_limit (w : Work) : (w.domainsOn [27]).get (pwrPage 16) R.PWR_PKG_LIMIT = w.get (pwrPage 16) R.PWR_PKG_LIMIT :=
  Work.get_set_word w _ (by decide)

theorem exec_warmReset_limit {s : State} (h : s.dev.pwr.porst = false) :
    ∃ t, exec .warmReset s = .next t ∧ t.work.get (pwrPage 16) R.PWR_PKG_LIMIT = 5000 := by
  refine ⟨_, rfl, ?_⟩
  rw [State.run_work_get, if_neg (by simp [h])]
  extract_lets keep old dev
  have lost : dev.regs.lookup (pwrPage 16 * 1024 + 0x53) = none := by
    refine List.lookup_eq_none_iff.mpr fun e he => bne_iff_ne.mpr fun key => ?_
    have held := (List.mem_filter.mp he).2
    rw [← key] at held
    exact absurd held (by decide)
  rw [Work.domainsOn_limit, Work.get, Work.reg_of_absent lost]
  exact resetWord_limit

/-! ### The clauses of R415 -/

/-- A limit within its range is taken (R415). -/
theorem exec_pwrSetlimit_takes {s : State} {q : Issue} (h : s.legal q pwrSetlimitSpec) (lo : 2000 ≤ s.arg q.page 0) (hi : s.arg q.page 0 ≤ 5000) :
    ∃ t, exec (.pwrSetlimit q) s = .next t ∧ t.showsDone q.page ∧ t.work.get (pwrPage 16) R.PWR_PKG_LIMIT = s.arg q.page 0 ∧
      FrameBut s t [q.page] [pwrPage 16] := by
  obtain ⟨l, run⟩ := exec_pwrSetlimit_done h lo hi
  obtain ⟨-, -, idle⟩ := State.legal_setlimit h
  refine ⟨_, run, ?_, Work.limitTaken_limit s.work q l hi, State.run_frameBut (WorkFrame.limitTaken s.work q l)⟩
  have before : (((s.work.taken q l).set (pwrPage 16) R.PWR_PKG_LIMIT (s.arg q.page 0)).page q.page).outst = none := by
    rw [Work.set_page, Work.taken_page, idle]
  exact Work.reply_shows (c := s.work.call q 0x20) (st := .done) before (by decide) (by decide)

/-- A limit outside it is refused with SHAPE, and the refusal is logged (R39, R415). -/
theorem exec_pwrSetlimit_refuses {s : State} {q : Issue} (h : s.legal q pwrSetlimitSpec) (out : s.arg q.page 0 < 2000 ∨ 5000 < s.arg q.page 0) :
    ∃ t, exec (.pwrSetlimit q) s = .next t ∧ t.showsRefused q.page .shape ∧ t.hasEvent q.page 3 ∧ FrameBut s t [q.page] [] := by
  obtain ⟨l, run⟩ := exec_pwrSetlimit_shape h out
  obtain ⟨-, -, idle⟩ := State.legal_setlimit h
  have before : ((s.work.taken q l).page q.page).outst = none := by rw [Work.taken_page, idle]
  refine ⟨_, run, ?_, Work.reply_bit (st := .shape) rfl (s.work.call q 0x20) _, State.run_frameBut ?_⟩
  · exact Work.reply_shows (c := s.work.call q 0x20) before (by decide) (by decide)
  · exact (WorkFrame.taken _ _ s.work q l).trans (WorkFrame.reply (c := s.work.call q 0x20) (List.mem_singleton.mpr rfl) _ _ _)

/-- A caller that is neither the physical function nor the KMC is refused with OWNER (R38, R415), an outstanding command or none. -/
theorem exec_pwrSetlimit_owner {s : State} {q : Issue} (hr : s.reaches q.caller q.page) (hp : q.page = pwrPage 16) (hh : q.hi = 0)
    (ha : s.arg q.page 0 < 2 ^ 13) (hc : privileged q.caller = false) :
    ∃ t, exec (.pwrSetlimit q) s = .next t ∧ bits (t.work.page q.page).cmdSts.toNat 7 0 = Status.owner.code ∧ FrameBut s t [q.page] [] := by
  obtain ⟨reach, way⟩ := hr
  obtain ⟨l, hl⟩ := Option.isSome_iff_exists.mp way
  have run := Work.command_refused reach hl rfl (Work.verdict_setlimit_owner hp hh ha hc) limitPart
  refine ⟨_, exec_pwrSetlimit_eq run, ?_, State.run_frameBut ?_⟩
  · have status := Work.reply_cmdSts (s.work.call q 0x20) .owner (s.work.onLinks (some l) (Config.linkTransfers 4))
    exact (congrArg (fun v : Word => bits v.toNat 7 0) status).trans (bits_replyWord _ _)
  · exact (WorkFrame.onLinks _ _ _ _ _).trans (WorkFrame.reply (c := s.work.call q 0x20) (List.mem_singleton.mpr rfl) _ _ _)

/-- A die with the highest request has it still once a limit is taken. -/
theorem highest_limitTaken {s : State} {q : Issue} {l : List (Nat × Nat)} {d : Nat} (h : highest s d) :
    highest (s.run fun _ => s.work.limitTaken q l) d := by
  obtain ⟨die, on, up, frozen, cool, above, most⟩ := h
  have get := fun p f => s.work.limitTaken_get q l (p := p) (f := f)
  have vreq : ∀ e, (s.work.limitTaken q l).get (pwrPage e) R.PWR_STS_VREQ = s.work.get (pwrPage e) R.PWR_STS_VREQ := fun e =>
    get _ _ (by dsimp only; omega)
  refine ⟨die, ?_, ?_, ?_, ?_, ?_, fun e he eOn => ?_⟩
  · exact (s.work.limitTaken_dieOn q l d).trans on
  · rw [State.run_dev, Work.limitTaken_pwr]; exact up
  · rw [State.run_dev, Work.limitTaken_pwr]; exact frozen
  · rw [State.run_work_get, get _ _ (by dsimp only; omega)]; exact cool
  · rw [State.run_work_get, vreq]; exact above
  · simp only [State.run_work_get, vreq]
    exact most e he ((s.work.limitTaken_dieOn q l e).symm.trans eOn)

/-- The next period of the cap goes by the limit taken (R414, R415). -/
theorem exec_pwrSetlimit_capPeriod {s : State} {q : Issue} (h : s.legal q pwrSetlimitSpec) (lo : 2000 ≤ s.arg q.page 0) (hi : s.arg q.page 0 ≤ 5000) :
    ∃ t u, exec (.pwrSetlimit q) s = .next t ∧ exec .capPeriod t = .next u ∧
      ∀ d, s.arg q.page 0 < s.work.pkgPower → highest s d → u.work.get (pwrPage d) R.PWR_STS_VREQ = loweredTo s d := by
  obtain ⟨l, run⟩ := exec_pwrSetlimit_done h lo hi
  obtain ⟨live, on, -⟩ := State.legal_setlimit h
  have limit : (s.work.limitTaken q l).get (pwrPage 16) R.PWR_PKG_LIMIT = s.arg q.page 0 := Work.limitTaken_limit s.work q l hi
  have liveThen : (s.work.limitTaken q l).live (pwrPage 16) = true := by
    unfold Work.live
    rw [Work.limitTaken_dieOn]
    exact live
  obtain ⟨u, period, lowered⟩ := exec_capPeriod_vreq (s := s.run fun _ => s.work.limitTaken q l) liveThen
    (by rw [State.run_work_page, Work.limitTaken_state]; exact on)
  refine ⟨_, u, run, period, fun d exceeds high => (lowered d ?_ (highest_limitTaken high)).trans ?_⟩
  · calc (s.work.limitTaken q l).get (pwrPage 16) R.PWR_PKG_LIMIT = s.arg q.page 0 := limit
      _ < s.work.pkgPower := exceeds
      _ = (s.work.limitTaken q l).pkgPower := (s.work.limitTaken_pkgPower q l).symm
  · unfold loweredTo
    rw [State.run_work_get, State.run_work_get, Work.limitTaken_get, Work.limitTaken_get] <;> dsimp only <;> omega

/-- Settles O59: a legal command's work is known in full, so what it shows and leaves, and what the next period makes of it, are read off it; the rest is one
common check and the reset value of a register that no reset keeps. -/
theorem powerLimit : Obligations.PowerLimit := by
  unfold Obligations.PowerLimit
  exact ⟨fun _ _ h lo hi => exec_pwrSetlimit_takes h lo hi, fun _ _ h out => exec_pwrSetlimit_refuses h out,
    fun _ _ hr hp hh ha hc => exec_pwrSetlimit_owner hr hp hh ha hc, fun _ _ h lo hi => exec_pwrSetlimit_capPeriod h lo hi,
    exec_powerOnReset_limit, fun _ h => exec_warmReset_limit h⟩

end Sys2Proof.Machine
end
